-- ==== Sys2Proof/Word.lean ====
section
/-! DEFINITION. The word types of the module. Multi-byte fields are little-endian (R3); a bit range
[high:low] counts bit 0 as the least significant bit (00_scope.md, Notation). -/

namespace Sys2Proof

/-- One byte of memory, of a frame body or of a dictionary value. -/
abbrev Byte := BitVec 8

/-- One 32-bit word: a tile-row lane (R30), an FP32 pattern (R50). -/
abbrev W32 := BitVec 32

/-- One 64-bit word: a descriptor word (R77). -/
abbrev W64 := BitVec 64

/-- The state of a lane generator (R28). -/
abbrev Gen24 := BitVec 24

/-- The four sticky flags in UNIT_FLAGS order (R47): 3 INVALID, 2 INEXACT, 1 UNDERFLOW, 0 OVERFLOW. -/
abbrev Flags := BitVec 4

end Sys2Proof
end

