-- ==== Sys2Proof/Syntax.lean ====
section
/-! DEFINITION. The commands of the module, one constructor per row of spec/opcode_table.json, and the
pieces of data that cross the module's edge inside them. The table gives its rows no operands: the
operands are the model's (log entry 1). Operands that number a part (region, cluster, port, queue) are
plain numbers; `WellFormed` bounds them. Fields of frames and messages are the numbers their tables give. -/

namespace Sys2Proof

/-- A 64 B descriptor: eight little-endian words (R77). -/
structure Desc where
  w0 : W64
  w1 : W64
  w2 : W64
  w3 : W64
  w4 : W64
  w5 : W64
  w6 : W64
  w7 : W64
  deriving DecidableEq, Repr

/-- Where a frame enters or leaves: the die mesh, a set or site port, an edge interface (R245). -/
inductive Via where
  | mesh
  | port (p : Nat)
  | edge (e : Nat)
  deriving DecidableEq, Repr

/-- A source of register and dictionary writes, as claims compare them (R280, R298). -/
inductive Source where
  | fieldPort
  | requester (node region : Nat)
  deriving DecidableEq, Repr

/-- A Kengosor frame (R232, R233). `sec` is the security word and `mac` the 16 B tag, when ENC or AUTH is set. -/
structure Frame where
  ver : Nat
  rsp : Bool
  op : Nat
  vc : Nat
  retry : Bool
  stored : Bool
  enc : Bool
  epoch : Nat
  auth : Bool
  gen : Nat
  srcRegion : Nat
  srcNode : Nat
  tag : Nat
  addr : Nat
  status : Nat
  len : Nat
  hops : Nat
  fmt : Nat
  cop : Nat
  aux : Nat
  group : Nat
  cseq : Nat
  seg : Nat
  segs : Nat
  sec : Nat
  body : List Byte
  mac : List Byte
  deriving DecidableEq, Repr

/-- A Chanter message: the header of R209 and its body. -/
structure ChMsg where
  type : Nat
  codec : Nat
  flags : Nat
  srcSite : Nat
  dstRegion : Nat
  stream : Nat
  seq : Nat
  round : Nat
  origin : Nat
  w2 : Nat
  gstride : Nat
  count : Nat
  k : Nat
  outer : Nat
  len : Nat
  body : List Byte
  deriving DecidableEq, Repr

/-- A dictionary message (R301). -/
structure DictMsg where
  ver : Nat
  kind : Nat
  op : Nat
  flags : Nat
  seq : Nat
  index : Nat
  sub : Nat
  status : Nat
  len : Nat
  offset : Nat
  time : Nat
  data : List Byte
  deriving DecidableEq, Repr

/-- A UDP packet on the field port (R300), reduced to what the port checks and answers to. -/
structure FieldPkt where
  srcAddr : List Byte
  srcPort : Nat
  dstPort : Nat
  extHeaders : Bool
  udpOk : Bool
  payload : List Byte
  deriving DecidableEq, Repr

/-- An IPv6/UDP packet on an edge interface (R253). -/
structure EdgePkt where
  extHeaders : Bool
  udpOk : Bool
  dstPort : Nat
  frame : Frame
  deriving DecidableEq, Repr

/-- A reply of the pool (R359). -/
structure PoolReply where
  pstatus : Nat
  len : Nat
  size : Nat
  data : List Byte
  deriving DecidableEq, Repr

/-- A line handshake message (R433). -/
structure KexMsg where
  kind : Nat
  node : Nat
  count : Nat
  nonce : List Byte
  kem : List Byte
  signature : List Byte
  deriving DecidableEq, Repr

/-- A failing bit that a memory test found: global sector address, bit and pattern (R410). -/
structure BitFail where
  addr : Nat
  bit : Nat
  pattern : Nat
  deriving DecidableEq, Repr, Inhabited

/-- What the surroundings and the silicon show during a cold or warm start (R376, R377): the input voltage at
the check, the regions that fail DRAM training twice, the clusters (16 × region + cluster) that fail self-test,
the ports that fail training, the node and port index found at set ports, the time that fuse burning took, and the failing bits that
memory test finds. -/
structure StartObs where
  inputMv : Nat
  trainFail : List Nat
  testFail : List Nat
  portFail : List Nat
  portFound : List (Nat × Nat × Nat)
  fuseMs : Nat
  bits : List BitFail := []
  deriving DecidableEq, Repr, Inhabited

/-- What a calibration set holds for Bellows, the ports and the stacks (R418): sensor trims; equalisation starting points per port and
lane; DRAM timing per channel; energy in pJ of one count of each activity counter (four array widths, vector lanes, buffer banks, stack
sectors, update lanes, cluster starts, die activity); the regions' starting gains in millionths and offsets in mW. -/
structure CalSet where
  trims : List Int
  portEq : List Nat
  dramTiming : List Nat
  energy : List Nat
  gains : List (Nat × Int)
  deriving DecidableEq, Repr, Inhabited

/-- A function that the disable cycle of R395 and R396 takes out of service. -/
inductive Func where
  | region (r : Nat)
  | context (r c : Nat)
  | port (p : Nat)
  | chanter
  | ring (i : Nat)
  | stageQueue (i : Nat)
  deriving DecidableEq, Repr

/-- A reset domain (R398). -/
inductive Domain where
  | region (r : Nat)
  | die (d : Nat)
  | warm
  | cold
  deriving DecidableEq, Repr

/-- The mean voltage and current of one rail over a measurement period (R318). -/
structure RailReading where
  mv : Nat
  ma : Nat
  deriving DecidableEq, Repr

/-- A firmware image as R424 lays it out. -/
structure FwImage where
  magic : Nat
  fwVersion : Nat
  svn : Nat
  bodyDigest : List Byte
  signer : List Byte
  header : List Byte
  signature : List Byte
  body : List Byte
  deriving DecidableEq, Repr, Inhabited

/-- One command. The docstring of each constructor names its row's rule. -/
inductive Instr where
  /-- COLD_START (R376): Input passes 44 V and the module runs the cold start sequence from the boot ROM through to CONFIG. -/
  | coldStart (obs : StartObs)
  /-- POWER_FAIL (R330): Input below 42 V for 20 µs or above 66 V for 10 µs drops every gate and starts the power-fail sequence. -/
  | powerFail (mv : Nat)
  /-- LOSS_RECORD_WRITTEN (R448): Programming of the loss record ends and the module proceeds to a cold reset or waits for input. -/
  | lossRecordWritten (obs : StartObs)
  /-- RAILS_STOP (R330): Input falls below 38 V and the rails stop, leaving only the standby converter. -/
  | railsStop (mv : Nat)
  /-- INPUT_VOLTAGE_HIGH (R330): Input above 64 V for 1 ms posts input voltage high. -/
  | inputVoltageHigh (mv : Nat)
  /-- RESET_N_LOW (R453): RESET_N held low for at least 10 µs starts a module cold reset, deferred during loss-record or calibration programming. -/
  | resetNLow
  /-- RESET_N_RISE (R453): A rising edge of RESET_N starts a cold start from the boot ROM step. -/
  | resetNRise (obs : StartObs)
  /-- RESET_MODULE_WARM (R378): A write of 1 to RESET_MODULE performs a module warm reset that returns the module to CONFIG. -/
  | resetModuleWarm (obs : StartObs)
  /-- RESET_MODULE_COLD (R398): A write of 2 to RESET_MODULE performs a module cold reset. -/
  | resetModuleCold (obs : StartObs)
  /-- RESET_REGION (R100): A region reset discards descriptors, clears controls, activates context 0 and increments GEN. -/
  | resetRegion (mask : Nat)
  /-- RESET_DIE (R400): A die reset retrains ports and stacks and resets the die's regions, mesh, collective share and helper. -/
  | resetDie (mask : Nat)
  /-- RESET_COMPLETED (R399): A reset domain finishes recovery and accepts work again, and reset completed is posted. -/
  | resetCompleted (d : Domain)
  /-- REGION_RECOVERY_LATE (R401): A region that has not recovered within 100 ms of its reset stays disabled and region lost is posted. -/
  | regionRecoveryLate (r : Nat)
  /-- RUN_ENTER (R380): A write of 1 to RUN_ENTER checks the module in order and enters RUN, or refuses with the first failed check. -/
  | runEnter (v : Nat)
  /-- ALERT_ACK (R391): A write to ALERT_ACK releases the alert line. -/
  | alertAck (v : Nat)
  /-- REGION_DISABLE (R396): A write to REGION_DISABLE fences the region and starts its drain. -/
  | regionDisable (r v : Nat)
  /-- CTX_DISABLE (R396): A write to a CTX_DISABLE bit fences the context and starts its drain. -/
  | ctxDisable (r mask : Nat)
  /-- CHANTER_DISABLE (R396): A write to CHANTER_DISABLE fences Chanter and starts its drain. -/
  | chanterDisable (v : Nat)
  /-- FUNCTION_ENABLE (R397): A disabled function is enabled again, or the enable is applied when its abort ends. -/
  | functionEnable (f : Func)
  /-- DRAIN_END (R395): All work accepted by a function being disabled ends, and the function reads disabled. -/
  | drainEnd (f : Func)
  /-- DRAIN_TIMEOUT (R395): DRAIN_TIMEOUT_MS expires, the remaining work is aborted and the function's generation increments. -/
  | drainTimeout (f : Func)
  /-- SUBMIT_DESCRIPTOR (R78): A 64 B descriptor arriving at a region's submission port is checked and either accepted or refused. -/
  | submitDescriptor (r : Nat) (d : Desc)
  /-- DISPATCH_DESCRIPTOR (R79): The region dispatches a descriptor once its waits, order, context, fence and resource conditions hold. -/
  | dispatchDescriptor (r q : Nat)
  /-- DESCRIPTOR_COMPLETE (R85): A descriptor completes, raises its SIG_ID counter on success, halts its queue on failure and writes or holds its completion record. -/
  | descriptorComplete (r id : Nat)
  /-- QUEUE_HEAD_WRITE (R85): The driver advances a queue's HEAD, releasing held completion records and stored refusal records. -/
  | queueHeadWrite (r q word : Nat)
  /-- RESUME (R83): A write to RESUME clears HALTED and dispatch continues. -/
  | resume (r q : Nat)
  /-- FLUSH (R83): A write to FLUSH discards a queue's undispatched descriptors, counts them and clears HALTED. -/
  | flush (r q : Nat)
  /-- SYNC_COUNTER_WRITE (R99): A direct write sets a sync counter. -/
  | syncCounterWrite (r k v : Nat)
  /-- SWITCH (R96): A write to SWITCH requests a switch of the region to the context in SWITCH_TO. -/
  | switch (r target : Nat)
  /-- QUANTUM_EXPIRY (R96): QUANTUM_MS expires and the region switches to the next context that has dispatchable work. -/
  | quantumExpiry (r : Nat)
  /-- SWITCH_DRAINED (R96): The outgoing context's dispatched work completes and the save and load of context state begins. -/
  | switchDrained (r : Nat)
  /-- SWITCH_COMPLETE (R96): 25 µs later, SWITCHING clears, ACTIVE_CTX changes and any kept switch request is acted on. -/
  | switchComplete (r : Nat)
  /-- CLUSTER_FENCE_WRITE (R97): A write to the FENCE bits stops dispatch to the named clusters. -/
  | clusterFenceWrite (r mask : Nat)
  /-- CLUSTER_FENCED (R97): Work dispatched to a fenced cluster completes and its FENCED bit is set. -/
  | clusterFenced (r c : Nat)
  /-- MATRIX_DESCRIPTOR (R23): A matrix descriptor runs its K-chunks through the array into accumulator memory. -/
  | matrixDescriptor (r id : Nat)
  /-- MOV (R40): Vector operation that copies a to the destination format. -/
  | mov (r id : Nat)
  /-- ADD (R40): Vector operation a + b. -/
  | add (r id : Nat)
  /-- SUB (R40): Vector operation a − b. -/
  | sub (r id : Nat)
  /-- MUL (R40): Vector operation a × b. -/
  | mul (r id : Nat)
  /-- FMA (R40): Vector operation a × b + c with one rounding. -/
  | fma (r id : Nat)
  /-- MAX (R40): Vector operation max(a, b), with +0 above −0. -/
  | max (r id : Nat)
  /-- MIN (R40): Vector operation min(a, b). -/
  | min (r id : Nat)
  /-- ABS (R40): Vector operation |a|. -/
  | abs (r id : Nat)
  /-- NEG (R40): Vector operation −a. -/
  | neg (r id : Nat)
  /-- CMPGT (R40): Vector operation giving 1.0 if a > b, else 0.0. -/
  | cmpgt (r id : Nat)
  /-- SELECT (R40): Vector operation giving a if c ≠ 0, else b. -/
  | select (r id : Nat)
  /-- EXP2 (R40): Vector operation 2^a at quarter rate. -/
  | exp2 (r id : Nat)
  /-- LOG2 (R40): Vector operation log₂ a. -/
  | log2 (r id : Nat)
  /-- RCP (R40): Vector operation 1/a. -/
  | rcp (r id : Nat)
  /-- RSQRT (R40): Vector operation 1/√a. -/
  | rsqrt (r id : Nat)
  /-- EXP (R40): Vector operation e^a. -/
  | exp (r id : Nat)
  /-- SILU_MUL (R40): Vector operation a · σ(a) · b. -/
  | siluMul (r id : Nat)
  /-- RSUM (R41): Vector reduction giving the sum of each row in the fixed lane and tree order. -/
  | rsum (r id : Nat)
  /-- RSUMSQ (R41): Vector reduction giving the sum of squares of each row. -/
  | rsumsq (r id : Nat)
  /-- RMAX_IDX (R41): Vector reduction giving each row's maximum and its index. -/
  | rmaxIdx (r id : Nat)
  /-- RMIN_IDX (R41): Vector reduction giving each row's minimum and its index. -/
  | rminIdx (r id : Nat)
  /-- SMAX_STEP (R40): Vector operation that updates the online-softmax state (m, s) per row. -/
  | smaxStep (r id : Nat)
  /-- SMAX_NORM (R40): Vector operation that normalises elements by the softmax state. -/
  | smaxNorm (r id : Nat)
  /-- CONVERSION_UNSCALED (R92): Conversion with q = 1.0 in a single pass, writing the statistics record. -/
  | conversionUnscaled (r id : Nat)
  /-- CONVERSION_CURRENT (R92): Conversion that measures the amax across the spanned clusters, combines it, and casts with current scaling. -/
  | conversionCurrent (r id : Nat)
  /-- CONVERSION_DELAYED (R60): Conversion that takes q from the amax history, casts, and writes back the history record. -/
  | conversionDelayed (r id : Nat)
  /-- CONVERSION_FIXED (R90): Conversion with the fixed q of QFIX. -/
  | conversionFixed (r id : Nat)
  /-- MOVE (R89): A move copies rows of slots as stored, with their codes, between cluster buffer and bonded memory. -/
  | move (r id : Nat)
  /-- MOVE_COMPRESS (R110): A move with CMODE 0b01 packs raw slots into the lossless block format on the write to bonded memory. -/
  | moveCompress (r id : Nat)
  /-- FENCE (R86): Event operation FENCE, dispatched and waiting for earlier descriptors of its context. -/
  | fence (r id : Nat)
  /-- FENCE_COMPLETE (R86): Every earlier descriptor of the context has completed and the FENCE completes. -/
  | fenceComplete (r id : Nat)
  /-- SIGNAL (R87): Event operation that adds VALUE to a local counter or to a remote counter by a fabric write. -/
  | signal (r id : Nat)
  /-- SET (R86): Event operation that sets a local counter to VALUE. -/
  | set (r id : Nat)
  /-- WAIT_UNTIL (R86): Event operation that waits until module time reaches TIME. -/
  | waitUntil (r id : Nat)
  /-- WAIT_UNTIL_EXPIRY (R86): Module time reaches a WAIT_UNTIL's TIME and the descriptor completes. -/
  | waitUntilExpiry (r id : Nat)
  /-- IDLE_HINT (R98): Event operation that declares clusters idle until TIME. -/
  | idleHint (r id : Nat)
  /-- LAUNCH (R88): Event operation that fetches COUNT descriptors from region memory and submits them. -/
  | launch (r id : Nat)
  /-- LAUNCH_RESUME (R88): A LAUNCH paused at 4,096 in-flight descriptors resumes as places free. -/
  | launchResume (r id : Nat)
  /-- YIELD (R96): Event operation that requests a switch to the context in VALUE[2:0]. -/
  | yield (r id : Nat)
  /-- FABRIC_READ (R252): Fabric descriptor that cuts a READ into frames and writes the responses locally. -/
  | fabricRead (r id : Nat)
  /-- FABRIC_WRITE (R252): Fabric descriptor that sends WRITE frames in address order. -/
  | fabricWrite (r id : Nat)
  /-- FABRIC_ACCUM (R252): Fabric descriptor that sends gradient contributions as ACCUM frames. -/
  | fabricAccum (r id : Nat)
  /-- FABRIC_GATHER (R252): Fabric descriptor that gathers working copies and opens leases. -/
  | fabricGather (r id : Nat)
  /-- FABRIC_REFETCH (R252): Fabric descriptor that refetches working copies by named version. -/
  | fabricRefetch (r id : Nat)
  /-- FABRIC_RELEASE (R252): Fabric descriptor that releases leases. -/
  | fabricRelease (r id : Nat)
  /-- FABRIC_STAGE (R193): Fabric descriptor that sends one whole stage entry, taking a credit at dispatch. -/
  | fabricStage (r id : Nat)
  /-- FABRIC_COLL (R250): Fabric descriptor that sends a collective contribution and completes when its result is written. -/
  | fabricColl (r id : Nat)
  /-- FABRIC_RESPONSE (R252): A response frame arrives for an outstanding request and the tag is freed. -/
  | fabricResponse (f : Frame) (via : Via)
  /-- TAG_ACQUIRE (R241): A request waiting for a free tag takes one when a tag is released. -/
  | tagAcquire (holder : Nat)
  /-- REQUEST_TIMEOUT (R242): A request without a response within its class timeout completes with 0x04 and its tag is quarantined. -/
  | requestTimeout (tag : Nat)
  /-- TAG_QUARANTINE_END (R242): A quarantined tag becomes free for reuse after twice the timeout. -/
  | tagQuarantineEnd (tag : Nat)
  /-- READ (R235): A READ frame is served, in expanded or stored form. -/
  | read (f : Frame) (via : Via)
  /-- WRITE (R237): A WRITE frame is applied, and the response leaves once the write is visible. -/
  | write (f : Frame) (via : Via)
  /-- ACCUM (R163): An ACCUM frame adds a gradient contribution to a block's accumulator and counts completions toward the norm. -/
  | accum (f : Frame) (via : Via)
  /-- GATHER (R179): A GATHER frame is served from working copies and opens leases. -/
  | gather (f : Frame) (via : Via)
  /-- REFETCH (R179): A REFETCH frame is served from the body or the retained copy, or is answered with 0x05. -/
  | refetch (f : Frame) (via : Via)
  /-- RELEASE (R179): A RELEASE frame decrements RELCOUNT or RETREL, and frees the retained copy at zero. -/
  | release (f : Frame) (via : Via)
  /-- SIGNAL_FRAME (R87): A SIGNAL frame increments a counter of the destination region. -/
  | signalFrame (f : Frame) (via : Via)
  /-- STAGE (R193): A STAGE frame writes part of a stage entry at the inbound end, raising SIG when the entry has arrived. -/
  | stage (f : Frame) (via : Via)
  /-- CREDIT (R193): A CREDIT frame grants or returns credits to an outbound end, or asks an inbound end for a grant. -/
  | credit (f : Frame) (via : Via)
  /-- COLL (R250): A COLL contribution is matched by GROUP and CSEQ, and reduced by the rank tree when the last member arrives. -/
  | coll (f : Frame) (via : Via)
  /-- REG_RD (R277): A REG_RD frame reads a register. -/
  | regRd (f : Frame) (via : Via)
  /-- REG_WR (R277): A REG_WR frame writes a register. -/
  | regWr (f : Frame) (via : Via)
  /-- DICT (R312): A DICT frame carries an object-dictionary request in-band. -/
  | dict (f : Frame) (via : Via)
  /-- DESC (R268): A DESC frame submits a forwarded descriptor, holding it up to 5 ms when the region is full. -/
  | desc (f : Frame) (via : Via)
  /-- DESC_HOLD_TIMEOUT (R268): A held DESC finds no free place within 5 ms and is refused with 0x07. -/
  | descHoldTimeout (r : Nat)
  /-- POOL (R359): A POOL frame carries a pool request or reply. -/
  | pool (f : Frame) (via : Via)
  /-- CHANTER (R255): A CHANTER segment enters the smoothing queue for reassembly. -/
  | chanter (f : Frame) (via : Via)
  /-- TIMING (R440): A TIMING frame carries an IEEE 1588 event message with its timestamp trailer. -/
  | timing (f : Frame) (via : Via)
  /-- DUP_RECORD_EXPIRY (R243): A non-idempotent request record expires 200 µs after its answer, freeing room for held requests. -/
  | dupRecordExpiry (r k : Nat)
  /-- LINK_ACK (R238): A cumulative link acknowledgement frees frames from the retry buffer. -/
  | linkAck (p seq : Nat)
  /-- LINK_NAK (R238): A NAK makes the sender replay every unacknowledged frame in order. -/
  | linkNak (p seq : Nat)
  /-- LINK_CREDIT (R240): A credit word returns virtual-channel buffer credits. -/
  | linkCredit (p vc n : Nat)
  /-- LINK_REPLAY_TIMEOUT (R238): The oldest unacknowledged frame waits 1.5 µs and the link replays. -/
  | linkReplayTimeout (p : Nat)
  /-- LINK_FRAME_RECEIVE (R238): A link frame is received in sequence, or discarded with a NAK on a CRC error or gap. -/
  | linkFrameReceive (p seq : Nat) (crcOk : Bool) (f : Frame)
  /-- ACK_SEND_TIMER (R238): At least every 0.5 µs while frames arrive, the receiver returns a cumulative acknowledgement. -/
  | ackSendTimer (p : Nat)
  /-- LANE_LOCK_LOSS (R239): Lanes lose lock, or a frame is replayed 4 times unacknowledged, and the port enters TRAINING and re-sends on siblings. -/
  | laneLockLoss (p : Nat)
  /-- TRAINING_ATTEMPT_END (R239): A link training attempt ends: success returns the port to UP after the node check, and a third failure makes it FAILED. -/
  | trainingAttemptEnd (p : Nat) (ok : Bool) (node index : Nat)
  /-- PORT_DISABLE (R257): A write of 1 to PORT_DISABLE fences and drains the port; a write of 0 starts training. -/
  | portDisable (p v : Nat)
  /-- PORT_DRAIN_END (R257): The port's retry buffer is acknowledged or the drain times out, and the port becomes DISABLED. -/
  | portDrainEnd (p : Nat)
  /-- NEIGHBOR_SOLICITATION (R254): An edge interface answers an IPv6 Neighbor Solicitation for its own address. -/
  | neighborSolicitation (e : Nat) (src target : List Byte)
  /-- ECHO_REQUEST (R254): An edge interface answers an ICMPv6 echo request. -/
  | echoRequest (e : Nat) (src dst data : List Byte)
  /-- EDGE_PACKET_RECEIVE (R253): An IPv6/UDP packet on an edge interface is checked and its Kengosor frame extracted, or the packet is dropped. -/
  | edgePacketReceive (e : Nat) (pkt : EdgePkt)
  /-- REASM_TIMEOUT (R255): A Chanter message whose segments are not all present REASM_MS after the first is dropped whole. -/
  | reasmTimeout (e node msg : Nat)
  /-- SECTION_DECODE (R121): The decoder array decodes one coded section from the smoothing queue. -/
  | sectionDecode (e : Nat)
  /-- FRAGMENT_SEND (R213): Chanter sends the next fragment of a stream under its rate and decoder pacing. -/
  | fragmentSend (stream : Nat)
  /-- DELTA (R215): A DELTA message is merged at the home into the merge accumulators, weighted by its staleness, or dropped. -/
  | delta (src : Nat) (m : ChMsg)
  /-- RESULT (R219): A RESULT message is adopted, dropped as a duplicate, or dropped as early. -/
  | result (src : Nat) (m : ChMsg)
  /-- STATE (R219): A STATE message is adopted when its ROUND exceeds ADOPT_RND. -/
  | state (src : Nat) (m : ChMsg)
  /-- ACK (R212): An ACK frees acknowledged fragments and updates SRTT. -/
  | ack (src : Nat) (m : ChMsg)
  /-- RESYNC (R210): A RESYNC asks the home owner for STATE of a run of blocks. -/
  | resync (src : Nat) (m : ChMsg)
  /-- PROBE (R210): A PROBE is answered with PROBE_REPLY. -/
  | probe (src : Nat) (m : ChMsg)
  /-- PROBE_REPLY (R213): A PROBE_REPLY makes a held node up and resends its unacknowledged fragments. -/
  | probeReply (src : Nat) (m : ChMsg)
  /-- ACK_TIMER (R211): ACK_MS passes while a stream's fragments arrive, and the receiver acknowledges. -/
  | ackTimer (node stream : Nat)
  /-- RTO_EXPIRY (R212): A fragment not acknowledged within its RTO is re-sent with RESEND, and its RTO doubles. -/
  | rtoExpiry (stream seq : Nat)
  /-- PEER_HELD (R213): No message has come from a peer node for DEAD_MS and the node becomes held. -/
  | peerHeld (node : Nat)
  /-- PROBE_TIMER (R213): Every PROBE_MS, a PROBE is sent to a held node. -/
  | probeTimer (node : Nat)
  /-- ROUND_DEADLINE (R216): A home owner's round deadline passes, and it merges if the quorum holds. -/
  | roundDeadline
  /-- QUORUM_HOLD_EXPIRY (R216): QUORUM_HOLD_MS passes after the deadline, and the home merges and counts QUORUM_MISS. -/
  | quorumHoldExpiry
  /-- CATCHUP_DELTA (R226): After a partition heals, a held block that has become closed and caught up forms a catch-up delta. -/
  | catchupDelta (r pos : Nat)
  /-- JOIN (R227): A write of 1 to JOIN sends RESYNC for every owned block to start a late join. -/
  | join (v : Nat)
  /-- TIME_EXCHANGE (R223): Eight times per second the module runs a 1588 delay exchange with TIME_REF and updates θ. -/
  | timeExchange (t1 t2 t3 t4 : Nat)
  /-- ALIGN_LOST (R224): No exchange succeeds for 10 s, ALIGN_OK clears and time alignment lost is posted. -/
  | alignLost
  /-- INNER_UPDATE (R182): An update descriptor with UOP 0x1 runs its program over blocks of an extent. -/
  | innerUpdate (r id : Nat)
  /-- BLOCK_COMMIT (R172): One block is committed through the shadow-half protocol, waiting for shadow halves, reserve or releases as needed. -/
  | blockCommit (r k : Nat)
  /-- RESERVE_STALL_TIMEOUT (R175): A commit waiting for a reserve entry passes RESERVE_STALL_MS, and the block is left uncommitted. -/
  | reserveStallTimeout (r k : Nat)
  /-- NORM_MODULE_SUM (R165): Region 0 has all 16 partials, sums them, and contributes to the NORM_GROUP collective. -/
  | normModuleSum
  /-- NORM_FENCE (R165): The site sum returns, each region writes SUMSQ, NORM, CLIPF and STATE, and raises NORM_SIG. -/
  | normFence (sum : W32)
  /-- STEP_CLOSE (R181): A region closes step k when its update descriptors have completed and no lease is open. -/
  | stepClose (r : Nat)
  /-- DRAIN_SHARD (R352): The region reads one shard's cut versions, digests them and queries the pool. -/
  | drainShard (r : Nat)
  /-- POOL_QUERY_REPLY (R352): A QUERY reply shows whether the pool holds the shard's object. -/
  | poolQueryReply (tag : Nat) (p : PoolReply)
  /-- POOL_PUT_REPLY (R352): A PUT reply acknowledges a piece or an object and updates the directory words. -/
  | poolPutReply (tag : Nat) (p : PoolReply)
  /-- POOL_GET_REPLY (R149): A GET reply delivers object data for a recall or a restore. -/
  | poolGetReply (tag : Nat) (p : PoolReply)
  /-- POOL_COMMIT_REPLY (R358): A COMMIT reply makes the manifest durable and sets MANIFEST_LAST. -/
  | poolCommitReply (tag : Nat) (p : PoolReply)
  /-- POOL_TIMEOUT (R149): A pool request gets no answer within 50 ms and is sent again, failing after the eighth try. -/
  | poolTimeout (tag : Nat)
  /-- MANIFEST_WRITE (R358): When every region has drained, Drone signs and PUTs the manifest and sends COMMIT. -/
  | manifestWrite
  /-- CUT_AT (R362): A write of CUT_AT sets the pending cut step or is refused as late. -/
  | cutAt (v : Nat)
  /-- RESTORE_GO (R365): A write of 1 to RESTORE_GO starts a restore in the selected mode. -/
  | restoreGo (v : Nat)
  /-- RESTORE_VERIFIED (R364): The verification pass over the manifest and shards ends, and the restore applies or is refused. -/
  | restoreVerified
  /-- RESTORE_APPLIED (R366): Application of the shards ends, and resync or STATE distribution follows. -/
  | restoreApplied
  /-- RECALL_ARRIVAL (R149): A recalled object arrives and its digest is checked; the extent becomes WARM or FAILED. -/
  | recallArrival (r e : Nat)
  /-- RECALL_DEADLINE_EXPIRY (R151): RECALL_DEADLINE expires with the extent not WARM, and its update descriptors complete with 0x06. -/
  | recallDeadlineExpiry (r e : Nat)
  /-- WRITE_BACK (R152): A DIRTY extent is written back to the pool, and becomes WARM with a new KEY when acknowledged. -/
  | writeBack (r e : Nat)
  /-- TIER_FLUSH (R152): A write to TIER_FLUSH starts write-back of every DIRTY extent. -/
  | tierFlush (r v : Nat)
  /-- SCRUB_VISIT (R139): The patrol scrubber reads a slot and writes back corrected codewords. -/
  | scrubVisit (r slot : Nat)
  /-- ROW_REPAIR (R141): Drone moves a candidate row to a spare row, holding its accesses up to 2 µs. -/
  | rowRepair (r row : Nat)
  /-- REPAIR_TABLE_APPEND (R141): Drone appends a repair entry to the soft table in flash. -/
  | repairTableAppend (r : Nat)
  /-- REFRESH_WINDOW_CHANGE (R136): A DRAM sensor read changes the refresh window between 32 ms and 16 ms. -/
  | refreshWindowChange (r : Nat)
  /-- SELF_REFRESH_ENTRY (R137): The stack enters self-refresh after 10 µs without a request while the region is idle. -/
  | selfRefreshEntry (r : Nat)
  /-- SELF_REFRESH_EXIT (R137): A request ends self-refresh, and its data returns 2 µs later. -/
  | selfRefreshExit (r : Nat)
  /-- PLL_STOP (R339): A region's PLL stops when its conditions hold. -/
  | pllStop (r : Nat)
  /-- PLL_RESTART (R339): A request to a region with a stopped PLL restarts the PLL in 40 µs. -/
  | pllRestart (r : Nat)
  /-- FAST_LOOP (R322): Every 1 µs Bellows forms the estimate, updates the bucket and sets the issue gates. -/
  | fastLoop (issued moved : List Nat) (dieCounts inputMv : Nat)
  /-- SLOW_LOOP (R323): Every 50 µs Bellows compares Ē with M and checks plausibility. -/
  | slowLoop (rails : List RailReading)
  /-- ESTIMATE_REFIT (R322): Every 100 ms Bellows refits each region's gain and offset. -/
  | estimateRefit
  /-- DIVERGENCE_ENTER (R325): Twenty periods of divergence enter mode 1 and post model divergence. -/
  | divergenceEnter
  /-- DIVERGENCE_EXIT (R325): Two hundred agreeing periods leave mode 1 and post the divergence end. -/
  | divergenceExit
  /-- ESTIMATE_ONLY_EXIT (R323): Two thousand plausible periods leave mode 2. -/
  | estimateOnlyExit
  /-- DROOP_DETECT (R329): A rail falls more than 4 % below its setpoint and the region's clock is stretched. -/
  | droopDetect (r : Nat)
  /-- DROOP_RECOVER (R329): The rail holds within 2 % for 100 ns and full rate returns. -/
  | droopRecover (r : Nat)
  /-- LOGIC_SENSOR_READ (R342): Every 100 µs logic sensors are read and the V–F, gate and trip rules applied. -/
  | logicSensorRead (r : Nat) (milliC : List Int) (inletMilliC : Int)
  /-- VF_STEP (R319): Bellows moves a region one V–F point, changing frequency and voltage in the stated order. -/
  | vfStep (r : Nat) (down : Bool)
  /-- LOGIC_THERMAL_TRIP (R342): A logic sensor at 110 °C or more for 100 µs trips the power-fail sequence. -/
  | logicThermalTrip (r : Nat) (milliC : Int)
  /-- DRAM_SENSOR_READ (R343): Every 1 ms DRAM sensors are read and the refresh and rate-limit rules applied. -/
  | dramSensorRead (r : Nat) (milliC : List Int) (inletMilliC : Int)
  /-- DRAM_THERMAL_TRIP (R343): DRAM at 100 °C or more for 1 ms trips the power-fail sequence. -/
  | dramThermalTrip (r : Nat) (milliC : Int)
  /-- REFERENCE_CLOCK_LOST (R333): Loss of a reference clock holds frequencies and posts reference clock lost. -/
  | referenceClockLost (which : Nat)
  /-- SLEEP_DECISION (R336): Every microsecond Bellows chooses each cluster's sleep target and plans wakes. -/
  | sleepDecision (r : Nat)
  /-- START_ADMIT (R340): A waiting cluster start is admitted to one of the region's two ramp places. -/
  | startAdmit (r : Nat)
  /-- CLUSTER_READY (R334): A cluster's wake latency ends and it is ready for work. -/
  | clusterReady (r c : Nat)
  /-- HEARTBEAT_TICK (R287): Every 1 ms the region controllers and Drone increment their heartbeats. -/
  | heartbeatTick
  /-- FLAGS_CLEAR (R65): A write to FLAGS_CLEAR clears the selected flags in every engine and recomputes FLAGS_OR. -/
  | flagsClear (v : Nat)
  /-- FLAG_REGISTER_CLEAR (R64): A W1C write clears the written bits of a sticky flag register. -/
  | flagRegisterClear (block offset v : Nat)
  /-- REGISTER_WRITE (R278): A write to a register without behaviour of its own, applied direct or staged by the aliasing and staging rules. -/
  | registerWrite (src : Source) (block offset width v : Nat)
  /-- HELD_ACCESS_COMPLETE (R286): A register access held by a slow or sleeping domain completes when the domain answers. -/
  | heldAccessComplete (k : Nat)
  /-- MODULE_COMMIT (R284): A commit checks the selected groups' staged values together and applies them all or none. -/
  | moduleCommit (src : Source) (mask : Nat)
  /-- MODULE_DISCARD (R284): A DISCARD empties the selected groups' staging and releases their claims. -/
  | moduleDiscard (src : Source) (mask : Nat)
  /-- LOCK (R285): A LOCK write sets lock bits of strobe groups that hold no staged entries. -/
  | lock (v : Nat)
  /-- DOORBELL (R270): A doorbell write latches a command ring's TAIL and starts forwarding. -/
  | doorbell (ring v : Nat)
  /-- DESC_FORWARD (R267): The bridge forwards the next descriptor-ring entry as a DESC request. -/
  | descForward (ring : Nat)
  /-- DESC_RESPONSE (R269): A DESC response advances HEAD, or halts the ring on a refusal. -/
  | descResponse (ring status : Nat)
  /-- RING_RESUME (R269): A write to RESUME clears a command ring's HALTED. -/
  | ringResume (ring : Nat)
  /-- COMPLETION_DOORBELL (R274): A completion-doorbell write forwards the latest HEAD to the target queue. -/
  | completionDoorbell (p r q v : Nat)
  /-- MGMT_ENTRY (R275): The bridge issues one management-ring entry and writes its outcome. -/
  | mgmtEntry (ring : Nat)
  /-- HOST_FRAME_RECEIVE (R263): A host-role interface checks a host frame's source, OP and address, and drops or refuses it. -/
  | hostFrameReceive (e : Nat) (f : Frame)
  /-- HOST_DUP_RECORD_EXPIRY (R264): A host REG_WR or DICT record expires after 100 ms, freeing room for held writes. -/
  | hostDupRecordExpiry (e k : Nat)
  /-- DICT_READ (R302): A dictionary READ returns the value of an entry. -/
  | dictRead (src : Source) (m : DictMsg)
  /-- DICT_WRITE (R292): A dictionary WRITE is checked and applied direct, staged, or refused. -/
  | dictWrite (src : Source) (m : DictMsg)
  /-- DICT_INFO (R302): A dictionary INFO returns an entry's type, access, persistence, group and size. -/
  | dictInfo (src : Source) (m : DictMsg)
  /-- FIELD_REQUEST_RECEIVE (R305): A field-port request enters its queue, is dropped if the queue is full, or is answered from a duplicate record. -/
  | fieldRequestReceive (pkt : FieldPkt)
  /-- PARKED_REQUEST_RESUME (R305): A parked dictionary request is answered when its wait ends. -/
  | parkedRequestResume (k : Nat)
  /-- STORE_SAVE (R294): A write of 1 to STORE saves the stored entries into the other flash slot. -/
  | storeSave
  /-- STORE_ERASE (R295): A write of 2 to STORE erases both configuration record slots. -/
  | storeErase
  /-- STORE_COMPLETE (R294): A configuration save ends and STORE_STATUS reports its outcome. -/
  | storeComplete (ok : Bool)
  /-- TELEM_TICK (R308): Every TELEM_PERIOD_MS Drone samples and queues a telemetry message, replacing any unsent one. -/
  | telemTick
  /-- TRANSMIT_OPPORTUNITY (R299): A PLCA transmit opportunity lets the module send one waiting frame. -/
  | transmitOpportunity
  /-- PLCA_BEACON (R299): A PLCA beacon starts a cycle, and new PLCA settings take effect. -/
  | plcaBeacon
  /-- FIELD_NEIGHBOR_SOLICITATION (R300): The field port answers Neighbor Solicitations and echo requests for its own addresses. -/
  | fieldNeighborSolicitation (src target : List Byte)
  /-- LOGIC_TEST (R412): A BIST request of kind 1 fences each cluster of MASK, waits for power admission, and tests it. -/
  | logicTest (r mask deadlineMs : Nat)
  /-- LOGIC_TEST_DONE (R406): A cluster's scan and array tests end, the signatures are compared, and a record is written. -/
  | logicTestDone (r c fails : Nat)
  /-- MEMORY_TEST (R409): A BIST request of kind 2 tests a region's clear granules. -/
  | memoryTest (r deadlineMs : Nat)
  /-- PORT_RECAL (R416): A BIST request of kind 3 recalibrates a port. -/
  | portRecal (p : Nat)
  /-- DRAM_RECAL (R417): A BIST request of kind 4 retrains a region's stack once the region is idle. -/
  | dramRecal (r deadlineMs : Nat)
  /-- BIST_DEADLINE (R412): A test's wait passes DEADLINE_MS and the cluster is not tested; the request is refused with 0x09. -/
  | bistDeadline (k : Nat)
  /-- MEMTEST_GRANULE (R409): Background memory test finishes one clear granule and moves to the next. -/
  | memtestGranule (r : Nat) (fails : List BitFail)
  /-- PORT_RECAL_TIMER (R416): PORT_RECAL_HOURS passes and Drone recalibrates the next set or site port. -/
  | portRecalTimer
  /-- CAL_PROGRAM_DONE (R419): Programming of an accepted calibration image ends. -/
  | calProgramDone
  /-- FW_PROGRAM_DONE (R427): Programming of a staged firmware image into the idle slot ends. -/
  | fwProgramDone
  /-- ATTEST_NONCE (R429): A nonce write starts the signing of an attestation report, answered when signed. -/
  | attestNonce (nonce : List Byte)
  /-- INIT (R433): A handshake INIT is verified, encapsulated and answered with REPLY. -/
  | init (via : Via) (m : KexMsg)
  /-- REPLY (R433): A handshake REPLY is verified and the line keys are derived. -/
  | reply (via : Via) (m : KexMsg)
  /-- UPDATE (R439): A key UPDATE installs key n + 1 beside key n at the receiver. -/
  | update (via : Via) (m : KexMsg)
  /-- HANDSHAKE_START (R433): The module initiates a handshake at RUN entry, after a retrain, every KEX_HOURS, or after authentication failures. -/
  | handshakeStart (via : Via) (node : Nat)
  /-- REKEY (R438): A write of REKEY forces a fresh handshake with the named node or all peers. -/
  | rekey (node : Nat)
  /-- KEY_UPDATE_TIMER (R438): A sending key reaches KEY_UPDATE_S or its soft frame limit and a key update starts. -/
  | keyUpdateTimer (via : Via) (node : Nat)
  /-- KEY_RETIRE (R439): 2W after the first frame under key n + 1, the receiver retires key n. -/
  | keyRetire (via : Via) (node : Nat)
  /-- KEX_HOURS_TIMER (R433): KEX_HOURS passes and edge keys are established afresh. -/
  | kexHoursTimer
  /-- BYPASS (R456): TAP instruction BYPASS. -/
  | bypass (tdi : Bool)
  /-- IDCODE (R456): TAP instruction IDCODE returns 0x0961_6A2D. -/
  | idcode
  /-- SAMPLE_PRELOAD (R456): TAP instruction SAMPLE/PRELOAD. -/
  | samplePreload (shift : List Bool)
  /-- EXTEST (R456): TAP instruction EXTEST, accepted only while RESET_N is low. -/
  | extest (shift : List Bool)
  /-- IMAGE_LOAD (R456): TAP instruction that shifts a recovery image into the boot ROM's buffer. -/
  | imageLoad (img : FwImage)
  /-- RECOVERY_IMAGE_CHECK (R425): The boot ROM checks a loaded recovery image, writes it to slot 0 and resets cold. -/
  | recoveryImageCheck (obs : StartObs)
  /-- PORT_SIGNAL_DETECT (R256): A port in DOWN receives its first signal since reset and enters TRAINING. -/
  | portSignalDetect (p : Nat)
  /-- REFERENCE_CLOCK_RESTORED (R332): A lost 25 MHz or 156.25 MHz reference returns, and the always-on oscillator and PLLs lock to it again. -/
  | referenceClockRestored (which : Nat)
  /-- DRAM_TRAINING_AGE_DUE (R417): 720 h after a region's last DRAM training, Drone sets the region's bit in DRAM_RECAL_DUE. -/
  | dramTrainingAgeDue (r : Nat)
  /-- DRAM_RECAL_DONE (R417): The 2 ms quiesce of a DRAM timing recalibration ends, the region resumes dispatch and serving, and Drone clears its DUE bit. -/
  | dramRecalDone (r : Nat)
  /-- KEY_UPDATE_RETRY (R439): 2W after an UPDATE was answered with 0x09, the sender sends the key update again. -/
  | keyUpdateRetry (via : Via) (node : Nat)
  /-- LONG_HAUL_RATE_RECOVERY (R213): Each SRTT without an RTO expiry towards a site adds 1/16 of LH_RATE_MBPS back to that site's share, up to the full rate. -/
  | longHaulRateRecovery (site : Nat)
  deriving DecidableEq, Repr

end Sys2Proof
end

