-- ==== Sys2Proof/Config.lean ====
section
/-! DEFINITION. What the spec leaves open: constants without a body. Nothing can evaluate one, so a theorem
about the machine holds whatever value it has. The first argument of a free value is `Module.free`, a counter
of the model that each use advances, unless the docstring says otherwise (log entry 3). -/

namespace Sys2Proof.Config

/-- A byte whose contents the spec calls undefined: use number, address (R34, R75, R103). -/
opaque freeByte : Nat → Nat → Byte

/-- Contents of a cluster-buffer byte that nothing has written since the contents were lost: epoch, cluster,
byte address (R75, R103, R334). -/
opaque freeBuf : Nat → Nat → Nat → Byte

/-- Contents of a tile-row lane that nothing has written since the contents were lost: epoch, unit, word (R33, R34). -/
opaque freeTile : Nat → Nat → Nat → W32

/-- Distance in ulp between an approximated function's result and the reference value: function code, argument
pattern. The model keeps it within the bound that the spec gives the function (R37, R40, R168). -/
opaque ulpError : Nat → Nat → Int

/-- A physical fault that the surroundings bring about at an always-on tick: its kind and its place, by use number
(R35, R75, R133; the kinds are those of `tickFault`). -/
opaque faultKind : Nat → Nat
opaque faultPlace : Nat → Nat

/-- Waiting cycles that a descriptor spends beyond the cycle formulas (R31, R42, R74, R93): use number. -/
opaque waitCycles : Nat → Nat

/-- Cycles that requesters of a cluster buffer lose to arbitration while a descriptor works (R74): use number. -/
opaque bankWaits : Nat → Nat

/-- The range coder's output for a payload: the encoder is free in how it produces a lane (R121). -/
opaque rangeCoded : List Byte → List Byte

/-- Falcon-1024 signature verification: public key, message, signature (R424, R441). -/
opaque falconVerify : List Byte → List Byte → List Byte → Bool

/-- Falcon-1024 signature: key, message, use number. -/
opaque falconSign : List Byte → List Byte → Nat → List Byte

/-- ML-KEM-1024: public key of a seed, encapsulation (shared secret, ciphertext), decapsulation (R433). -/
opaque kemPublic : Nat → List Byte
opaque kemEncaps : List Byte → Nat → List Byte × List Byte
opaque kemDecaps : Nat → List Byte → List Byte

/-- AES-256-GCM: the 16 B tag and the transformed body, by key, nonce, associated data and body (R435). -/
opaque gcmTag : List Byte → List Byte → List Byte → List Byte → List Byte
opaque gcmBody : List Byte → List Byte → List Byte → List Byte

/-- Random bytes of the security engine: use number, length. -/
opaque randomBytes : Nat → Nat → List Byte

/-- Does the security engine's double computation disagree at this use (R431)? -/
opaque engineMismatch : Nat → Bool

/-- The identity that Nymmen wrote into the module: serial number, public key, certificate, fingerprint, MAC base
(R428, R443) and the private key. -/
opaque serial : List Byte
opaque identityKey : List Byte
opaque identityPub : List Byte
opaque identityCert : List Byte
opaque macBase : List Byte

/-- Nymmen's root key and the signer keys that firmware is checked against (R424). -/
opaque rootKey : List Byte

/-- The firmware signing key that the boot ROM holds (R424); the image and the calibration set that the module ships with (R461). -/
opaque fwKey : List Byte
opaque factoryImage : FwImage
opaque factoryCal : List Byte

/-- What a calibration set holds (R418; its layout is not given): SERIAL, CAL_ID, and a region's V–F table of eight points. -/
opaque calSerial : List Byte → List Byte
opaque calId : List Byte → List Byte
opaque calVf : List Byte → Nat → List Byte
opaque calSet : List Byte → CalSet

/-- Leakage of a region in mW (R322), by calibration set: region, hottest logic sensor in millidegrees, rail setpoint in mV. -/
opaque leakMw : List Byte → Nat → Int → Nat → Nat

/-- What a firmware image holds for logic tests (R405, R406): the generator's seed; the expected signature of a cluster number and a
register. What a register that differs holds beside it, by use number. -/
opaque testSeed : FwImage → Nat
opaque testSig : FwImage → Nat → Nat → Nat
opaque sigDiff : Nat → Nat

/-- The signatures that fail in a start-up logic test, by use number (R406). -/
opaque testFails : Nat → Nat

/-- What the surroundings and the silicon show during a start that a dictionary write asks for, by use number (R376). -/
opaque startObs : Nat → StartObs

/-- The status of a write whose operation the security engine fails: the spec gives none (R431). -/
opaque engineFailStatus : Nat

/-- Waiting time in ns that the spec bounds but does not state, by use number. -/
opaque delayNs : Nat → Nat

/-- The hash that chooses an edge interface: destination node, source region (R246). -/
opaque edgeHash : Nat → Nat → Nat

/-- The hash in an edge packet's flow label and source port: source node and region, destination node and region (R253). -/
opaque flowHash : Nat → Nat → Nat → Nat → Nat

/-- IEEE 1588 messages, whose bytes the spec does not give (R223): one that the module sends, by use number; does a received one ask
for an answer? -/
opaque ptpMessage : Nat → List Byte
opaque ptpAsks : List Byte → Bool

/-- Vendor diagnostic entries 0xF000–0xFFFF: present, and their bytes (R313). -/
opaque vendorEntry : Nat → Option (List Byte)

end Sys2Proof.Config
end

