-- ==== Sys2Proof/Machine/Bits.lean ====
section
/-! DEFINITION. Bit fields, byte order and saturating counts (R2, R3). -/

namespace Sys2Proof.Machine

/-- Bits [hi:lo] of a number. -/
def bits (w hi lo : Nat) : Nat := (w >>> lo) % 2 ^ (hi + 1 - lo)

/-- Bit i of a number. -/
def bit (w i : Nat) : Bool := w.testBit i

/-- Bits [hi:lo] of a 64-bit word. -/
def fld (w : W64) (hi lo : Nat) : Nat := bits w.toNat hi lo

/-- One bit of a 64-bit word. -/
def fldB (w : W64) (i : Nat) : Bool := w.toNat.testBit i

/-- A number with bit i set. -/
def setBit (w i : Nat) : Nat := w ||| 2 ^ i

/-- A number with bit i clear. -/
def clrBit (w i : Nat) : Nat := if w.testBit i then w - 2 ^ i else w

/-- A number with bit i as given. -/
def putBit (w i : Nat) (b : Bool) : Nat := if b then setBit w i else clrBit w i

/-- Place v at bit lo, cut to the field's width. -/
def place (v hi lo : Nat) : Nat := (v % 2 ^ (hi + 1 - lo)) * 2 ^ lo

/-- 1 for true, 0 for false. -/
def b2n (b : Bool) : Nat := if b then 1 else 0

/-- The little-endian bytes of a number, n of them (R3). -/
def leBytes : Nat → Nat → List Byte
  | 0, _ => []
  | n + 1, v => BitVec.ofNat 8 v :: leBytes n (v / 256)

/-- The number that little-endian bytes hold (R3). -/
def leNat : List Byte → Nat
  | [] => 0
  | b :: bs => b.toNat + 256 * leNat bs

/-- The bytes of a number, most significant first, n of them. -/
def beBytes (n v : Nat) : List Byte := (leBytes n v).reverse

/-- n bytes of xs from position i; missing bytes are 0. -/
def sliceB (xs : List Byte) (i n : Nat) : List Byte :=
  let ys := (xs.drop i).take n
  ys ++ List.replicate (n - ys.length) 0

/-- The little-endian number of n bytes at position i. -/
def leAt (xs : List Byte) (i n : Nat) : Nat := leNat (sliceB xs i n)

/-- n zero bytes. -/
def zeros (n : Nat) : List Byte := List.replicate n 0

/-- xs cut or padded with zero bytes to n bytes. -/
def fitB (n : Nat) (xs : List Byte) : List Byte := sliceB xs 0 n

/-- Quotient rounded up. -/
def ceilDiv (a b : Nat) : Nat := (a + b - 1) / b

/-- A count that saturates at 0xFFFF_FFFF. -/
def sat32 (n : Nat) : Nat := min n 0xFFFFFFFF

/-- Numbers whose bit is set, in ascending order, below n. -/
def bitList (mask n : Nat) : List Nat := (List.range n).filter (fun i => mask.testBit i)

/-- The mask that holds the given bits. -/
def maskOf (l : List Nat) : Nat := l.foldl setBit 0

/-- Fold over 0, 1, .. n − 1. -/
def forN {σ : Type} (n : Nat) (s : σ) (f : Nat → σ → σ) : σ := (List.range n).foldl (fun s i => f i s) s

/-- Fold over a list. -/
def forL {σ α : Type} (xs : List α) (s : σ) (f : α → σ → σ) : σ := xs.foldl (fun s x => f x s) s

/-- Replace the k-th element of a list. -/
def setNth {α : Type} (xs : List α) (k : Nat) (x : α) : List α := xs.set k x

/-- Remove the k-th element of a list. -/
def dropNth {α : Type} (xs : List α) (k : Nat) : List α := xs.take k ++ xs.drop (k + 1)

/-- One bit of the CRC-32 of IEEE 802.3. -/
def crcBit (c : Nat) : Nat := if c % 2 = 1 then (c / 2) ^^^ 0xEDB88320 else c / 2

/-- The CRC-32 of IEEE 802.3: the FCS of an Ethernet frame (R253), and of a link trailer (R232, log entry 151). -/
def crc32 (bs : List Byte) : Nat :=
  (bs.foldl (fun c b => crcBit (crcBit (crcBit (crcBit (crcBit (crcBit (crcBit (crcBit (c ^^^ b.toNat))))))))) 0xFFFFFFFF) ^^^ 0xFFFFFFFF

/-- A byte as one of the digits and capital letters that SERIAL is made of (R315). -/
def serialChar (b : Byte) : Byte := BitVec.ofNat 8 (let k := b.toNat % 36; if k < 10 then 48 + k else 55 + k)

end Sys2Proof.Machine
end

