-- ==== Sys2Proof/Machine/DictTable.lean ====
section
/-! DEFINITION. The entries of the object dictionary (R65, R125, R155, R183, R197, R228, R258, R289, R315,
R316, R345, R373, R389, R404, R423, R443, R459): type, access, persistence, default, the range that a write is
checked against on its own (R292), size and strobe group (R282, R283). -/

namespace Sys2Proof.Machine

/-- The check of one written value (R291, R292). -/
inductive Rng where
  | any
  | between (lo hi : Nat)
  | zeroOr (lo hi : Nat)
  | oneOf (vs : List Nat)
  | f32 (lo hi : Nat)
  deriving DecidableEq, Repr

/-- The strobe group of an entry (R282): by region, by port, one group, or none. -/
inductive Grp where
  | region
  | port
  | fixed (g : Nat)
  | none
  deriving DecidableEq, Repr

/-- A row of a dictionary table: a span of subindices of one index. Type, access and persistence are the codes of
INFO (R302). `size` is the size of a fixed-size type, else the maximum; `whole` marks a BLOB of fixed size. -/
structure DictRow where
  idx : Nat
  lo : Nat
  hi : Nat
  ty : Nat
  acc : Nat
  pers : Nat
  dflt : Nat
  rng : Rng
  size : Nat
  whole : Bool
  grp : Grp
  deriving DecidableEq, Repr

/-- The key of an entry in the value store: index × 256 + subindex. -/
def dkey (idx sub : Nat) : Nat := idx * 256 + sub

/-! ### Keys by name -/

/-- DEVICE_CODE (R315). -/
def kDEVICE_CODE : Nat := 0x100000
/-- SERIAL (R315). -/
def kSERIAL : Nat := 0x100001
/-- FW_VERSION (R315). -/
def kFW_VERSION : Nat := 0x100002
/-- FW_IMAGE (R315). -/
def kFW_IMAGE : Nat := 0x100003
/-- DRONE_HEARTBEAT (R315). -/
def kDRONE_HEARTBEAT : Nat := 0x100100
/-- MODULE_TIME (R315). -/
def kMODULE_TIME : Nat := 0x100101
/-- MODULE_ROLE (R315). -/
def kMODULE_ROLE : Nat := 0x100200
/-- MODULE_STATE (R389). -/
def kMODULE_STATE : Nat := 0x100201
/-- RUN_ENTER (R389). -/
def kRUN_ENTER : Nat := 0x100202
/-- RUN_CHECK (R389). -/
def kRUN_CHECK : Nat := 0x100203
/-- START_MS (R389). -/
def kSTART_MS : Nat := 0x100204
/-- COMMIT (R315). -/
def kCOMMIT : Nat := 0x100300
/-- DISCARD (R315). -/
def kDISCARD : Nat := 0x100301
/-- COMMIT_STATUS (R315). -/
def kCOMMIT_STATUS : Nat := 0x100302
/-- CLAIMED (R315). -/
def kCLAIMED : Nat := 0x100303
/-- LOCK (R315). -/
def kLOCK : Nat := 0x100304
/-- STORE (R315). -/
def kSTORE : Nat := 0x101000
/-- STORE_STATUS (R315). -/
def kSTORE_STATUS : Nat := 0x101001
/-- STORE_SEQ (R315). -/
def kSTORE_SEQ : Nat := 0x101002
/-- RESET_REGION (R404). -/
def kRESET_REGION : Nat := 0x102001
/-- RESET_DIE (R404). -/
def kRESET_DIE : Nat := 0x102002
/-- RESET_MODULE (R404). -/
def kRESET_MODULE : Nat := 0x102003
/-- LAST_RESET (R404). -/
def kLAST_RESET : Nat := 0x102004
/-- ALERT_ACK (R404). -/
def kALERT_ACK : Nat := 0x102005
/-- REGION_DISABLE (R404). -/
def kREGION_DISABLE : Nat := 0x102101
/-- CHANTER_DISABLE (R404). -/
def kCHANTER_DISABLE : Nat := 0x102111
/-- DRAIN_TIMEOUT_MS (R404). -/
def kDRAIN_TIMEOUT_MS : Nat := 0x102112
/-- CTX_DISABLE (R404). -/
def kCTX_DISABLE : Nat := 0x102201
/-- REGION_GEN (R404). -/
def kREGION_GEN : Nat := 0x102301
/-- DIE_GEN (R404). -/
def kDIE_GEN : Nat := 0x102311
/-- CHANTER_GEN (R404). -/
def kCHANTER_GEN : Nat := 0x102315
/-- CTX_GEN (R404). -/
def kCTX_GEN : Nat := 0x102316
/-- REGION_FSTATE (R404). -/
def kREGION_FSTATE : Nat := 0x102401
/-- CHANTER_FSTATE (R404). -/
def kCHANTER_FSTATE : Nat := 0x102411
/-- FIELD_PLCA_ID (R315). -/
def kFIELD_PLCA_ID : Nat := 0x110000
/-- FIELD_PLCA_COUNT (R315). -/
def kFIELD_PLCA_COUNT : Nat := 0x110001
/-- FIELD_PREFIX (R315). -/
def kFIELD_PREFIX : Nat := 0x110002
/-- FIELD_RO (R315). -/
def kFIELD_RO : Nat := 0x110003
/-- TELEM_PERIOD_MS (R315). -/
def kTELEM_PERIOD_MS : Nat := 0x120000
/-- TELEM_DEST (R315). -/
def kTELEM_DEST : Nat := 0x120001
/-- TELEM_MAP (R315). -/
def kTELEM_MAP : Nat := 0x120101
/-- EVENT_DEST (R315). -/
def kEVENT_DEST : Nat := 0x130000
/-- EVENT_LOG (R315). -/
def kEVENT_LOG : Nat := 0x130100
/-- EVENT_SEQ (R315). -/
def kEVENT_SEQ : Nat := 0x130101
/-- POWER_CAP_W (R316). -/
def kPOWER_CAP_W : Nat := 0x200000
/-- SHORT_TERM_W (R345). -/
def kSHORT_TERM_W : Nat := 0x200001
/-- HOST_GATE (R345). -/
def kHOST_GATE : Nat := 0x200002
/-- SLEEP_DEEPEST (R316). -/
def kSLEEP_DEEPEST : Nat := 0x200100
/-- PLL_STOP (R345). -/
def kPLL_STOP : Nat := 0x200101
/-- CAP_PRIO (R345). -/
def kCAP_PRIO : Nat := 0x200201
/-- LOGIC_THROTTLE_C (R345). -/
def kLOGIC_THROTTLE_C : Nat := 0x200300
/-- DRAM_THROTTLE_C (R345). -/
def kDRAM_THROTTLE_C : Nat := 0x200301
/-- INPUT_POWER_W (R316). -/
def kINPUT_POWER_W : Nat := 0x201000
/-- INPUT_VOLTAGE_V (R345). -/
def kINPUT_VOLTAGE_V : Nat := 0x201001
/-- ESTIMATE_W (R345). -/
def kESTIMATE_W : Nat := 0x201002
/-- BUCKET_J (R345). -/
def kBUCKET_J : Nat := 0x201003
/-- THROTTLE_NOW (R316). -/
def kTHROTTLE_NOW : Nat := 0x201100
/-- CTRL_MODE (R345). -/
def kCTRL_MODE : Nat := 0x201101
/-- THROTTLE_US (R345). -/
def kTHROTTLE_US : Nat := 0x201201
/-- VF_TABLE (R345). -/
def kVF_TABLE : Nat := 0x202001
/-- EST_GAIN (R345). -/
def kEST_GAIN : Nat := 0x202101
/-- EST_OFFSET_W (R345). -/
def kEST_OFFSET_W : Nat := 0x202201
/-- LOGIC_TEMP_C (R345). -/
def kLOGIC_TEMP_C : Nat := 0x203001
/-- DRAM_TEMP_C (R345). -/
def kDRAM_TEMP_C : Nat := 0x203101
/-- COOLANT_INLET_C (R459). -/
def kCOOLANT_INLET_C : Nat := 0x203200
/-- FORMATS (R65). -/
def kFORMATS : Nat := 0x300000
/-- FLAGS_OR (R65). -/
def kFLAGS_OR : Nat := 0x300100
/-- FLAGS_CLEAR (R65). -/
def kFLAGS_CLEAR : Nat := 0x300101
/-- FLAGS_REGIONS (R65). -/
def kFLAGS_REGIONS : Nat := 0x300102
/-- WATCH_NONFIN (R65). -/
def kWATCH_NONFIN : Nat := 0x301001
/-- WATCH_SAT_SHIFT (R65). -/
def kWATCH_SAT_SHIFT : Nat := 0x301002
/-- WATCH_FLUSH_SHIFT (R65). -/
def kWATCH_FLUSH_SHIFT : Nat := 0x301003
/-- UWR_BASE (R65). -/
def kUWR_BASE : Nat := 0x302001
/-- ALLOC_MAP (R155). -/
def kALLOC_MAP : Nat := 0x400001
/-- SCRUB_HOURS (R155). -/
def kSCRUB_HOURS : Nat := 0x400100
/-- CE_ADVISE (R155). -/
def kCE_ADVISE : Nat := 0x400200
/-- FUSE_REPAIR (R155). -/
def kFUSE_REPAIR : Nat := 0x400300
/-- UE_LOG (R155). -/
def kUE_LOG : Nat := 0x400401
/-- REPAIR_SOFT (R155). -/
def kREPAIR_SOFT : Nat := 0x400501
/-- COMP_WORKING (R125). -/
def kCOMP_WORKING : Nat := 0x410000
/-- TIER_CFG (R155). -/
def kTIER_CFG : Nat := 0x420001
/-- RECALL_DEADLINE (R155). -/
def kRECALL_DEADLINE : Nat := 0x420100
/-- TIER_ERROR (R155). -/
def kTIER_ERROR : Nat := 0x420201
/-- TIER_FLUSH (R155). -/
def kTIER_FLUSH : Nat := 0x420301
/-- TIER_POLICY (R389). -/
def kTIER_POLICY : Nat := 0x421001
/-- PORT_STATE (R258). -/
def kPORT_STATE : Nat := 0x500001
/-- PORT_DISABLE (R258). -/
def kPORT_DISABLE : Nat := 0x500101
/-- NODE_ID (R258). -/
def kNODE_ID : Nat := 0x500200
/-- SET_TABLE (R258). -/
def kSET_TABLE : Nat := 0x500300
/-- SITE_PREFIX (R258). -/
def kSITE_PREFIX : Nat := 0x500400
/-- EDGE_ROLE (R258). -/
def kEDGE_ROLE : Nat := 0x500501
/-- EDGE_MTU (R258). -/
def kEDGE_MTU : Nat := 0x500600
/-- KG_UDP_PORT (R258). -/
def kKG_UDP_PORT : Nat := 0x500601
/-- EDGE_DSCP (R258). -/
def kEDGE_DSCP : Nat := 0x500602
/-- EDGE_VLAN (R258). -/
def kEDGE_VLAN : Nat := 0x500603
/-- EDGE_GW_MAC (R258). -/
def kEDGE_GW_MAC : Nat := 0x500604
/-- COLL_BASE (R258). -/
def kCOLL_BASE : Nat := 0x500700
/-- COLL_ERROR (R258). -/
def kCOLL_ERROR : Nat := 0x500701
/-- REASM_MS (R258). -/
def kREASM_MS : Nat := 0x500800
/-- HOST_NODE (R289). -/
def kHOST_NODE : Nat := 0x501000
/-- SMOOTH_HWM (R125). -/
def kSMOOTH_HWM : Nat := 0x510001
/-- SMOOTH_DROP (R125). -/
def kSMOOTH_DROP : Nat := 0x510101
/-- CODED_FAIL (R125). -/
def kCODED_FAIL : Nat := 0x510201
/-- SHARD_CFG (R183). -/
def kSHARD_CFG : Nat := 0x601001
/-- SHARD_ERROR (R183). -/
def kSHARD_ERROR : Nat := 0x601101
/-- SHADOW_BASE (R183). -/
def kSHADOW_BASE : Nat := 0x601201
/-- SHADOW_COUNT (R183). -/
def kSHADOW_COUNT : Nat := 0x601301
/-- RETAIN_BASE (R183). -/
def kRETAIN_BASE : Nat := 0x601401
/-- RETAIN_COUNT (R183). -/
def kRETAIN_COUNT : Nat := 0x601501
/-- NORM_BASE (R183). -/
def kNORM_BASE : Nat := 0x601601
/-- NORM_GROUP (R183). -/
def kNORM_GROUP : Nat := 0x601700
/-- NORM_SIG (R183). -/
def kNORM_SIG : Nat := 0x601801
/-- CLOSE_SIG (R183). -/
def kCLOSE_SIG : Nat := 0x601901
/-- STEP_CLOSED (R183). -/
def kSTEP_CLOSED : Nat := 0x601A01
/-- OUTER_PROG (R183). -/
def kOUTER_PROG : Nat := 0x601B00
/-- OUTER_SCALARS (R183). -/
def kOUTER_SCALARS : Nat := 0x601C01
/-- STAGEQ (R197). -/
def kSTAGEQ : Nat := 0x603001
/-- STAGEQ_ERROR (R197). -/
def kSTAGEQ_ERROR : Nat := 0x603100
/-- DELTA_CODEC (R125). -/
def kDELTA_CODEC : Nat := 0x610001
/-- DELTA_K (R125). -/
def kDELTA_K : Nat := 0x610002
/-- DELTA_ENTROPY (R125). -/
def kDELTA_ENTROPY : Nat := 0x610003
/-- DELTA_ORND (R125). -/
def kDELTA_ORND : Nat := 0x610004
/-- DELTA_SEED (R125). -/
def kDELTA_SEED : Nat := 0x610005
/-- EXCH_POLICY (R228). -/
def kEXCH_POLICY : Nat := 0x620000
/-- SITE_ID (R228). -/
def kSITE_ID : Nat := 0x620001
/-- ROUND_STEPS (R228). -/
def kROUND_STEPS : Nat := 0x620002
/-- DEADLINE_MS (R228). -/
def kDEADLINE_MS : Nat := 0x620003
/-- QUORUM (R228). -/
def kQUORUM : Nat := 0x620004
/-- QUORUM_HOLD_MS (R228). -/
def kQUORUM_HOLD_MS : Nat := 0x620005
/-- S_MAX (R228). -/
def kS_MAX : Nat := 0x620100
/-- STALE_W (R228). -/
def kSTALE_W : Nat := 0x620101
/-- SITE_WT (R228). -/
def kSITE_WT : Nat := 0x620201
/-- HOME_TABLE (R228). -/
def kHOME_TABLE : Nat := 0x620300
/-- HOME_ERROR (R228). -/
def kHOME_ERROR : Nat := 0x620301
/-- SITE_LAYOUT (R228). -/
def kSITE_LAYOUT : Nat := 0x620401
/-- XCH_CFG (R228). -/
def kXCH_CFG : Nat := 0x620501
/-- XCH_ERROR (R228). -/
def kXCH_ERROR : Nat := 0x620511
/-- XBUF_BASE (R228). -/
def kXBUF_BASE : Nat := 0x620601
/-- XBUF_BYTES (R228). -/
def kXBUF_BYTES : Nat := 0x620701
/-- LH_RATE_MBPS (R228). -/
def kLH_RATE_MBPS : Nat := 0x620800
/-- RTO_MIN_MS (R228). -/
def kRTO_MIN_MS : Nat := 0x620901
/-- ACK_MS (R228). -/
def kACK_MS : Nat := 0x620902
/-- DEAD_MS (R228). -/
def kDEAD_MS : Nat := 0x620903
/-- PROBE_MS (R228). -/
def kPROBE_MS : Nat := 0x620904
/-- RESULT_KEEP (R228). -/
def kRESULT_KEEP : Nat := 0x620905
/-- TIME_ALIGN (R228). -/
def kTIME_ALIGN : Nat := 0x620A00
/-- TIME_REF (R228). -/
def kTIME_REF : Nat := 0x620A01
/-- ROUND_T0 (R228). -/
def kROUND_T0 : Nat := 0x620A02
/-- ROUND_PERIOD_NS (R228). -/
def kROUND_PERIOD_NS : Nat := 0x620A03
/-- ASYM_NS (R228). -/
def kASYM_NS : Nat := 0x620B01
/-- ALIGNED_NOW (R228). -/
def kALIGNED_NOW : Nat := 0x620C00
/-- ALIGN_ERR_NS (R228). -/
def kALIGN_ERR_NS : Nat := 0x620C01
/-- ALIGN_OK (R228). -/
def kALIGN_OK : Nat := 0x620C02
/-- ROUND (R228). -/
def kROUND : Nat := 0x620D00
/-- HOME_RND (R228). -/
def kHOME_RND : Nat := 0x620D01
/-- OPEN_BLOCKS (R228). -/
def kOPEN_BLOCKS : Nat := 0x620D02
/-- JOIN (R228). -/
def kJOIN : Nat := 0x620D03
/-- ROUND_SIG (R228). -/
def kROUND_SIG : Nat := 0x620E01
/-- PEER_STATE (R228). -/
def kPEER_STATE : Nat := 0x620F01
/-- SNAP_POLICY (R316). -/
def kSNAP_POLICY : Nat := 0x700000
/-- SNAP_EVERY (R373). -/
def kSNAP_EVERY : Nat := 0x700001
/-- SNAP_MIN_STEPS (R373). -/
def kSNAP_MIN_STEPS : Nat := 0x700002
/-- ADVISE_MASK (R373). -/
def kADVISE_MASK : Nat := 0x700003
/-- CUT_AT (R373). -/
def kCUT_AT : Nat := 0x700004
/-- RESERVE_STALL_MS (R373). -/
def kRESERVE_STALL_MS : Nat := 0x700005
/-- POOL_NODE (R373). -/
def kPOOL_NODE : Nat := 0x700006
/-- RESERVE_BASE (R373). -/
def kRESERVE_BASE : Nat := 0x700101
/-- RESERVE_COUNT (R373). -/
def kRESERVE_COUNT : Nat := 0x700201
/-- RESERVE_HCOUNT (R373). -/
def kRESERVE_HCOUNT : Nat := 0x700301
/-- RDIR_BASE (R373). -/
def kRDIR_BASE : Nat := 0x700401
/-- CUT_EPOCH (R373). -/
def kCUT_EPOCH : Nat := 0x700501
/-- CUT_STEP (R373). -/
def kCUT_STEP : Nat := 0x700600
/-- CUT_STATE (R373). -/
def kCUT_STATE : Nat := 0x700601
/-- DRAIN_LEFT (R373). -/
def kDRAIN_LEFT : Nat := 0x700602
/-- MANIFEST_LAST (R373). -/
def kMANIFEST_LAST : Nat := 0x700700
/-- RESTORE_KEY (R373). -/
def kRESTORE_KEY : Nat := 0x700800
/-- RESTORE_MODE (R373). -/
def kRESTORE_MODE : Nat := 0x700801
/-- RESTORE_GO (R373). -/
def kRESTORE_GO : Nat := 0x700802
/-- RESTORE_STATUS (R373). -/
def kRESTORE_STATUS : Nat := 0x700803
/-- RESTORE_BAD (R373). -/
def kRESTORE_BAD : Nat := 0x700804
/-- TAKEOVER_ROUND (R373). -/
def kTAKEOVER_ROUND : Nat := 0x700805
/-- RESYNC_LEFT (R373). -/
def kRESYNC_LEFT : Nat := 0x700806
/-- LOSS_LOG (R373). -/
def kLOSS_LOG : Nat := 0x700900
/-- BIST_REQ (R423). -/
def kBIST_REQ : Nat := 0x800000
/-- BIST_DEADLINE_MS (R423). -/
def kBIST_DEADLINE_MS : Nat := 0x800001
/-- BIST_PENDING (R423). -/
def kBIST_PENDING : Nat := 0x800002
/-- BIST_LOG (R423). -/
def kBIST_LOG : Nat := 0x800100
/-- BIST_SEQ (R423). -/
def kBIST_SEQ : Nat := 0x800101
/-- MEMTEST_AUTO (R423). -/
def kMEMTEST_AUTO : Nat := 0x800200
/-- MEMTEST_SHARE (R423). -/
def kMEMTEST_SHARE : Nat := 0x800201
/-- MEMTEST_LOG (R423). -/
def kMEMTEST_LOG : Nat := 0x800202
/-- PORT_RECAL_HOURS (R423). -/
def kPORT_RECAL_HOURS : Nat := 0x800300
/-- DRAM_RECAL_DUE (R423). -/
def kDRAM_RECAL_DUE : Nat := 0x800301
/-- CAL_ID (R316). -/
def kCAL_ID : Nat := 0x810000
/-- CAL_IMAGE (R423). -/
def kCAL_IMAGE : Nat := 0x810100
/-- FLASH_WEAR (R423). -/
def kFLASH_WEAR : Nat := 0x810200
/-- LINE_ENC (R316). -/
def kLINE_ENC : Nat := 0x900000
/-- KEY_UPDATE_S (R443). -/
def kKEY_UPDATE_S : Nat := 0x900001
/-- KEY_FRAMES_LOG2 (R443). -/
def kKEY_FRAMES_LOG2 : Nat := 0x900002
/-- KEX_HOURS (R443). -/
def kKEX_HOURS : Nat := 0x900003
/-- REKEY (R443). -/
def kREKEY : Nat := 0x900004
/-- IDENTITY_PUBKEY (R443). -/
def kIDENTITY_PUBKEY : Nat := 0x900100
/-- IDENTITY_CERT (R443). -/
def kIDENTITY_CERT : Nat := 0x900101
/-- FINGERPRINT (R443). -/
def kFINGERPRINT : Nat := 0x900102
/-- MAC_BASE (R443). -/
def kMAC_BASE : Nat := 0x900103
/-- ATTEST_NONCE (R443). -/
def kATTEST_NONCE : Nat := 0x900200
/-- ATTEST_REPORT (R443). -/
def kATTEST_REPORT : Nat := 0x900201
/-- FW_STAGE (R443). -/
def kFW_STAGE : Nat := 0x901000
/-- FW_LEN (R443). -/
def kFW_LEN : Nat := 0x901001
/-- FW_SELECT (R443). -/
def kFW_SELECT : Nat := 0x901100
/-- FW_UPDATE_STATUS (R443). -/
def kFW_UPDATE_STATUS : Nat := 0x901101
/-- SVN_FUSED (R443). -/
def kSVN_FUSED : Nat := 0x901102
/-- KEX_MAILBOX (R443). -/
def kKEX_MAILBOX : Nat := 0x902000
/-- TRUST_TABLE (R443). -/
def kTRUST_TABLE : Nat := 0x903000
/-- PORT_KEY (R443). -/
def kPORT_KEY : Nat := 0x903101
/-- EDGE_KEYS (R443). -/
def kEDGE_KEYS : Nat := 0x903161
/-- FIELD_RX (R315). -/
def kFIELD_RX : Nat := 0xA01001
/-- FIELD_DROP (R315). -/
def kFIELD_DROP : Nat := 0xA01002
/-- FIELD_BAD (R315). -/
def kFIELD_BAD : Nat := 0xA01003
/-- FIELD_LATE (R315). -/
def kFIELD_LATE : Nat := 0xA01004
/-- DICT_LATE (R315). -/
def kDICT_LATE : Nat := 0xA01005
/-- FIELD_DUP (R315). -/
def kFIELD_DUP : Nat := 0xA01006
/-- TELEM_SENT (R315). -/
def kTELEM_SENT : Nat := 0xA01007
/-- TELEM_SKIPPED (R315). -/
def kTELEM_SKIPPED : Nat := 0xA01008
/-- EVENTS_SENT (R315). -/
def kEVENTS_SENT : Nat := 0xA01009
/-- STARTS (R345). -/
def kSTARTS : Nat := 0xA02001
/-- START_WAIT_NS (R345). -/
def kSTART_WAIT_NS : Nat := 0xA02002
/-- RESIDENCY_NS (R345). -/
def kRESIDENCY_NS : Nat := 0xA02003
/-- DROOP_EVENTS (R345). -/
def kDROOP_EVENTS : Nat := 0xA02008
/-- DIVERGENCES (R345). -/
def kDIVERGENCES : Nat := 0xA02009
/-- SENSOR_FAULTS (R345). -/
def kSENSOR_FAULTS : Nat := 0xA0200A
/-- CAL_CLAMPS (R345). -/
def kCAL_CLAMPS : Nat := 0xA0200B
/-- PLL_STOPS (R345). -/
def kPLL_STOPS : Nat := 0xA0200C
/-- ABORTED (R404). -/
def kABORTED : Nat := 0xA03001
/-- DRAIN_TIMEOUTS (R404). -/
def kDRAIN_TIMEOUTS : Nat := 0xA03002
/-- RESETS_REGION (R404). -/
def kRESETS_REGION : Nat := 0xA03003
/-- RESETS_DIE (R404). -/
def kRESETS_DIE : Nat := 0xA03004
/-- RESETS_WARM (R404). -/
def kRESETS_WARM : Nat := 0xA03005
/-- RESETS_COLD (R404). -/
def kRESETS_COLD : Nat := 0xA03006
/-- CHANTER_DROPPED (R404). -/
def kCHANTER_DROPPED : Nat := 0xA03007
/-- EVENTS_MERGED (R404). -/
def kEVENTS_MERGED : Nat := 0xA03008
/-- LBIST_RUNS (R423). -/
def kLBIST_RUNS : Nat := 0xA04001
/-- LBIST_FAILS (R423). -/
def kLBIST_FAILS : Nat := 0xA04002
/-- MEMTEST_GRANULES (R423). -/
def kMEMTEST_GRANULES : Nat := 0xA04003
/-- MEMTEST_BITS (R423). -/
def kMEMTEST_BITS : Nat := 0xA04004
/-- PORT_RECALS (R423). -/
def kPORT_RECALS : Nat := 0xA04005
/-- DRAM_RECALS (R423). -/
def kDRAM_RECALS : Nat := 0xA04006
/-- BIST_REFUSED (R423). -/
def kBIST_REFUSED : Nat := 0xA04007
/-- AUTH_FAIL (R443). -/
def kAUTH_FAIL : Nat := 0xA05001
/-- REPLAY_DROP (R443). -/
def kREPLAY_DROP : Nat := 0xA05002
/-- OLD_EPOCH_DROP (R443). -/
def kOLD_EPOCH_DROP : Nat := 0xA05003
/-- CLEAR_DROP (R443). -/
def kCLEAR_DROP : Nat := 0xA05004
/-- NO_KEY (R443). -/
def kNO_KEY : Nat := 0xA05005
/-- HANDSHAKES (R443). -/
def kHANDSHAKES : Nat := 0xA05006
/-- KEY_UPDATES (R443). -/
def kKEY_UPDATES : Nat := 0xA05007
/-- ENGINE_MISMATCH (R443). -/
def kENGINE_MISMATCH : Nat := 0xA05008
/-- TIMING_MISMATCH (R443). -/
def kTIMING_MISMATCH : Nat := 0xA05009
/-- COMP_SLOTS (R125). -/
def kCOMP_SLOTS : Nat := 0xA10001
/-- COMP_SAVED (R125). -/
def kCOMP_SAVED : Nat := 0xA10002
/-- COMP_RMW (R125). -/
def kCOMP_RMW : Nat := 0xA10003
/-- COMP_UNEXPECTED (R125). -/
def kCOMP_UNEXPECTED : Nat := 0xA10004
/-- META_MISS (R125). -/
def kMETA_MISS : Nat := 0xA10005
/-- NONFIN_BLOCKS (R125). -/
def kNONFIN_BLOCKS : Nat := 0xA10006
/-- CE_COUNT (R155). -/
def kCE_COUNT : Nat := 0xA20001
/-- UE_COUNT (R155). -/
def kUE_COUNT : Nat := 0xA20002
/-- SCRUB_PASSES (R155). -/
def kSCRUB_PASSES : Nat := 0xA20003
/-- SR_EXIT_NS (R155). -/
def kSR_EXIT_NS : Nat := 0xA20004
/-- REPAIR_EXHAUSTED (R155). -/
def kREPAIR_EXHAUSTED : Nat := 0xA20005
/-- UNMAPPED_WRITES (R155). -/
def kUNMAPPED_WRITES : Nat := 0xA20006
/-- RECALLS (R155). -/
def kRECALLS : Nat := 0xA20007
/-- RECALL_LATE (R155). -/
def kRECALL_LATE : Nat := 0xA20008
/-- STAGE_WAIT_NS (R155). -/
def kSTAGE_WAIT_NS : Nat := 0xA20009
/-- WRITEBACKS (R155). -/
def kWRITEBACKS : Nat := 0xA2000A
/-- STAGE_REFUSED (R155). -/
def kSTAGE_REFUSED : Nat := 0xA2000B
/-- REPLAYS (R258). -/
def kREPLAYS : Nat := 0xA50001
/-- RETRAINS (R258). -/
def kRETRAINS : Nat := 0xA50101
/-- TIMEOUTS (R258). -/
def kTIMEOUTS : Nat := 0xA50201
/-- LATE_REPLY (R258). -/
def kLATE_REPLY : Nat := 0xA50202
/-- DUP_SUPPRESSED (R258). -/
def kDUP_SUPPRESSED : Nat := 0xA50203
/-- MISROUTED (R258). -/
def kMISROUTED : Nat := 0xA50204
/-- NO_ROUTE (R258). -/
def kNO_ROUTE : Nat := 0xA50205
/-- BAD_FRAME (R258). -/
def kBAD_FRAME : Nat := 0xA50206
/-- EDGE_DROP (R258). -/
def kEDGE_DROP : Nat := 0xA50207
/-- REASM_DROP (R258). -/
def kREASM_DROP : Nat := 0xA50208
/-- TAG_WAIT_NS (R258). -/
def kTAG_WAIT_NS : Nat := 0xA50209
/-- DB_COUNT (R289). -/
def kDB_COUNT : Nat := 0xA51001
/-- DB_BAD (R289). -/
def kDB_BAD : Nat := 0xA51002
/-- DB_LATE (R289). -/
def kDB_LATE : Nat := 0xA51003
/-- DESC_FWD (R289). -/
def kDESC_FWD : Nat := 0xA51004
/-- DESC_REFUSED (R289). -/
def kDESC_REFUSED : Nat := 0xA51005
/-- DESC_HELD_NS (R289). -/
def kDESC_HELD_NS : Nat := 0xA51006
/-- HOST_DROP (R289). -/
def kHOST_DROP : Nat := 0xA51007
/-- HOST_FOREIGN (R289). -/
def kHOST_FOREIGN : Nat := 0xA51008
/-- HOST_REFUSED (R289). -/
def kHOST_REFUSED : Nat := 0xA51009
/-- HOST_DUP (R289). -/
def kHOST_DUP : Nat := 0xA5100A
/-- REG_VOID (R289). -/
def kREG_VOID : Nat := 0xA5100B
/-- REG_STALL_NS (R289). -/
def kREG_STALL_NS : Nat := 0xA5100C
/-- CONFIG_COMMITS (R289). -/
def kCONFIG_COMMITS : Nat := 0xA5100D
/-- COMMITS (R183). -/
def kCOMMITS : Nat := 0xA60001
/-- SKIPPED (R183). -/
def kSKIPPED : Nat := 0xA60002
/-- SKIPPED_NF (R183). -/
def kSKIPPED_NF : Nat := 0xA60003
/-- GRAD_STALE (R183). -/
def kGRAD_STALE : Nat := 0xA60004
/-- GRAD_EXTRA (R183). -/
def kGRAD_EXTRA : Nat := 0xA60005
/-- VERSION_MISMATCH (R183). -/
def kVERSION_MISMATCH : Nat := 0xA60006
/-- RELEASE_STALE (R183). -/
def kRELEASE_STALE : Nat := 0xA60007
/-- UPDATE_UE (R183). -/
def kUPDATE_UE : Nat := 0xA60008
/-- SHADOW_WAIT_NS (R183). -/
def kSHADOW_WAIT_NS : Nat := 0xA60009
/-- RETAIN_WAIT_NS (R183). -/
def kRETAIN_WAIT_NS : Nat := 0xA6000A
/-- STATE_WRITE_REFUSED (R183). -/
def kSTATE_WRITE_REFUSED : Nat := 0xA6000B
/-- OUT_STALL_NS (R197). -/
def kOUT_STALL_NS : Nat := 0xA61001
/-- IN_WAIT_NS (R197). -/
def kIN_WAIT_NS : Nat := 0xA61101
/-- ENTRIES (R197). -/
def kENTRIES : Nat := 0xA61201
/-- FREE_EXCESS (R197). -/
def kFREE_EXCESS : Nat := 0xA61300
/-- STAGEQ_OVERRUN (R197). -/
def kSTAGEQ_OVERRUN : Nat := 0xA61400
/-- LEASES (R197). -/
def kLEASES : Nat := 0xA62001
/-- REFETCHES (R197). -/
def kREFETCHES : Nat := 0xA62002
/-- REFETCH_BYTES (R197). -/
def kREFETCH_BYTES : Nat := 0xA62003
/-- FRAGS_SENT (R228). -/
def kFRAGS_SENT : Nat := 0xA63001
/-- FRAGS_RESENT (R228). -/
def kFRAGS_RESENT : Nat := 0xA63002
/-- FRAGS_DUP (R228). -/
def kFRAGS_DUP : Nat := 0xA63003
/-- FRAGS_BAD (R228). -/
def kFRAGS_BAD : Nat := 0xA63004
/-- DELTAS_FRESH (R228). -/
def kDELTAS_FRESH : Nat := 0xA63005
/-- DELTAS_STALE (R228). -/
def kDELTAS_STALE : Nat := 0xA63006
/-- STALE_ZERO (R228). -/
def kSTALE_ZERO : Nat := 0xA63007
/-- STALE_DROP (R228). -/
def kSTALE_DROP : Nat := 0xA63008
/-- DELTA_EARLY (R228). -/
def kDELTA_EARLY : Nat := 0xA63009
/-- RESULT_EARLY (R228). -/
def kRESULT_EARLY : Nat := 0xA6300A
/-- BLOCKS_HELD (R228). -/
def kBLOCKS_HELD : Nat := 0xA6300B
/-- XBUF_FULL (R228). -/
def kXBUF_FULL : Nat := 0xA6300C
/-- QUORUM_MISS (R228). -/
def kQUORUM_MISS : Nat := 0xA6300D
/-- RESULTS_EVICTED (R228). -/
def kRESULTS_EVICTED : Nat := 0xA6300E
/-- STATE_BLOCKS (R228). -/
def kSTATE_BLOCKS : Nat := 0xA6300F
/-- MERGE_REDO (R228). -/
def kMERGE_REDO : Nat := 0xA63010
/-- HELD_NS (R228). -/
def kHELD_NS : Nat := 0xA63011
/-- CUTS (R373). -/
def kCUTS : Nat := 0xA70001
/-- CUTS_SKIPPED (R373). -/
def kCUTS_SKIPPED : Nat := 0xA70002
/-- CUT_LATE (R373). -/
def kCUT_LATE : Nat := 0xA70003
/-- COW_COPIES (R373). -/
def kCOW_COPIES : Nat := 0xA70004
/-- RESERVE_STALL_NS (R373). -/
def kRESERVE_STALL_NS : Nat := 0xA70005
/-- SHARDS_WRITTEN (R373). -/
def kSHARDS_WRITTEN : Nat := 0xA70006
/-- SHARD_BYTES (R373). -/
def kSHARD_BYTES : Nat := 0xA70007
/-- DEDUP_SHARDS (R373). -/
def kDEDUP_SHARDS : Nat := 0xA70008
/-- DEDUP_BYTES (R373). -/
def kDEDUP_BYTES : Nat := 0xA70009
/-- RESTORED_BLOCKS (R373). -/
def kRESTORED_BLOCKS : Nat := 0xA7000A
/-- RESYNC_BLOCKS (R373). -/
def kRESYNC_BLOCKS : Nat := 0xA7000B

/-! ### The rows, in index order -/

def dictRows0 : List DictRow := [
  ⟨0x1000, 0x0, 0x0, 9, 4, 3, 0x0, .any, 256, false, .fixed 28⟩,
  ⟨0x1000, 0x1, 0x1, 9, 4, 3, 0x0, .any, 12, false, .fixed 28⟩,
  ⟨0x1000, 0x2, 0x2, 4, 0, 0, 0x0, .any, 4, false, .fixed 28⟩,
  ⟨0x1000, 0x3, 0x3, 2, 0, 0, 0x0, .any, 1, false, .fixed 28⟩,
  ⟨0x1001, 0x0, 0x0, 4, 0, 0, 0x0, .any, 4, false, .fixed 28⟩,
  ⟨0x1001, 0x1, 0x1, 8, 0, 0, 0x0, .any, 8, false, .fixed 28⟩,
  ⟨0x1002, 0x0, 0x0, 2, 3, 1, 0x0, .between 0 2, 1, false, .fixed 28⟩,
  ⟨0x1002, 0x1, 0x1, 2, 0, 0, 0x0, .any, 1, false, .fixed 28⟩,
  ⟨0x1002, 0x2, 0x2, 1, 2, 0, 0x0, .between 0 1, 1, false, .fixed 28⟩,
  ⟨0x1002, 0x3, 0x3, 2, 0, 0, 0x0, .any, 1, false, .fixed 28⟩,
  ⟨0x1002, 0x4, 0x4, 4, 0, 0, 0x0, .any, 4, false, .fixed 28⟩,
  ⟨0x1003, 0x0, 0x0, 4, 2, 0, 0x0, .any, 4, false, .fixed 28⟩,
  ⟨0x1003, 0x1, 0x1, 4, 2, 0, 0x0, .any, 4, false, .fixed 28⟩,
  ⟨0x1003, 0x2, 0x2, 4, 0, 0, 0x0, .any, 4, false, .fixed 28⟩,
  ⟨0x1003, 0x3, 0x3, 4, 0, 0, 0x0, .any, 4, false, .fixed 28⟩,
  ⟨0x1003, 0x4, 0x4, 4, 1, 0, 0x0, .any, 4, false, .fixed 28⟩,
  ⟨0x1010, 0x0, 0x0, 2, 2, 0, 0x0, .between 1 2, 1, false, .fixed 28⟩,
  ⟨0x1010, 0x1, 0x1, 2, 0, 0, 0x0, .any, 1, false, .fixed 28⟩,
  ⟨0x1010, 0x2, 0x2, 4, 0, 0, 0x0, .any, 4, false, .fixed 28⟩,
  ⟨0x1020, 0x1, 0x1, 3, 2, 0, 0x0, .any, 2, false, .fixed 28⟩,
  ⟨0x1020, 0x2, 0x2, 2, 2, 0, 0x0, .any, 1, false, .fixed 28⟩,
  ⟨0x1020, 0x3, 0x3, 2, 2, 0, 0x0, .between 1 2, 1, false, .fixed 28⟩,
  ⟨0x1020, 0x4, 0x4, 10, 0, 0, 0x0, .any, 16, true, .fixed 28⟩,
  ⟨0x1020, 0x5, 0x5, 1, 2, 0, 0x0, .between 0 1, 1, false, .fixed 28⟩]

def dictRows1 : List DictRow := [
  ⟨0x1021, 0x1, 0x10, 1, 1, 0, 0x0, .between 0 1, 1, false, .fixed 28⟩,
  ⟨0x1021, 0x11, 0x11, 1, 1, 0, 0x0, .between 0 1, 1, false, .fixed 28⟩,
  ⟨0x1021, 0x12, 0x12, 3, 1, 1, 0xA, .between 1 1000, 2, false, .fixed 28⟩,
  ⟨0x1022, 0x1, 0x10, 2, 1, 0, 0x0, .any, 1, false, .fixed 28⟩,
  ⟨0x1023, 0x1, 0x10, 2, 0, 0, 0x1, .any, 1, false, .fixed 28⟩,
  ⟨0x1023, 0x11, 0x14, 2, 0, 0, 0x1, .any, 1, false, .fixed 28⟩,
  ⟨0x1023, 0x15, 0x15, 2, 0, 0, 0x1, .any, 1, false, .fixed 28⟩,
  ⟨0x1023, 0x16, 0x16, 10, 0, 0, 0x0, .any, 128, true, .fixed 28⟩,
  ⟨0x1024, 0x1, 0x10, 2, 0, 0, 0x0, .any, 1, false, .fixed 28⟩,
  ⟨0x1024, 0x11, 0x11, 2, 0, 0, 0x0, .any, 1, false, .fixed 28⟩,
  ⟨0x1100, 0x0, 0x0, 2, 1, 1, 0xFF, .any, 1, false, .fixed 28⟩,
  ⟨0x1100, 0x1, 0x1, 2, 1, 1, 0x8, .between 2 255, 1, false, .fixed 28⟩,
  ⟨0x1100, 0x2, 0x2, 10, 1, 1, 0x0, .any, 8, true, .fixed 28⟩,
  ⟨0x1100, 0x3, 0x3, 1, 1, 1, 0x0, .between 0 1, 1, false, .fixed 28⟩,
  ⟨0x1200, 0x0, 0x0, 3, 1, 1, 0x1, .between 0 1000, 2, false, .fixed 28⟩,
  ⟨0x1200, 0x1, 0x1, 10, 1, 1, 0x0, .any, 18, true, .fixed 28⟩,
  ⟨0x1201, 0x1, 0x20, 4, 1, 1, 0x0, .any, 4, false, .fixed 28⟩,
  ⟨0x1300, 0x0, 0x0, 10, 1, 1, 0x0, .any, 18, true, .fixed 28⟩,
  ⟨0x1301, 0x0, 0x0, 10, 0, 0, 0x0, .any, 8192, true, .fixed 28⟩,
  ⟨0x1301, 0x1, 0x1, 4, 0, 0, 0x0, .any, 4, false, .fixed 28⟩,
  ⟨0x2000, 0x0, 0x0, 3, 3, 1, 0xE10, .between 1500 3600, 2, false, .fixed 21⟩,
  ⟨0x2000, 0x1, 0x1, 3, 0, 0, 0x1068, .any, 2, false, .fixed 21⟩,
  ⟨0x2000, 0x2, 0x2, 2, 1, 0, 0x40, .between 1 64, 1, false, .fixed 21⟩,
  ⟨0x2001, 0x0, 0x0, 2, 3, 1, 0x4, .between 1 4, 1, false, .fixed 21⟩]

def dictRows2 : List DictRow := [
  ⟨0x2001, 0x1, 0x1, 1, 3, 1, 0x1, .between 0 1, 1, false, .fixed 21⟩,
  ⟨0x2002, 0x1, 0x10, 2, 3, 1, 0x1, .between 0 3, 1, false, .fixed 21⟩,
  ⟨0x2003, 0x0, 0x0, 7, 3, 1, 0x42C80000, .f32 0x42AA0000 0x42CC0000, 4, false, .fixed 21⟩,
  ⟨0x2003, 0x1, 0x1, 7, 3, 1, 0x42B80000, .f32 0x42A00000 0x42BC0000, 4, false, .fixed 21⟩,
  ⟨0x2010, 0x0, 0x0, 7, 0, 0, 0x0, .any, 4, false, .fixed 21⟩,
  ⟨0x2010, 0x1, 0x1, 7, 0, 0, 0x0, .any, 4, false, .fixed 21⟩,
  ⟨0x2010, 0x2, 0x2, 7, 0, 0, 0x0, .any, 4, false, .fixed 21⟩,
  ⟨0x2010, 0x3, 0x3, 7, 0, 0, 0x0, .any, 4, false, .fixed 21⟩,
  ⟨0x2011, 0x0, 0x0, 3, 0, 0, 0x0, .any, 2, false, .fixed 21⟩,
  ⟨0x2011, 0x1, 0x1, 2, 0, 0, 0x0, .any, 1, false, .fixed 21⟩,
  ⟨0x2012, 0x1, 0x9, 5, 0, 0, 0x0, .any, 8, false, .fixed 21⟩,
  ⟨0x2020, 0x1, 0x10, 10, 0, 2, 0x0, .any, 16, true, .fixed 21⟩,
  ⟨0x2021, 0x1, 0x10, 7, 0, 0, 0x3F800000, .any, 4, false, .fixed 21⟩,
  ⟨0x2022, 0x1, 0x10, 7, 0, 0, 0x0, .any, 4, false, .fixed 21⟩,
  ⟨0x2030, 0x1, 0x10, 7, 0, 0, 0x0, .any, 4, false, .fixed 21⟩,
  ⟨0x2031, 0x1, 0x10, 7, 0, 0, 0x0, .any, 4, false, .fixed 21⟩,
  ⟨0x2032, 0x0, 0x0, 7, 0, 0, 0x0, .any, 4, false, .fixed 21⟩,
  ⟨0x3000, 0x0, 0x0, 3, 4, 3, 0x3FF, .any, 2, false, .fixed 22⟩,
  ⟨0x3001, 0x0, 0x0, 2, 0, 0, 0x0, .any, 1, false, .fixed 22⟩,
  ⟨0x3001, 0x1, 0x1, 2, 2, 0, 0x0, .any, 1, false, .fixed 22⟩,
  ⟨0x3001, 0x2, 0x2, 3, 0, 0, 0x0, .any, 2, false, .fixed 22⟩,
  ⟨0x3010, 0x1, 0x1, 1, 1, 1, 0x1, .between 0 1, 1, false, .fixed 22⟩,
  ⟨0x3010, 0x2, 0x2, 2, 1, 1, 0xA, .any, 1, false, .fixed 22⟩,
  ⟨0x3010, 0x3, 0x3, 2, 1, 1, 0x6, .any, 1, false, .fixed 22⟩]

def dictRows3 : List DictRow := [
  ⟨0x3020, 0x1, 0x10, 5, 3, 0, 0x0, .any, 8, false, .region⟩,
  ⟨0x4000, 0x1, 0x10, 10, 1, 0, 0x0, .any, 6144, true, .region⟩,
  ⟨0x4001, 0x0, 0x0, 2, 1, 1, 0x18, .between 0 168, 1, false, .fixed 22⟩,
  ⟨0x4002, 0x0, 0x0, 3, 1, 1, 0x20, .any, 2, false, .fixed 22⟩,
  ⟨0x4003, 0x0, 0x0, 1, 1, 1, 0x0, .between 0 1, 1, false, .fixed 22⟩,
  ⟨0x4004, 0x1, 0x10, 10, 0, 0, 0x0, .any, 256, true, .region⟩,
  ⟨0x4005, 0x1, 0x10, 3, 0, 0, 0x0, .any, 2, false, .region⟩,
  ⟨0x4100, 0x0, 0x0, 1, 3, 1, 0x1, .between 0 1, 1, false, .fixed 22⟩,
  ⟨0x4200, 0x1, 0x10, 5, 3, 0, 0x0, .any, 8, false, .region⟩,
  ⟨0x4201, 0x0, 0x0, 4, 3, 1, 0xC8, .between 1 60000, 4, false, .fixed 22⟩,
  ⟨0x4202, 0x1, 0x10, 3, 0, 0, 0x0, .any, 2, false, .region⟩,
  ⟨0x4203, 0x1, 0x10, 1, 2, 0, 0x0, .between 0 1, 1, false, .region⟩,
  ⟨0x4210, 0x1, 0x10, 2, 3, 1, 0x0, .between 0 1, 1, false, .region⟩,
  ⟨0x5000, 0x1, 0x60, 2, 0, 0, 0x0, .any, 1, false, .port⟩,
  ⟨0x5001, 0x1, 0x60, 1, 1, 0, 0x0, .between 0 1, 1, false, .port⟩,
  ⟨0x5002, 0x0, 0x0, 3, 3, 1, 0x0, .between 0 32767, 2, false, .fixed 23⟩,
  ⟨0x5003, 0x0, 0x0, 10, 3, 1, 0x0, .any, 4096, true, .fixed 23⟩,
  ⟨0x5004, 0x0, 0x0, 10, 3, 1, 0x0, .any, 512, true, .fixed 23⟩,
  ⟨0x5005, 0x1, 0x4, 2, 3, 1, 0x1, .between 0 4, 1, false, .fixed 23⟩,
  ⟨0x5006, 0x0, 0x0, 3, 3, 1, 0x2328, .between 1280 9216, 2, false, .fixed 23⟩,
  ⟨0x5006, 0x1, 0x1, 3, 3, 1, 0xB86B, .any, 2, false, .fixed 23⟩,
  ⟨0x5006, 0x2, 0x2, 2, 3, 1, 0x1A, .between 0 63, 1, false, .fixed 23⟩,
  ⟨0x5006, 0x3, 0x3, 3, 3, 1, 0x0, .between 0 4094, 2, false, .fixed 23⟩,
  ⟨0x5006, 0x4, 0x4, 10, 3, 1, 0x0, .any, 6, true, .fixed 23⟩]

def dictRows4 : List DictRow := [
  ⟨0x5007, 0x0, 0x0, 5, 3, 0, 0x0, .any, 8, false, .fixed 23⟩,
  ⟨0x5007, 0x1, 0x1, 3, 0, 0, 0xFFFF, .any, 2, false, .fixed 23⟩,
  ⟨0x5008, 0x0, 0x0, 2, 3, 1, 0x14, .between 1 255, 1, false, .fixed 23⟩,
  ⟨0x5010, 0x0, 0x0, 3, 3, 1, 0x0, .any, 2, false, .fixed 23⟩,
  ⟨0x5100, 0x1, 0x4, 4, 0, 0, 0x0, .any, 4, false, .fixed 23⟩,
  ⟨0x5101, 0x1, 0x4, 5, 0, 0, 0x0, .any, 8, false, .fixed 23⟩,
  ⟨0x5102, 0x1, 0x4, 5, 0, 0, 0x0, .any, 8, false, .fixed 23⟩,
  ⟨0x6010, 0x1, 0x10, 5, 3, 0, 0x0, .any, 8, false, .region⟩,
  ⟨0x6011, 0x1, 0x10, 3, 0, 0, 0x0, .any, 2, false, .region⟩,
  ⟨0x6012, 0x1, 0x10, 5, 3, 0, 0x0, .any, 8, false, .region⟩,
  ⟨0x6013, 0x1, 0x10, 3, 3, 0, 0x0, .zeroOr 64 65535, 2, false, .region⟩,
  ⟨0x6014, 0x1, 0x10, 5, 3, 0, 0x0, .any, 8, false, .region⟩,
  ⟨0x6015, 0x1, 0x10, 4, 3, 0, 0x0, .between 0 16777215, 4, false, .region⟩,
  ⟨0x6016, 0x1, 0x10, 5, 3, 0, 0x0, .any, 8, false, .region⟩,
  ⟨0x6017, 0x0, 0x0, 3, 3, 0, 0x0, .any, 2, false, .fixed 20⟩,
  ⟨0x6018, 0x1, 0x10, 2, 3, 0, 0xFF, .any, 1, false, .region⟩,
  ⟨0x6019, 0x1, 0x10, 2, 3, 0, 0xFF, .any, 1, false, .region⟩,
  ⟨0x601A, 0x1, 0x10, 5, 0, 0, 0x0, .any, 8, false, .region⟩,
  ⟨0x601B, 0x0, 0x0, 2, 3, 1, 0x0, .any, 1, false, .fixed 20⟩,
  ⟨0x601C, 0x1, 0x10, 5, 3, 0, 0x0, .any, 8, false, .region⟩,
  ⟨0x6030, 0x1, 0x20, 10, 3, 0, 0x0, .any, 32, true, .fixed 20⟩,
  ⟨0x6031, 0x0, 0x0, 2, 0, 0, 0xFF, .any, 1, false, .fixed 20⟩,
  ⟨0x6100, 0x1, 0x1, 2, 3, 1, 0x1, .between 0 2, 1, false, .fixed 20⟩,
  ⟨0x6100, 0x2, 0x2, 2, 3, 1, 0x10, .oneOf [8, 16, 32, 64], 1, false, .fixed 20⟩]

def dictRows5 : List DictRow := [
  ⟨0x6100, 0x3, 0x3, 1, 3, 1, 0x0, .between 0 1, 1, false, .fixed 20⟩,
  ⟨0x6100, 0x4, 0x4, 1, 3, 1, 0x0, .between 0 1, 1, false, .fixed 20⟩,
  ⟨0x6100, 0x5, 0x5, 4, 3, 1, 0x0, .any, 4, false, .fixed 20⟩,
  ⟨0x6200, 0x0, 0x0, 2, 3, 1, 0x0, .between 0 3, 1, false, .fixed 20⟩,
  ⟨0x6200, 0x1, 0x1, 2, 3, 1, 0x0, .between 0 63, 1, false, .fixed 20⟩,
  ⟨0x6200, 0x2, 0x2, 4, 3, 1, 0x40, .between 1 1000000, 4, false, .fixed 20⟩,
  ⟨0x6200, 0x3, 0x3, 4, 3, 1, 0x7530, .between 1000 3600000, 4, false, .fixed 20⟩,
  ⟨0x6200, 0x4, 0x4, 2, 3, 1, 0x0, .any, 1, false, .fixed 20⟩,
  ⟨0x6200, 0x5, 0x5, 4, 3, 1, 0xEA60, .any, 4, false, .fixed 20⟩,
  ⟨0x6201, 0x0, 0x0, 2, 3, 1, 0x3, .between 0 7, 1, false, .fixed 20⟩,
  ⟨0x6201, 0x1, 0x8, 7, 3, 1, 0x0, .f32 0 0x3F800000, 4, false, .fixed 20⟩,
  ⟨0x6202, 0x1, 0x40, 3, 3, 0, 0x0, .any, 2, false, .fixed 20⟩,
  ⟨0x6203, 0x0, 0x0, 10, 3, 0, 0x0, .any, 65552, false, .fixed 20⟩,
  ⟨0x6203, 0x1, 0x1, 3, 0, 0, 0x0, .any, 2, false, .fixed 20⟩,
  ⟨0x6204, 0x1, 0x40, 10, 3, 0, 0x0, .any, 16520, false, .fixed 20⟩,
  ⟨0x6205, 0x1, 0x10, 5, 3, 0, 0x0, .any, 8, false, .region⟩,
  ⟨0x6205, 0x11, 0x11, 3, 0, 0, 0x0, .any, 2, false, .fixed 20⟩,
  ⟨0x6206, 0x1, 0x10, 5, 3, 0, 0x0, .any, 8, false, .region⟩,
  ⟨0x6207, 0x1, 0x10, 5, 3, 0, 0x0, .any, 8, false, .region⟩,
  ⟨0x6208, 0x0, 0x0, 4, 3, 1, 0x30D4, .any, 4, false, .fixed 20⟩,
  ⟨0x6209, 0x1, 0x1, 3, 3, 1, 0x14, .any, 2, false, .fixed 20⟩,
  ⟨0x6209, 0x2, 0x2, 2, 3, 1, 0x2, .any, 1, false, .fixed 20⟩,
  ⟨0x6209, 0x3, 0x3, 3, 3, 1, 0x7D0, .any, 2, false, .fixed 20⟩,
  ⟨0x6209, 0x4, 0x4, 3, 3, 1, 0x1F4, .any, 2, false, .fixed 20⟩]

def dictRows6 : List DictRow := [
  ⟨0x6209, 0x5, 0x5, 2, 3, 1, 0x4, .between 1 16, 1, false, .fixed 20⟩,
  ⟨0x620A, 0x0, 0x0, 2, 3, 1, 0x0, .between 0 1, 1, false, .fixed 20⟩,
  ⟨0x620A, 0x1, 0x1, 3, 3, 1, 0x0, .any, 2, false, .fixed 20⟩,
  ⟨0x620A, 0x2, 0x2, 8, 3, 0, 0x0, .any, 8, false, .fixed 20⟩,
  ⟨0x620A, 0x3, 0x3, 5, 3, 0, 0x0, .any, 8, false, .fixed 20⟩,
  ⟨0x620B, 0x1, 0x40, 6, 3, 1, 0x0, .any, 4, false, .fixed 20⟩,
  ⟨0x620C, 0x0, 0x0, 8, 0, 0, 0x0, .any, 8, false, .fixed 20⟩,
  ⟨0x620C, 0x1, 0x1, 4, 0, 0, 0x0, .any, 4, false, .fixed 20⟩,
  ⟨0x620C, 0x2, 0x2, 1, 0, 0, 0x0, .between 0 1, 1, false, .fixed 20⟩,
  ⟨0x620D, 0x0, 0x0, 4, 0, 0, 0x0, .any, 4, false, .fixed 20⟩,
  ⟨0x620D, 0x1, 0x1, 4, 0, 0, 0x0, .any, 4, false, .fixed 20⟩,
  ⟨0x620D, 0x2, 0x2, 5, 0, 0, 0x0, .any, 8, false, .fixed 20⟩,
  ⟨0x620D, 0x3, 0x3, 1, 2, 0, 0x0, .between 0 1, 1, false, .fixed 20⟩,
  ⟨0x620E, 0x1, 0x10, 2, 3, 0, 0xFF, .any, 1, false, .region⟩,
  ⟨0x620F, 0x1, 0x40, 2, 0, 0, 0x0, .any, 1, false, .fixed 20⟩,
  ⟨0x7000, 0x0, 0x0, 2, 3, 1, 0x0, .between 0 3, 1, false, .fixed 25⟩,
  ⟨0x7000, 0x1, 0x1, 4, 3, 1, 0x64, .between 1 1000000, 4, false, .fixed 25⟩,
  ⟨0x7000, 0x2, 0x2, 4, 3, 1, 0x14, .any, 4, false, .fixed 25⟩,
  ⟨0x7000, 0x3, 0x3, 2, 3, 1, 0x1, .any, 1, false, .fixed 25⟩,
  ⟨0x7000, 0x4, 0x4, 5, 1, 0, 0x0, .any, 8, false, .fixed 25⟩,
  ⟨0x7000, 0x5, 0x5, 4, 3, 1, 0x2710, .between 1 600000, 4, false, .fixed 25⟩,
  ⟨0x7000, 0x6, 0x6, 3, 3, 1, 0x0, .any, 2, false, .fixed 25⟩,
  ⟨0x7001, 0x1, 0x10, 5, 3, 0, 0x0, .any, 8, false, .region⟩,
  ⟨0x7002, 0x1, 0x10, 4, 3, 0, 0x0, .between 0 67108863, 4, false, .region⟩]

def dictRows7 : List DictRow := [
  ⟨0x7003, 0x1, 0x10, 4, 3, 0, 0x0, .between 0 67108862, 4, false, .region⟩,
  ⟨0x7004, 0x1, 0x10, 5, 3, 0, 0x0, .any, 8, false, .region⟩,
  ⟨0x7005, 0x1, 0x10, 2, 0, 0, 0x0, .any, 1, false, .region⟩,
  ⟨0x7006, 0x0, 0x0, 5, 0, 0, 0x0, .any, 8, false, .fixed 25⟩,
  ⟨0x7006, 0x1, 0x1, 2, 0, 0, 0x0, .any, 1, false, .fixed 25⟩,
  ⟨0x7006, 0x2, 0x2, 5, 0, 0, 0x0, .any, 8, false, .fixed 25⟩,
  ⟨0x7007, 0x0, 0x0, 10, 0, 0, 0x0, .any, 24, true, .fixed 25⟩,
  ⟨0x7008, 0x0, 0x0, 10, 1, 0, 0x0, .any, 16, true, .fixed 25⟩,
  ⟨0x7008, 0x1, 0x1, 2, 1, 0, 0x1, .between 1 2, 1, false, .fixed 25⟩,
  ⟨0x7008, 0x2, 0x2, 1, 2, 0, 0x0, .between 0 1, 1, false, .fixed 25⟩,
  ⟨0x7008, 0x3, 0x3, 2, 0, 0, 0x0, .any, 1, false, .fixed 25⟩,
  ⟨0x7008, 0x4, 0x4, 10, 0, 0, 0x0, .any, 512, false, .fixed 25⟩,
  ⟨0x7008, 0x5, 0x5, 4, 1, 0, 0x0, .any, 4, false, .fixed 25⟩,
  ⟨0x7008, 0x6, 0x6, 5, 0, 0, 0x0, .any, 8, false, .fixed 25⟩,
  ⟨0x7009, 0x0, 0x0, 10, 0, 1, 0x0, .any, 16384, true, .fixed 25⟩,
  ⟨0x8000, 0x0, 0x0, 10, 2, 0, 0x0, .any, 16, false, .fixed 26⟩,
  ⟨0x8000, 0x1, 0x1, 4, 1, 1, 0x3E8, .between 1 60000, 4, false, .fixed 26⟩,
  ⟨0x8000, 0x2, 0x2, 2, 0, 0, 0x0, .any, 1, false, .fixed 26⟩,
  ⟨0x8001, 0x0, 0x0, 10, 0, 0, 0x0, .any, 1024, true, .fixed 26⟩,
  ⟨0x8001, 0x1, 0x1, 4, 0, 0, 0x0, .any, 4, false, .fixed 26⟩,
  ⟨0x8002, 0x0, 0x0, 1, 1, 1, 0x1, .between 0 1, 1, false, .fixed 26⟩,
  ⟨0x8002, 0x1, 0x1, 2, 1, 1, 0x1, .between 1 10, 1, false, .fixed 26⟩,
  ⟨0x8002, 0x2, 0x2, 10, 0, 0, 0x0, .any, 1024, true, .fixed 26⟩,
  ⟨0x8003, 0x0, 0x0, 3, 1, 1, 0x18, .between 0 8760, 2, false, .fixed 26⟩]

def dictRows8 : List DictRow := [
  ⟨0x8003, 0x1, 0x1, 3, 0, 0, 0x0, .any, 2, false, .fixed 26⟩,
  ⟨0x8100, 0x0, 0x0, 4, 0, 2, 0x0, .any, 4, false, .fixed 26⟩,
  ⟨0x8101, 0x0, 0x0, 10, 3, 2, 0x0, .any, 1048576, false, .fixed 26⟩,
  ⟨0x8102, 0x0, 0x0, 10, 0, 1, 0x0, .any, 28, false, .fixed 26⟩,
  ⟨0x9000, 0x0, 0x0, 2, 3, 1, 0x0, .between 0 2, 1, false, .fixed 27⟩,
  ⟨0x9000, 0x1, 0x1, 4, 3, 1, 0xE10, .between 60 86400, 4, false, .fixed 27⟩,
  ⟨0x9000, 0x2, 0x2, 2, 3, 1, 0x24, .between 20 40, 1, false, .fixed 27⟩,
  ⟨0x9000, 0x3, 0x3, 3, 3, 1, 0x18, .between 1 720, 2, false, .fixed 27⟩,
  ⟨0x9000, 0x4, 0x4, 3, 2, 0, 0x0, .any, 2, false, .fixed 27⟩,
  ⟨0x9001, 0x0, 0x0, 10, 4, 3, 0x0, .any, 1793, false, .fixed 27⟩,
  ⟨0x9001, 0x1, 0x1, 10, 4, 3, 0x0, .any, 131072, false, .fixed 27⟩,
  ⟨0x9001, 0x2, 0x2, 10, 4, 3, 0x0, .any, 16, false, .fixed 27⟩,
  ⟨0x9001, 0x3, 0x3, 10, 4, 3, 0x0, .any, 6, false, .fixed 27⟩,
  ⟨0x9002, 0x0, 0x0, 10, 2, 0, 0x0, .any, 32, false, .fixed 27⟩,
  ⟨0x9002, 0x1, 0x1, 10, 0, 0, 0x0, .any, 1544, true, .fixed 27⟩,
  ⟨0x9010, 0x0, 0x0, 5, 3, 0, 0x0, .any, 8, false, .fixed 27⟩,
  ⟨0x9010, 0x1, 0x1, 4, 3, 0, 0x0, .any, 4, false, .fixed 27⟩,
  ⟨0x9011, 0x0, 0x0, 2, 3, 1, 0x0, .between 0 1, 1, false, .fixed 27⟩,
  ⟨0x9011, 0x1, 0x1, 2, 0, 0, 0x0, .any, 1, false, .fixed 27⟩,
  ⟨0x9011, 0x2, 0x2, 2, 0, 3, 0x0, .any, 1, false, .fixed 27⟩,
  ⟨0x9020, 0x0, 0x0, 10, 2, 0, 0x0, .any, 4072, false, .fixed 27⟩,
  ⟨0x9030, 0x0, 0x0, 10, 3, 1, 0x0, .any, 98320, false, .fixed 27⟩,
  ⟨0x9031, 0x1, 0x60, 2, 0, 0, 0x0, .any, 1, false, .port⟩,
  ⟨0x9031, 0x61, 0x61, 3, 0, 0, 0x0, .any, 2, false, .fixed 27⟩]

def dictRows9 : List DictRow := [
  ⟨0xA010, 0x1, 0x1, 5, 0, 0, 0x0, .any, 8, false, .none⟩,
  ⟨0xA010, 0x2, 0x2, 5, 0, 0, 0x0, .any, 8, false, .none⟩,
  ⟨0xA010, 0x3, 0x3, 5, 0, 0, 0x0, .any, 8, false, .none⟩,
  ⟨0xA010, 0x4, 0x4, 5, 0, 0, 0x0, .any, 8, false, .none⟩,
  ⟨0xA010, 0x5, 0x5, 5, 0, 0, 0x0, .any, 8, false, .none⟩,
  ⟨0xA010, 0x6, 0x6, 5, 0, 0, 0x0, .any, 8, false, .none⟩,
  ⟨0xA010, 0x7, 0x7, 5, 0, 0, 0x0, .any, 8, false, .none⟩,
  ⟨0xA010, 0x8, 0x8, 5, 0, 0, 0x0, .any, 8, false, .none⟩,
  ⟨0xA010, 0x9, 0x9, 5, 0, 0, 0x0, .any, 8, false, .none⟩,
  ⟨0xA020, 0x1, 0x1, 5, 0, 0, 0x0, .any, 8, false, .none⟩,
  ⟨0xA020, 0x2, 0x2, 5, 0, 0, 0x0, .any, 8, false, .none⟩,
  ⟨0xA020, 0x3, 0x7, 5, 0, 0, 0x0, .any, 8, false, .none⟩,
  ⟨0xA020, 0x8, 0x8, 5, 0, 0, 0x0, .any, 8, false, .none⟩,
  ⟨0xA020, 0x9, 0x9, 5, 0, 0, 0x0, .any, 8, false, .none⟩,
  ⟨0xA020, 0xA, 0xA, 5, 0, 0, 0x0, .any, 8, false, .none⟩,
  ⟨0xA020, 0xB, 0xB, 5, 0, 0, 0x0, .any, 8, false, .none⟩,
  ⟨0xA020, 0xC, 0xC, 5, 0, 0, 0x0, .any, 8, false, .none⟩,
  ⟨0xA030, 0x1, 0x1, 5, 0, 0, 0x0, .any, 8, false, .none⟩,
  ⟨0xA030, 0x2, 0x2, 5, 0, 0, 0x0, .any, 8, false, .none⟩,
  ⟨0xA030, 0x3, 0x3, 5, 0, 0, 0x0, .any, 8, false, .none⟩,
  ⟨0xA030, 0x4, 0x4, 5, 0, 0, 0x0, .any, 8, false, .none⟩,
  ⟨0xA030, 0x5, 0x5, 5, 0, 0, 0x0, .any, 8, false, .none⟩,
  ⟨0xA030, 0x6, 0x6, 5, 0, 1, 0x0, .any, 8, false, .none⟩,
  ⟨0xA030, 0x7, 0x7, 5, 0, 0, 0x0, .any, 8, false, .none⟩]

def dictRows10 : List DictRow := [
  ⟨0xA030, 0x8, 0x8, 5, 0, 0, 0x0, .any, 8, false, .none⟩,
  ⟨0xA040, 0x1, 0x1, 5, 0, 0, 0x0, .any, 8, false, .fixed 26⟩,
  ⟨0xA040, 0x2, 0x2, 5, 0, 0, 0x0, .any, 8, false, .fixed 26⟩,
  ⟨0xA040, 0x3, 0x3, 5, 0, 0, 0x0, .any, 8, false, .fixed 26⟩,
  ⟨0xA040, 0x4, 0x4, 5, 0, 0, 0x0, .any, 8, false, .fixed 26⟩,
  ⟨0xA040, 0x5, 0x5, 5, 0, 0, 0x0, .any, 8, false, .fixed 26⟩,
  ⟨0xA040, 0x6, 0x6, 5, 0, 0, 0x0, .any, 8, false, .fixed 26⟩,
  ⟨0xA040, 0x7, 0x7, 5, 0, 0, 0x0, .any, 8, false, .fixed 26⟩,
  ⟨0xA050, 0x1, 0x1, 5, 0, 0, 0x0, .any, 8, false, .fixed 27⟩,
  ⟨0xA050, 0x2, 0x2, 5, 0, 0, 0x0, .any, 8, false, .fixed 27⟩,
  ⟨0xA050, 0x3, 0x3, 5, 0, 0, 0x0, .any, 8, false, .fixed 27⟩,
  ⟨0xA050, 0x4, 0x4, 5, 0, 0, 0x0, .any, 8, false, .fixed 27⟩,
  ⟨0xA050, 0x5, 0x5, 5, 0, 0, 0x0, .any, 8, false, .fixed 27⟩,
  ⟨0xA050, 0x6, 0x6, 5, 0, 0, 0x0, .any, 8, false, .fixed 27⟩,
  ⟨0xA050, 0x7, 0x7, 5, 0, 0, 0x0, .any, 8, false, .fixed 27⟩,
  ⟨0xA050, 0x8, 0x8, 5, 0, 0, 0x0, .any, 8, false, .fixed 27⟩,
  ⟨0xA050, 0x9, 0x9, 5, 0, 0, 0x0, .any, 8, false, .fixed 27⟩,
  ⟨0xA100, 0x1, 0x1, 5, 0, 0, 0x0, .any, 8, false, .none⟩,
  ⟨0xA100, 0x2, 0x2, 5, 0, 0, 0x0, .any, 8, false, .none⟩,
  ⟨0xA100, 0x3, 0x3, 5, 0, 0, 0x0, .any, 8, false, .none⟩,
  ⟨0xA100, 0x4, 0x4, 5, 0, 0, 0x0, .any, 8, false, .none⟩,
  ⟨0xA100, 0x5, 0x5, 5, 0, 0, 0x0, .any, 8, false, .none⟩,
  ⟨0xA100, 0x6, 0x6, 5, 0, 0, 0x0, .any, 8, false, .none⟩,
  ⟨0xA200, 0x1, 0x1, 5, 0, 0, 0x0, .any, 8, false, .none⟩]

def dictRows11 : List DictRow := [
  ⟨0xA200, 0x2, 0x2, 5, 0, 0, 0x0, .any, 8, false, .none⟩,
  ⟨0xA200, 0x3, 0x3, 5, 0, 0, 0x0, .any, 8, false, .none⟩,
  ⟨0xA200, 0x4, 0x4, 5, 0, 0, 0x0, .any, 8, false, .none⟩,
  ⟨0xA200, 0x5, 0x5, 5, 0, 0, 0x0, .any, 8, false, .none⟩,
  ⟨0xA200, 0x6, 0x6, 5, 0, 0, 0x0, .any, 8, false, .none⟩,
  ⟨0xA200, 0x7, 0x7, 5, 0, 0, 0x0, .any, 8, false, .none⟩,
  ⟨0xA200, 0x8, 0x8, 5, 0, 0, 0x0, .any, 8, false, .none⟩,
  ⟨0xA200, 0x9, 0x9, 5, 0, 0, 0x0, .any, 8, false, .none⟩,
  ⟨0xA200, 0xA, 0xA, 5, 0, 0, 0x0, .any, 8, false, .none⟩,
  ⟨0xA200, 0xB, 0xB, 5, 0, 0, 0x0, .any, 8, false, .none⟩,
  ⟨0xA500, 0x1, 0x60, 5, 0, 0, 0x0, .any, 8, false, .port⟩,
  ⟨0xA501, 0x1, 0x60, 5, 0, 0, 0x0, .any, 8, false, .port⟩,
  ⟨0xA502, 0x1, 0x1, 5, 0, 0, 0x0, .any, 8, false, .none⟩,
  ⟨0xA502, 0x2, 0x2, 5, 0, 0, 0x0, .any, 8, false, .none⟩,
  ⟨0xA502, 0x3, 0x3, 5, 0, 0, 0x0, .any, 8, false, .none⟩,
  ⟨0xA502, 0x4, 0x4, 5, 0, 0, 0x0, .any, 8, false, .none⟩,
  ⟨0xA502, 0x5, 0x5, 5, 0, 0, 0x0, .any, 8, false, .none⟩,
  ⟨0xA502, 0x6, 0x6, 5, 0, 0, 0x0, .any, 8, false, .none⟩,
  ⟨0xA502, 0x7, 0x7, 5, 0, 0, 0x0, .any, 8, false, .none⟩,
  ⟨0xA502, 0x8, 0x8, 5, 0, 0, 0x0, .any, 8, false, .none⟩,
  ⟨0xA502, 0x9, 0x9, 5, 0, 0, 0x0, .any, 8, false, .none⟩,
  ⟨0xA510, 0x1, 0x1, 5, 0, 0, 0x0, .any, 8, false, .none⟩,
  ⟨0xA510, 0x2, 0x2, 5, 0, 0, 0x0, .any, 8, false, .none⟩,
  ⟨0xA510, 0x3, 0x3, 5, 0, 0, 0x0, .any, 8, false, .none⟩]

def dictRows12 : List DictRow := [
  ⟨0xA510, 0x4, 0x4, 5, 0, 0, 0x0, .any, 8, false, .none⟩,
  ⟨0xA510, 0x5, 0x5, 5, 0, 0, 0x0, .any, 8, false, .none⟩,
  ⟨0xA510, 0x6, 0x6, 5, 0, 0, 0x0, .any, 8, false, .none⟩,
  ⟨0xA510, 0x7, 0x7, 5, 0, 0, 0x0, .any, 8, false, .none⟩,
  ⟨0xA510, 0x8, 0x8, 5, 0, 0, 0x0, .any, 8, false, .none⟩,
  ⟨0xA510, 0x9, 0x9, 5, 0, 0, 0x0, .any, 8, false, .none⟩,
  ⟨0xA510, 0xA, 0xA, 5, 0, 0, 0x0, .any, 8, false, .none⟩,
  ⟨0xA510, 0xB, 0xB, 5, 0, 0, 0x0, .any, 8, false, .none⟩,
  ⟨0xA510, 0xC, 0xC, 5, 0, 0, 0x0, .any, 8, false, .none⟩,
  ⟨0xA510, 0xD, 0xD, 5, 0, 0, 0x0, .any, 8, false, .none⟩,
  ⟨0xA600, 0x1, 0x1, 5, 0, 0, 0x0, .any, 8, false, .none⟩,
  ⟨0xA600, 0x2, 0x2, 5, 0, 0, 0x0, .any, 8, false, .none⟩,
  ⟨0xA600, 0x3, 0x3, 5, 0, 0, 0x0, .any, 8, false, .none⟩,
  ⟨0xA600, 0x4, 0x4, 5, 0, 0, 0x0, .any, 8, false, .none⟩,
  ⟨0xA600, 0x5, 0x5, 5, 0, 0, 0x0, .any, 8, false, .none⟩,
  ⟨0xA600, 0x6, 0x6, 5, 0, 0, 0x0, .any, 8, false, .none⟩,
  ⟨0xA600, 0x7, 0x7, 5, 0, 0, 0x0, .any, 8, false, .none⟩,
  ⟨0xA600, 0x8, 0x8, 5, 0, 0, 0x0, .any, 8, false, .none⟩,
  ⟨0xA600, 0x9, 0x9, 5, 0, 0, 0x0, .any, 8, false, .none⟩,
  ⟨0xA600, 0xA, 0xA, 5, 0, 0, 0x0, .any, 8, false, .none⟩,
  ⟨0xA600, 0xB, 0xB, 5, 0, 0, 0x0, .any, 8, false, .none⟩,
  ⟨0xA610, 0x1, 0x20, 5, 0, 0, 0x0, .any, 8, false, .none⟩,
  ⟨0xA611, 0x1, 0x20, 5, 0, 0, 0x0, .any, 8, false, .none⟩,
  ⟨0xA612, 0x1, 0x20, 5, 0, 0, 0x0, .any, 8, false, .none⟩]

def dictRows13 : List DictRow := [
  ⟨0xA613, 0x0, 0x0, 5, 0, 0, 0x0, .any, 8, false, .none⟩,
  ⟨0xA614, 0x0, 0x0, 5, 0, 0, 0x0, .any, 8, false, .none⟩,
  ⟨0xA620, 0x1, 0x1, 5, 0, 0, 0x0, .any, 8, false, .none⟩,
  ⟨0xA620, 0x2, 0x2, 5, 0, 0, 0x0, .any, 8, false, .none⟩,
  ⟨0xA620, 0x3, 0x3, 5, 0, 0, 0x0, .any, 8, false, .none⟩,
  ⟨0xA630, 0x1, 0x1, 5, 0, 0, 0x0, .any, 8, false, .none⟩,
  ⟨0xA630, 0x2, 0x2, 5, 0, 0, 0x0, .any, 8, false, .none⟩,
  ⟨0xA630, 0x3, 0x3, 5, 0, 0, 0x0, .any, 8, false, .none⟩,
  ⟨0xA630, 0x4, 0x4, 5, 0, 0, 0x0, .any, 8, false, .none⟩,
  ⟨0xA630, 0x5, 0x5, 5, 0, 0, 0x0, .any, 8, false, .none⟩,
  ⟨0xA630, 0x6, 0x6, 5, 0, 0, 0x0, .any, 8, false, .none⟩,
  ⟨0xA630, 0x7, 0x7, 5, 0, 0, 0x0, .any, 8, false, .none⟩,
  ⟨0xA630, 0x8, 0x8, 5, 0, 0, 0x0, .any, 8, false, .none⟩,
  ⟨0xA630, 0x9, 0x9, 5, 0, 0, 0x0, .any, 8, false, .none⟩,
  ⟨0xA630, 0xA, 0xA, 5, 0, 0, 0x0, .any, 8, false, .none⟩,
  ⟨0xA630, 0xB, 0xB, 5, 0, 0, 0x0, .any, 8, false, .none⟩,
  ⟨0xA630, 0xC, 0xC, 5, 0, 0, 0x0, .any, 8, false, .none⟩,
  ⟨0xA630, 0xD, 0xD, 5, 0, 0, 0x0, .any, 8, false, .none⟩,
  ⟨0xA630, 0xE, 0xE, 5, 0, 0, 0x0, .any, 8, false, .none⟩,
  ⟨0xA630, 0xF, 0xF, 5, 0, 0, 0x0, .any, 8, false, .none⟩,
  ⟨0xA630, 0x10, 0x10, 5, 0, 0, 0x0, .any, 8, false, .none⟩,
  ⟨0xA630, 0x11, 0x11, 5, 0, 0, 0x0, .any, 8, false, .none⟩,
  ⟨0xA700, 0x1, 0x1, 5, 0, 0, 0x0, .any, 8, false, .none⟩,
  ⟨0xA700, 0x2, 0x2, 5, 0, 0, 0x0, .any, 8, false, .none⟩]

def dictRows14 : List DictRow := [
  ⟨0xA700, 0x3, 0x3, 5, 0, 0, 0x0, .any, 8, false, .none⟩,
  ⟨0xA700, 0x4, 0x4, 5, 0, 0, 0x0, .any, 8, false, .none⟩,
  ⟨0xA700, 0x5, 0x5, 5, 0, 0, 0x0, .any, 8, false, .none⟩,
  ⟨0xA700, 0x6, 0x6, 5, 0, 0, 0x0, .any, 8, false, .none⟩,
  ⟨0xA700, 0x7, 0x7, 5, 0, 0, 0x0, .any, 8, false, .none⟩,
  ⟨0xA700, 0x8, 0x8, 5, 0, 0, 0x0, .any, 8, false, .none⟩,
  ⟨0xA700, 0x9, 0x9, 5, 0, 0, 0x0, .any, 8, false, .none⟩,
  ⟨0xA700, 0xA, 0xA, 5, 0, 0, 0x0, .any, 8, false, .none⟩,
  ⟨0xA700, 0xB, 0xB, 5, 0, 0, 0x0, .any, 8, false, .none⟩]

/-- Every row. -/
def dictRows : List DictRow :=
  dictRows0 ++ dictRows1 ++ dictRows2 ++ dictRows3 ++ dictRows4 ++ dictRows5 ++ dictRows6 ++ dictRows7 ++ dictRows8 ++ dictRows9 ++ dictRows10 ++ dictRows11 ++ dictRows12 ++ dictRows13 ++ dictRows14

/-- The row that holds an entry. -/
def dictRow? (key : Nat) : Option DictRow :=
  dictRows.find? (fun r => decide (r.idx = key / 256) && decide (r.lo ≤ key % 256) && decide (key % 256 ≤ r.hi))

/-- Default values of the numeric entries that are not 0 (STALE_W by R228: 1.0, 0.5, 0.25, then 0), by key. -/
def dictDefault (key : Nat) : Nat :=
  if key = kSTALE_W then 0x3F800000
  else if key = kSTALE_W + 1 then 0x3F000000
  else if key = kSTALE_W + 2 then 0x3E800000
  else match dictRow? key with
    | some r => r.dflt
    | none => 0

end Sys2Proof.Machine
end

