-- ==== Sys2Proof/Machine/State.lean ====
section
/-! DEFINITION. The state of the module as plain data. Numeric dictionary entries, counters among them, have
their one home in `Module.nums`; registers of regions, clusters and units are fields of their part. Tables are
sparse (`Tab`). The command queue and module time stand outside `Module`, so that no effect of a command on the
module can reach them. -/

namespace Sys2Proof.Machine

/-! ### Units and clusters -/

/-- A tainted range of tile rows and the part of it not yet rewritten (R35). -/
structure Taint where
  lo : Nat
  hi : Nat
  todo : List (Nat × Nat)
  deriving DecidableEq, Repr

/-- A unit: accumulator memory, taints, sticky flags and counters (R30, R35, R47–R49). An unlisted word of `rows`
(row × 64 + lane) reads a free value of `epoch` (R34). `lastChunk` and `arrayFree` are when the array began, or begins, its
last K-chunk, and when its present work ends (R23); `tail` is the cycles beyond that end which have been counted as busy (R49). -/
structure UnitSt where
  rows : Tab Nat := []
  epoch : Nat := 0
  ueRows : List Nat := []
  taints : List Taint := []
  taintAll : Bool := false
  flags : Nat := 0
  hold : Bool := false
  arrayCycles : Nat := 0
  vectorCycles : Nat := 0
  lastChunk : Nat := 0
  arrayFree : Nat := 0
  tail : Nat := 0
  deriving DecidableEq, Repr

/-- A cluster: its buffer with slot tags, conversion stage flags, units and sleep state (R73–R75, R103, R63, R99, R334).
An unlisted byte of `buf` reads a free value of `epoch`. -/
structure Cluster where
  buf : Tab Nat := []
  tags : Tab Nat := []
  epoch : Nat := 0
  ueLines : List Nat := []
  bufWait : Nat := 0
  convFlags : Nat := 0
  units : Tab UnitSt := []
  lastHold : Bool := false
  sleep : Nat := 0
  since : Nat := 0
  idleSince : Nat := 0
  waking : Option Nat := none
  waiting : Option Nat := none
  waitPrio : Nat := 0
  deriving DecidableEq, Repr

/-! ### Work -/

/-- A descriptor in flight (R78–R85). Phases: 0 accepted, 1 dispatched, 2 its work has ended, 3 completed with its record
held, 4 under way and waiting (a fence, a time, places, responses, commits). `ready` is when its target was ready, `disp`
its number in dispatch order, `prog` its copy of an update program (R166), `fetched` and `got` its progress, `held` the time for
which an issue gate of 0 has kept it from its unit (R49). -/
structure Flight where
  id : Nat
  d : Desc
  phase : Nat := 0
  start : Nat := 0
  ready : Option Nat := none
  disp : Nat := 0
  prog : List Byte := []
  endAt : Nat := 0
  unit : Option Nat := none
  status : Nat := 0
  flags : Nat := 0
  aux : Nat := 0
  fetched : Nat := 0
  got : Nat := 0
  held : Nat := 0
  deriving DecidableEq, Repr

/-- A descriptor queue (R99, R81). -/
structure QueueSt where
  ctx : Nat := 0
  enable : Bool := false
  halted : Bool := false
  cplBase : Nat := 0
  log2 : Nat := 0
  head : Nat := 0
  tail : Nat := 0
  lastUnit : Option Nat := none
  deriving DecidableEq, Repr

/-- Generator states and program store of a context that is not active (R96). -/
structure CtxSave where
  gens : Tab Nat := []
  progs : Tab (List Byte) := []
  deriving DecidableEq, Repr

/-- The work side of a region controller (R76–R100). `rr` holds the queue last served of each resource (R80); `hints` holds
the hints in force: clusters as a mask, time, PRIO (R98, R340). `ringWait` holds the records that wait for a place in a ring, in
the order of their arrival: queue, acceptance number + 1 of the descriptor (0: a refusal), record (R78, R85). -/
structure Work where
  queues : Tab QueueSt := []
  flights : List Flight := []
  nextId : Nat := 0
  dispatched : Nat := 0
  rr : Tab Nat := []
  ringWait : List (Nat × Nat × List Byte) := []
  sync : Tab Nat := []
  active : Nat := 0
  switching : Bool := false
  target : Nat := 0
  kept : Option Nat := none
  drainedAt : Option Nat := none
  quantum : Nat := 0
  quantumStart : Nat := 0
  fence : Nat := 0
  fenced : Nat := 0
  keep : Nat := 0xFFFF
  hints : List (Nat × Nat × Nat) := []
  accepted : Nat := 0
  completed : Nat := 0
  flushed : Nat := 0
  heartbeat : Nat := 0
  lastCpl : Nat := 0
  refused : Nat := 0
  hintMiss : Nat := 0
  refusalLost : Nat := 0
  gens : Tab Nat := []
  saved : Tab CtxSave := []
  deriving DecidableEq, Repr

/-! ### Bonded memory -/

/-- A region's stack (R101–R105, R126–R144). `data` holds the stored bytes of the slots, by region offset; a byte that
is not listed is 0. `codes` holds the slot codes; a slot that is not listed has code 0x8 (R102). `errs` gives of a
sector (offset / 32) the symbols of its codeword that are in error, by position (data 0–31, the address symbol 32, check symbols 33–35),
each with what it is off by (R133). -/
structure Stack where
  data : List Host.Cell := []
  codes : Tab Nat := []
  errs : Tab (Tab Nat) := []
  mcache : List Nat := []
  alloc : Tab Nat := []
  ueLog : List (Nat × Nat) := []
  ceTimes : List Nat := []
  advised : Tab Nat := []
  selfRefresh : Bool := false
  lastReq : Nat := 0
  hotWindow : Bool := false
  coolSince : Option Nat := none
  scrubSlot : Nat := 0
  scrubNotes : Tab Nat := []
  candidates : List Nat := []
  soft : List (Nat × Nat) := []
  softFlash : List (Nat × Nat) := []
  fuses : List (Nat × Nat) := []
  trainTime : Nat := 0
  trainTemps : List Int := []
  spareBad : List (Nat × Nat) := []
  deriving DecidableEq, Repr

/-! ### Training state -/

/-- A commit of one block (R172): its number, its update descriptor (acceptance number + 1; 0 for the Chanter helper),
CHANTER_GEN as it was made (R393), extent and block, kind, index in the descriptor, the round it records, a delta's origin and message flags, the 256 FP32
values of an adoption (decoded update, or state when `src` is 1), the fragment that it lets acknowledge (its stream's record and
its number), the step at which it waits (1; 2 for a retained copy at step 1; 3, 5 or 6), its shadow half, what step 4 put there, the payload that it sends
with its codec and k, the helper's generator as a commit that waits has it from its place in the block order (R115), the sums U and W (R69), and since when it waits. -/
structure Commit where
  id : Nat := 0
  flight : Nat := 0
  chGen : Nat := 0
  ext : Nat := 0
  blk : Nat := 0
  kind : Nat := 0
  idx : Nat := 0
  round : Nat := 0
  origin : Nat := 0
  flags : Nat := 0
  src : Nat := 0
  vals : List Nat := []
  ack : Option (Nat × Nat) := none
  step : Nat := 1
  half : Option Nat := none
  parts : List (Nat × List Byte) := []
  out : List Byte := []
  codec : Nat := 0
  k : Nat := 0
  gen : Option Nat := none
  sums : Option (Nat × Nat) := none
  since : Nat := 0
  deriving DecidableEq, Repr

/-- Update lanes, norm fence, commits and step close of a region (R157–R183). `uwr` holds the FP64 sums U and W by layer
(R69, R70); `closing` holds step and acceptance number of completed CLOSE descriptors; `table` the bytes of the shard table as
its commit took them (R162). -/
structure Train where
  progs : Tab (List Byte) := []
  ulaneFlags : Nat := 0
  partialSum : Nat := 0
  complete : Nat := 0
  passed : Bool := false
  commits : List Commit := []
  nextCommit : Nat := 0
  retainUsed : List Nat := []
  uwr : Tab (Nat × Nat) := []
  unmapped : Nat := 0
  compWorking : Bool := true
  closing : List (Nat × Nat) := []
  table : List Byte := []
  deriving DecidableEq, Repr

/-- A recall under way (R148, R149, R153): its entry, the object's bytes so far, whether all of it is there. -/
structure Recall where
  entry : Nat
  data : List Byte := []
  full : Bool := false
  deriving DecidableEq, Repr

/-- A write-back under way (R152): its entry, the new key, pieces not yet acknowledged. -/
structure WriteBack where
  entry : Nat
  key : List Byte
  left : Nat
  deriving DecidableEq, Repr

/-- What a restore leaves to do when a tiered extent's cold object is at hand (R366, R367): the key of the object that the extent had
before (empty: it is not needed, or at hand), that object, and for each block 0 W of the cut, 1 W carried to the present BASIS, 2 resync. -/
structure TierFix where
  old : List Byte := []
  present : List Byte := []
  acts : List Nat
  deriving DecidableEq, Repr

/-- The slow tier of a region: the entry that claims each stage and frame, the recall deadlines and those missed, the
entries that wait for a frame and since when, recalls and write-backs under way, blocks committed by entry, and what restores
left to do by entry (R145–R154). -/
structure Tier where
  stages : Tab Nat := []
  frames : Tab Nat := []
  deadlines : Tab Nat := []
  late : List Nat := []
  waitFrame : List (Nat × Nat) := []
  recalls : List Recall := []
  writes : List WriteBack := []
  committed : Tab (Nat × List Nat) := []
  fixes : Tab TierFix := []
  deriving DecidableEq, Repr

/-- A payload in an exchange buffer (R207, R214, R217): extent and block, global index, round, origin, whether it is a
result, its codec and k, whether a stream has taken it, the sites (of a delta: the home site) that have acknowledged it, where its
bytes lie in the region and how many they are. -/
structure Payload where
  ext : Nat
  blk : Nat
  gidx : Nat
  round : Nat
  origin : Nat
  isResult : Bool
  codec : Nat
  k : Nat
  shipped : Bool := false
  acked : List Nat := []
  at_ : Nat
  len : Nat
  deriving DecidableEq, Repr

/-- Cross-site exchange state of one region (R203–R221): the last boundary passed, the round being formed, the rounds
signalled, the payloads kept, the positions held while their home's site was away (R226), the codec settings in force
since the boundary (R119: codec, k, entropy, rounding), and the bytes of the exchange table as its commit took them (R204). -/
structure Xch where
  boundary : Nat := 0
  forming : Option Nat := none
  signalled : Nat := 0
  payloads : List Payload := []
  heldPos : List Nat := []
  codec : Nat := 1
  k : Nat := 16
  entropy : Bool := false
  stoch : Bool := false
  table : List Byte := []
  deriving DecidableEq, Repr

/-- A shard's drain under way (R352): extent and first block, body length, digest, pieces not yet acknowledged (0: QUERY sent). -/
structure Drain where
  ext : Nat
  first : Nat
  count : Nat
  size : Nat
  digest : List Byte
  left : Nat := 0
  deriving DecidableEq, Repr

/-- The cut's state in a region (R346–R354): shards not yet drained (extent, first block), the drain under way, the
manifest entries made (R357) by extent × 2²⁴ + first block, whether the drain failed, reserve entry and home entry + 1 by
block position, the positions KEPT, drained earliest first, and the KEYs of tiered extents as they stood at the cut (R356). -/
structure RCut where
  shards : List (Nat × Nat) := []
  drain : Option Drain := none
  records : Tab (List Byte) := []
  failed : Bool := false
  used : Tab (Nat × Nat) := []
  kept : List Nat := []
  keys : Tab (List Byte) := []
  deriving DecidableEq, Repr

/-- Bellows' state of one region (R317–R345), in mW, mA and millidegrees: issue gate, V–F point, the point whose voltage the rail is set to,
from where in mV and since when that setpoint falls, clock stretch; whether the
PLL is stopped and when it runs again; the estimate of the last microsecond; sum and count of this period's uncorrected estimates
and the last 2,000 periods' means with the rail power measured; until when the stack takes no further request under its rate limit (R343); the rail's last measurement; whether the gate is held at 0 for
temperature or lowered for the rail's current; when the V–F point was last lowered and raised; the hottest sensors; the halvings of
the stack's access rate and when it was last halved or doubled; since when a trip temperature holds; the admission places taken
(cluster, until). -/
structure Power where
  gate : Nat := 64
  fpoint : Nat := 0
  vpoint : Nat := 0
  railFall : Option (Nat × Nat) := none
  stretch : Bool := false
  pllOff : Bool := false
  pllWake : Option Nat := none
  estMw : Nat := 0
  rawSum : Nat := 0
  rawCount : Nat := 0
  fit : List (Nat × Nat) := []
  paceUntil : Nat := 0
  measMw : Nat := 0
  railMa : Nat := 0
  hotGate : Bool := false
  railHeld : Bool := false
  vfDownAt : Nat := 0
  vfUpAt : Nat := 0
  logicMilliC : Int := 0
  dramMilliC : Int := 0
  dramDies : List Int := []
  dramLimit : Nat := 0
  dramDownAt : Nat := 0
  dramUpAt : Nat := 0
  logicTripSince : Option Nat := none
  dramTripSince : Option Nat := none
  ramp : List (Nat × Nat) := []
  deriving DecidableEq, Repr

/-- A non-idempotent request accepted for another module (R243): while it is still being applied, the copies that wait for its answer; then its
status and answer. -/
structure DupRec where
  tag : Nat
  node : Nat
  region : Nat
  gen : Nat
  status : Nat
  answer : List Byte
  at_ : Nat
  applying : Bool := false
  copies : List Frame := []
  deriving DecidableEq, Repr

/-- A region. -/
structure Region where
  work : Work := {}
  clusters : Tab Cluster := []
  stack : Stack := {}
  train : Train := {}
  tier : Tier := {}
  xch : Xch := {}
  cut : RCut := {}
  power : Power := {}
  dups : List DupRec := []
  held : List (Frame × Via) := []
  heldDesc : List (Frame × Nat) := []
  lastServed : Nat := 0
  deriving DecidableEq, Repr

/-! ### Links and fabric -/

/-- One end of a Kengosor link (R238–R240, R256): by sequence number how often an unacknowledged frame has been replayed; beside the received
frames the credits that each of them took as it came. -/
structure PortSt where
  sendSeq : Nat := 0
  recvSeq : Nat := 0
  unacked : List (Nat × Frame × Nat) := []
  replayed : Tab Nat := []
  waiting : List Frame := []
  rx : List Frame := []
  rxCost : List Nat := []
  credits : Tab Nat := []
  attempts : Nat := 0
  ackDue : Bool := false
  ackAt : Nat := 0
  nakSent : Bool := false
  drainUntil : Option Nat := none
  enableAfter : Bool := false
  deriving DecidableEq, Repr

/-- A long-haul reassembly in progress (R255); of a message that was dropped, the segments that have come since its first are kept
by number alone, so that the rest of it is dropped too. -/
structure Reasm where
  node : Nat
  msg : Nat
  first : Nat
  segs : Nat
  parts : List (Nat × List Byte)
  dead : Bool := false
  deriving DecidableEq, Repr

/-- One edge interface: reassembly, smoothing queue, decoded messages, host side (R120–R124, R253–R255, R261, R264). -/
structure EdgeSt where
  rx : List Frame := []
  reasm : List Reasm := []
  smooth : List (Nat × List Byte) := []
  ready : List (Nat × ChMsg) := []
  hostRx : List Frame := []
  hostDups : List (Nat × Nat × Nat × Nat) := []
  hostHeld : List Frame := []
  rung : List (Frame × Nat) := []
  deriving DecidableEq, Repr

/-- Whose request it is: nobody waits for it; frame idx of a fabric descriptor; the descriptor of a command ring
(R267); a management entry (R275); a forwarded completion doorbell (R274); pool request k (R359); a handshake's request for
a key slot: 1 read of the peer's key, 2 INIT, 3 REPLY, 4 UPDATE (R433, R439). -/
inductive Owner where
  | none
  | flight (id idx : Nat)
  | ring (i : Nat)
  | mgmt (i : Nat)
  | doorbell (k : Nat)
  | pool (k : Nat)
  | kex (slot kind : Nat)
  deriving DecidableEq, Repr

/-- An outstanding fabric request and its tag (R241–R243, R252). Holder 16 is Drone, 17 the bridge's forwarding. A parked one waits in a port
for credits and has not been sent yet. -/
structure Req where
  tag : Nat
  holder : Nat := 0
  owner : Owner := .none
  ctx : Nat := 0
  ctxGen : Nat := 0
  gen : Nat := 0
  frame : Frame
  sentAt : Nat
  parked : Bool := false
  deriving DecidableEq, Repr

/-- A request frame that waits for a free tag (R241). -/
structure TagWait where
  holder : Nat
  owner : Owner
  ctx : Nat
  since : Nat
  frame : Frame
  deriving DecidableEq, Repr

/-- One frame's worth of a collective at a member of this module (R249, R250): the member's region, the group, CSEQ,
COP and FMT, the contributing rank, whether it is a result, its byte offset and data. -/
structure CollPart where
  region : Nat
  group : Nat
  cseq : Nat
  cop : Nat
  fmt : Nat
  rank : Nat
  off : Nat
  data : List Byte
  deriving DecidableEq, Repr

/-- The module's tags, outstanding requests, collective contributions kept or
waiting (R241, R242, R249, R250), and what own answers left out (the model's own field, log entry 23). -/
structure Fabric where
  reqs : List Req := []
  quarantine : List (Nat × Nat) := []
  waiting : List TagWait := []
  colls : List CollPart := []
  collWaiting : List (Frame × Via) := []
  collFlags : Tab Nat := []
  unserved : List (Nat × Nat × List Nat) := []
  deriving DecidableEq, Repr

/-! ### Host bridge, registers, dictionary and field port -/

/-- A command ring (R265–R275, R288). -/
structure RingSt where
  base : Nat := 0
  enable : Bool := false
  kind : Nat := 0
  halted : Bool := false
  tregion : Nat := 0
  log2 : Nat := 0
  tnode : Nat := 0
  head : Nat := 0
  tail : Nat := 0
  errStatus : Nat := 0
  errIndex : Nat := 0
  inFlight : Option Nat := none
  deriving DecidableEq, Repr

/-- The bridge: rings; by completion doorbell (1,024p + 64g + q) the value last written, the value that waits to be
forwarded (+ 1), and those with a forward in flight (R274). -/
structure Bridge where
  rings : Tab RingSt := []
  doorbells : Tab Nat := []
  doorbellNext : Tab Nat := []
  doorbellBusy : List Nat := []
  deriving DecidableEq, Repr

/-- A staged value: a register field (address, width, value) or a dictionary value (key, bytes) (R280, R303). -/
structure Staged where
  dict : Bool
  key : Nat
  width : Nat
  value : Nat
  bytes : List Byte
  deriving DecidableEq, Repr

/-- The staging of one strobe group (R280, R284). -/
structure GroupSt where
  items : List Staged := []
  claim : Option Source := none
  lastWrite : Nat := 0
  deriving DecidableEq, Repr

/-- Who has the answer of a register access: its frame's requester; the source of REGISTER_WRITE or MODULE_COMMIT; a management ring of the
bridge itself (R275). -/
inductive Asker where
  | frame
  | command (src : Source)
  | ring (i : Nat)
  deriving DecidableEq, Repr

/-- A register access held by a sleeping domain, or a commit that waits for one (R284, R286). -/
structure HeldAccess where
  id : Nat
  write : Bool
  frame : Frame
  via : Via
  until_ : Nat
  since : Nat
  asker : Asker := .frame
  deriving DecidableEq, Repr

/-- A dictionary request that waits, or has been parked (R305): `order` is its number among the commits in progress. -/
structure DictReq where
  id : Nat := 0
  src : Source
  msg : DictMsg
  addr : List Byte
  port : Nat
  frame : Option (Frame × Via) := none
  arrived : Nat := 0
  wait : Nat := 0
  ring : Option Nat := none
  order : Nat := 0
  deriving DecidableEq, Repr

/-- What the module sends (R234, R253, R300–R311, R359, R440, R453). `packet` is the Ethernet, IPv6 and UDP header before the
frame that follows it, and the FCS behind it; `trailer` is the link trailer behind a frame on a port (R232); `portId` is what an end of a link
sends at training (R230); `neighbor` and `echo` answer to a MAC address, empty on the field port. -/
inductive Emit where
  | frame (via : Via) (f : Frame)
  | packet (iface : Nat) (header : List Byte) (fcs : Nat)
  | field (addr : List Byte) (port : Nat) (m : DictMsg)
  | dictAnswer (src : Source) (m : DictMsg)
  | neighbor (iface : Nat) (mac addr target : List Byte)
  | echo (iface : Nat) (mac addr data : List Byte)
  | trailer (p seq crc : Nat)
  | portId (p node index : Nat)
  | linkAck (p seq : Nat)
  | linkNak (p seq : Nat)
  | linkCredit (p vc n : Nat)
  | kex (via : Via) (m : KexMsg)
  | message (node : Nat) (m : ChMsg)
  | tdo (bits : List Bool)
  | beacon (count : Nat)
  | regValue (v status : Nat)
  deriving DecidableEq, Repr

/-- Drone: queues, records, telemetry and events (R299–R311, R390–R392); sum and count of input power readings since the last telemetry
tick, mW; the number of the next parked request; answers of the field port's IP layer that wait for a transmit opportunity (R299, R300). -/
structure Drone where
  fieldQ : List DictReq := []
  bandQ : List DictReq := []
  parked : List DictReq := []
  writeRecs : List (List Byte × Nat × DictMsg × DictMsg × Nat) := []
  outbox : List (List Byte × Nat × DictMsg) := []
  telem : Option (List Byte × Nat × DictMsg) := none
  telemSeq : Nat := 0
  plcaId : Nat := 0xFF
  plcaCount : Nat := 8
  eventLog : Tab (List Byte) := []
  lastEvent : Tab Nat := []
  bandTurn : Bool := false
  powerSum : Nat := 0
  powerCount : Nat := 0
  nextReq : Nat := 0
  ipOut : List Emit := []
  deriving DecidableEq, Repr

/-! ### Cross-site exchange -/

/-- A fragment of a stream that its receiver has not acknowledged (R212): when it was last sent, its RTO, how often. -/
structure Frag where
  msg : ChMsg
  sentAt : Option Nat := none
  rto : Nat := 0
  sends : Nat := 0
  deriving DecidableEq, Repr

/-- A stream to a peer (R208–R213). -/
structure StreamSt where
  node : Nat
  frags : List Frag
  deriving DecidableEq, Repr

/-- What is kept of a peer's stream at the receiving end (R211): its sender, type, round and region, the number that it last
travelled under, the count received without a gap, later fragments, fragments since the last acknowledgement, and when the first of them arrived. -/
structure RecvSt where
  node : Nat := 0
  stream : Nat := 0
  type : Nat := 0
  round : Nat := 0
  region : Nat := 0
  cum : Nat := 0
  seen : List Nat := []
  fresh : Nat := 0
  since : Nat := 0
  deriving DecidableEq, Repr

/-- Chanter's stream engine and its merge at the homes (R198–R228). By node: when last heard, since when held, last probe,
SRTT, OUTER announced. By site: share of the rate in Mb/s, when it last changed, the earliest next send; the module's
own, and each receiving node's decoder's. `fresh` holds the global indices merged with s = 0 by site (R216). `params` holds the values
that round and alignment parameters keep until the next boundary, where a commit has changed them since the last (R382). `nextSeq`
holds the fragments numbered so far of each stream sent (R208), `recvs` what was received, by node, TYPE, ROUND and region. `gens` holds
each die's helper's generator and `genRound` the round whose boundary seeded it (R115). -/
structure Chanter where
  streams : Tab StreamSt := []
  backlog : List (Nat × List ChMsg) := []
  recvs : Tab RecvSt := []
  heard : Tab Nat := []
  held : Tab Nat := []
  probed : Tab Nat := []
  srtt : Tab Nat := []
  outer : Tab Nat := []
  share : Tab Nat := []
  shareAt : Tab Nat := []
  siteNext : Tab Nat := []
  sendNext : Nat := 0
  decNext : Tab Nat := []
  msgNo : Nat := 0
  theta : List (Int × Nat) := []
  lastGood : Nat := 0
  exchange : Option Int := none
  fresh : Tab (List Nat) := []
  merging : Option Nat := none
  deadline : Option Nat := none
  holdUntil : Option Nat := none
  due : Bool := false
  params : Tab Nat := []
  nextSeq : Tab Nat := []
  gens : Tab Nat := []
  genRound : Tab Nat := []
  deriving DecidableEq, Repr

/-! ### Module-wide parts -/

/-- A stage queue's running state (R192–R195): credits and entries sent at an outbound end; entries arrived in order,
entries freed, and bytes applied and refused of the entries under way at an inbound end; the region generation it was
enabled in; entries refused at an inbound end, whose credits have gone back; entries sent whose credits have not come back; since when it
misses only a credit, or only an arrival. -/
structure StageQ where
  credits : Nat := 0
  nextOut : Nat := 0
  arrivedN : Nat := 0
  freedN : Nat := 0
  parts : Tab (Nat × Nat) := []
  gen : Nat := 0
  refused : Nat := 0
  owed : Nat := 0
  stallSince : Option Nat := none
  waitSince : Option Nat := none
  deriving DecidableEq, Repr

/-- A function in the disable cycle: until when it drains, or recovers after its abort; an enable that waits; descriptors
aborted (R395–R397). -/
structure Cycle where
  func : Func
  until_ : Nat
  enableAfter : Bool := false
  aborted : Nat := 0
  deriving DecidableEq, Repr

/-- A reset in progress (R398–R401): when it began, its cause, the time of its request, and what the surroundings show during a start. -/
structure ResetSt where
  dom : Domain
  at_ : Nat
  cause : Nat
  asked : Nat := 0
  obs : Option StartObs := none
  deriving DecidableEq, Repr

/-- The module's pins, input and start-up state (R376, R445–R456): input in mV; levels of RESET_N, ALERT_N and PWRGOOD; whether the rails
and Drone run; whether a thermal trip keeps the module off; a low of RESET_N that waits (R454); a module reset that waits for the end of a start
(1 warm, 2 cold); the loss record being programmed, until when, and its cause; the cause of the reset that has put the
module off, and when it was requested; whether the boot ROM waits for an image; reference clocks lost;
regions that are lost (REGION_DOWN). -/
structure Env where
  inputMv : Nat := 0
  resetN : Bool := true
  alertN : Bool := true
  pwrgood : Bool := false
  rails : Bool := false
  droneUp : Bool := false
  trip : Bool := false
  resetPending : Bool := false
  resetAsked : Option (Nat × StartObs) := none
  lossUntil : Option Nat := none
  lossCause : Nat := 0
  offCause : Nat := 2
  asked : Nat := 0
  lossRecord : List Byte := []
  bootWait : Bool := false
  refLost : Nat := 0
  regionsDown : Nat := 0
  deriving DecidableEq, Repr

/-- Flash and fuses (R294–R296, R371, R419–R427). -/
structure Flash where
  cfg0 : Option (Nat × List (Nat × List Byte)) := none
  cfg1 : Option (Nat × List (Nat × List Byte)) := none
  saving : Option (Nat × Nat × List (Nat × List Byte)) := none
  loss : Tab (List Byte) := []
  lossNext : Nat := 0
  cal : Option (List Byte) := none
  calBusy : Option (Nat × List Byte) := none
  image0 : Option FwImage := none
  image1 : Option FwImage := none
  fwBusy : Option (Nat × Nat × FwImage) := none
  recovery : Option FwImage := none
  svnFuses : Nat := 0
  coldStarts : Nat := 0
  wear : Tab Nat := []
  running : Nat := 0
  deriving DecidableEq, Repr

/-- Bellows' module-wide state (R320–R331), in mW, mV and nJ: the excess bucket; the last estimate; sum and count of this period's estimates, the
mean of the last period and of the last 20; the last measurement and the last 20; input voltage of the last period; periods in a row
that differ, and that agree or are plausible; when mode 1 began; the readings of the last periods; each region's gain (millionths) and
offset; the logic tests whose draw the last estimate holds (R413); whether a gate is lowered for R320; whether the power-fail sequence runs. -/
structure Bellows where
  bucketNj : Nat := 0
  estMw : Nat := 0
  estSum : Nat := 0
  estCount : Nat := 0
  estMean : Nat := 0
  estWindow : List Nat := []
  measMw : Nat := 0
  measWindow : List Nat := []
  inputMv : Nat := 0
  badPeriods : Nat := 0
  goodPeriods : Nat := 0
  divergedAt : Nat := 0
  lastRails : List (List RailReading) := []
  gains : Tab (Nat × Int) := []
  testsSeen : Nat := 0
  capped : Bool := false
  failing : Bool := false
  deriving DecidableEq, Repr

/-- A pool request outstanding (R149, R352, R359): its number, what it is for (1 drain QUERY, 2 drain PUT, 3 recall GET,
4 write-back PUT, 5 manifest PUT, 6 COMMIT, 7 restore GET), its region (16: Drone), tier entry or shard, offset, tries,
pool node and body. -/
structure PoolReq where
  k : Nat
  kind : Nat
  region : Nat
  item : Nat
  off : Nat
  tries : Nat := 1
  node : Nat
  body : List Byte
  deriving DecidableEq, Repr

/-- Cuts, manifests and restores of the module (R346–R368): pool requests, the regions whose share of the cut is still
to come, LAYOUT, ROUND and NODE at the cut, the step whose cut was skipped last and the regions still to close it, the digest of the manifest sent and of the last committed one, pieces of the manifest
not yet acknowledged, and whether an application failed. Of a restore: its mode, the manifest (empty: being fetched), the
bytes of the object that is being fetched, the next entry of the pass, whether the pass has ended, and the blocks that wait for STATE
(region, position). `params`: values of the snapshot policy in force until the next step close, where a commit has changed them (R382). -/
structure Cuts where
  pool : List PoolReq := []
  nextReq : Nat := 0
  toTake : List Nat := []
  layout : List Byte := []
  round : Nat := 0
  node : Nat := 0
  digest : List Byte := []
  prev : List Byte := []
  putLeft : Nat := 0
  lastCut : Nat := 0
  lastSkip : Nat := 0
  toSkip : List Nat := []
  broken : Bool := false
  mode : Nat := 0
  restore : List Byte := []
  data : List Byte := []
  next : Nat := 0
  passed : Bool := false
  bad : List (Nat × Nat) := []
  resync : List (Nat × Nat) := []
  params : Tab Nat := []
  deriving DecidableEq, Repr

/-- A self-test request (R411, R412): its target, the clusters still to test (of a memory test: the failing bits found), the clusters that
Drone has fenced, the cluster, granule or port under test and when its test began, or ends; `empty`: of a logic test without clusters. -/
structure Bist where
  id : Nat
  kind : Nat
  region : Nat
  mask : Nat
  deadline : Nat
  fencedByDrone : Nat := 0
  running : Option Nat := none
  until_ : Nat := 0
  clearAfter : Bool := false
  empty : Bool := false
  deriving DecidableEq, Repr

/-- A die's logic self-test controller (R405): the cluster (16 × region + cluster) under test or tested last, the 64-bit pattern generator,
the patterns applied, the nine 64-bit signature registers, and whether the array test has found a failing bit. -/
structure LogicCtl where
  cluster : Nat := 0
  gen : Nat := 0
  patterns : Nat := 0
  sigs : List Nat := List.replicate 9 0
  arrayBad : Bool := false
  deriving DecidableEq, Repr

/-- Self-test and upkeep (R405–R417). By region: the next granule of background memory test, whether a write has reached the granule
in hand, and until when its stack is retrained. `portRecal` is when each port was last recalibrated, `nextPort` the port + 1 that Drone
recalibrates by the timer. `logic`: the dies' logic test controllers. -/
structure Test where
  reqs : List Bist := []
  nextId : Nat := 0
  log : Tab (List Byte) := []
  memLog : Tab (List Byte) := []
  memSeq : Nat := 0
  granule : Tab Nat := []
  touched : Tab Nat := []
  portRecal : Tab Nat := []
  nextPort : Nat := 0
  dramRecal : Tab Nat := []
  logic : Tab LogicCtl := []
  deriving DecidableEq, Repr

/-- A line key at one end (R432–R439); a slot numbers a port (0–95) or an edge peer (256 + node). The parity that
makes an index an EPOCH bit, by direction; frames sent under the sending key by interface; since when it is in use; the receiving
key, the one before it, and when the first frame under the newer one came; security words seen under both; indexes and times of tag
failures; an UPDATE under way and when it is sent again; whether the hard limit was posted. Of a handshake: its stage (0 none, 1 the
initiator reads the peer's key, 2 INIT sent, 3 the responder reads the initiator's key), seed, INIT bytes, the peer's public key,
an INIT that waits for its check, and the frame that it came in; whether one is to begin that could not be sent. Since when the node of an
edge key counts as held for want of it (R432, R438). -/
structure LineKey where
  master : List Byte := []
  sendIdx : Nat := 0
  sendBase : Nat := 0
  sendCounts : Tab Nat := []
  since : Nat := 0
  recvIdx : Nat := 0
  recvBase : Nat := 0
  recvOld : Option Nat := none
  oldFirst : Option Nat := none
  window : List Nat := []
  oldWindow : List Nat := []
  fails : List (Nat × Nat) := []
  updating : Bool := false
  retryAt : Option Nat := none
  limitPosted : Bool := false
  hs : Nat := 0
  hsSeed : Nat := 0
  hsMsg : List Byte := []
  peerPub : List Byte := []
  hsWait : Option KexMsg := none
  hsFrame : Option (Frame × Via) := none
  established : Bool := false
  want : Bool := false
  gone : Option Nat := none
  deriving DecidableEq, Repr

/-- Security (R424–R443). -/
structure Security where
  keys : Tab LineKey := []
  attest : Option (List Byte × Nat) := none
  mismatchAt : Option Nat := none
  disabled : Bool := false
  txTime : Tab Nat := []
  timingSeen : Tab (List Byte) := []
  deriving DecidableEq, Repr

/-- The debug connector (R455, R456). -/
structure Tap where
  ir : Nat := 1
  bypass : Bool := false
  boundary : List Bool := []
  drive : Bool := false
  deriving DecidableEq, Repr

/-- The calibration values in force (R418): the set that they come from, its sensor trims and energy coefficients (loaded at a cold start),
port equalisation (cold and warm start, die reset) and DRAM timing (cold start, die reset). -/
structure CalInForce where
  image : List Byte := []
  trims : List Int := []
  energy : List Nat := []
  portEq : List Nat := []
  dramTiming : List Nat := []
  deriving DecidableEq, Repr

/-- Everything but the command queue and module time. `free` is the model's own use counter of free values; `out`
holds what the last command sent; `lastStatus` is the status answered to the last control write. -/
structure Module where
  nums : Tab Nat := []
  blobs : Tab (List Byte) := []
  staging : Tab GroupSt := []
  heldAccess : List HeldAccess := []
  nextHeld : Nat := 0
  regions : Tab Region := []
  ctxGen : Tab Nat := []
  ports : Tab PortSt := []
  edges : Tab EdgeSt := []
  fabric : Fabric := {}
  bridge : Bridge := {}
  drone : Drone := {}
  chanter : Chanter := {}
  stageqs : Tab StageQ := []
  cycles : List Cycle := []
  resets : List ResetSt := []
  env : Env := {}
  flash : Flash := {}
  bellows : Bellows := {}
  cal : CalInForce := {}
  cuts : Cuts := {}
  test : Test := {}
  security : Security := {}
  tap : Tap := {}
  norm : Tab Nat := []
  timers : Tab Nat := []
  out : List Emit := []
  lastStatus : Nat := 0
  free : Nat := 0
  deriving DecidableEq, Repr

/-- The state: the waiting commands, first in first out; module time in ns (R2); the module. -/
structure State where
  pending : List Instr := []
  time : Nat := 0
  mod : Module := {}
  deriving DecidableEq, Repr

/-- The one fault of a step. -/
inductive Fault where
  /-- A command names a part that the module does not have (a region above 15, a cluster above 15, a port above 95
  and so on): raised by every meaning whose operand numbers a part. Safe: the module has no such part, so nothing
  can act on it. -/
  | noSuchPart
  deriving DecidableEq, Repr

/-- Why a command is refused. -/
inductive Refusal where
  /-- A command without a meaning in this model, by its mnemonic. Safe: nothing is claimed of it. -/
  | notModelled (mnemonic : String)
  deriving DecidableEq, Repr

/-- Numeric dictionary entries that do not default to 0, in key order (the Default columns). -/
def resetNums : Tab Nat :=
  (dictRows.flatMap (fun r =>
    if r.dflt = 0 then []
    else (List.range (r.hi + 1 - r.lo)).map (fun i => (dkey r.idx (r.lo + i), r.dflt)))).foldl
    (fun t p => Tab.put t p.1 p.2) [(kSTALE_W, 0x3F800000), (kSTALE_W + 1, 0x3F000000), (kSTALE_W + 2, 0x3E800000)]

/-- Right after reset: no input power has been applied, Drone has not booted, every entry reads its default (log
entry 2 names the values that the spec does not give); flash is as the module ships (R461). -/
def State.reset : State :=
  { pending := [], time := 0,
    mod := { nums := resetNums, flash := { image0 := some Config.factoryImage, image1 := some Config.factoryImage, cal := some Config.factoryCal } } }

end Sys2Proof.Machine
end

