-- ==== Sys2Proof/Machine/Ops.lean ====
section
/-! DEFINITION. The shared operations on the module: the three forms of a meaning, dictionary values, parts,
counters, posted events (R311, R390–R392), and statuses. -/

namespace Sys2Proof.Machine

/-! ### Forms of a meaning -/

/-- A command whose effect falls at the present module time, whether Drone runs or not. -/
def State.always (s : State) (f : Nat → Module → Module) : Host.Outcome State Fault Refusal :=
  .next { s with mod := f s.time { s.mod with out := [] } }

/-- A command whose effect falls at the present module time. A module whose Drone has not booted takes none (R374). -/
def State.does (s : State) (f : Nat → Module → Module) : Host.Outcome State Fault Refusal :=
  s.always (fun now m => if m.env.droneUp then f now m else m)

/-- A command that is the moment d, or a later one: module time moves on to d (log entry 5). -/
def State.doesAt (s : State) (d : Nat) (f : Nat → Module → Module) : Host.Outcome State Fault Refusal :=
  if s.mod.env.droneUp then .next { s with time := max s.time d, mod := f (max s.time d) { s.mod with out := [] } }
  else .next { s with mod := { s.mod with out := [] } }

/-- A command that stands for the moment d when its condition holds, and for nothing otherwise (log entry 5). -/
def State.doesWhen (s : State) (c : Bool) (d : Nat) (f : Nat → Module → Module) : Host.Outcome State Fault Refusal :=
  s.doesAt (if c then d else 0) (fun now m => if c then f now m else m)

/-- A command whose operands must number parts that the module has. -/
def guarded (ok : Bool) (o : Host.Outcome State Fault Refusal) : Host.Outcome State Fault Refusal :=
  if ok then o else .fault .noSuchPart

/-! ### Access -/

def ms : Nat := 1000000
def us : Nat := 1000
def sec : Nat := 1000000000

def Module.num (m : Module) (k : Nat) : Nat := Tab.get 0 m.nums k
def Module.setNum (m : Module) (k v : Nat) : Module := { m with nums := Tab.set 0 m.nums k v }
def Module.bump (m : Module) (k n : Nat) : Module := m.setNum k (m.num k + n)
def Module.blob (m : Module) (k : Nat) : List Byte := Tab.get [] m.blobs k
def Module.setBlob (m : Module) (k : Nat) (v : List Byte) : Module := { m with blobs := Tab.set [] m.blobs k v }
def Module.status (m : Module) (st : Nat) : Module := { m with lastStatus := st }
def Module.emit (m : Module) (e : Emit) : Module := { m with out := m.out ++ [e] }
def Module.useFree (m : Module) : Module := { m with free := m.free + 1 }

def Module.rg (m : Module) (r : Nat) : Region := Tab.get {} m.regions r
def Module.setR (m : Module) (r : Nat) (g : Region) : Module := { m with regions := Tab.put m.regions r g }
def Module.modR (m : Module) (r : Nat) (f : Region → Region) : Module := m.setR r (f (m.rg r))
def Module.work (m : Module) (r : Nat) : Work := (m.rg r).work
def Module.modWork (m : Module) (r : Nat) (f : Work → Work) : Module := m.modR r (fun g => { g with work := f g.work })
def Module.modStack (m : Module) (r : Nat) (f : Stack → Stack) : Module := m.modR r (fun g => { g with stack := f g.stack })
def Module.modTrain (m : Module) (r : Nat) (f : Train → Train) : Module := m.modR r (fun g => { g with train := f g.train })
def Module.modTier (m : Module) (r : Nat) (f : Tier → Tier) : Module := m.modR r (fun g => { g with tier := f g.tier })
def Module.modXch (m : Module) (r : Nat) (f : Xch → Xch) : Module := m.modR r (fun g => { g with xch := f g.xch })
def Module.modCut (m : Module) (r : Nat) (f : RCut → RCut) : Module := m.modR r (fun g => { g with cut := f g.cut })
def Module.modPower (m : Module) (r : Nat) (f : Power → Power) : Module := m.modR r (fun g => { g with power := f g.power })

def Region.cl (g : Region) (c : Nat) : Cluster := Tab.get {} g.clusters c
def Region.setCl (g : Region) (c : Nat) (x : Cluster) : Region := { g with clusters := Tab.put g.clusters c x }
def Module.cl (m : Module) (r c : Nat) : Cluster := (m.rg r).cl c
def Module.modCl (m : Module) (r c : Nat) (f : Cluster → Cluster) : Module :=
  m.modR r (fun g => g.setCl c (f (g.cl c)))
def Cluster.un (x : Cluster) (u : Nat) : UnitSt := Tab.get {} x.units u
def Cluster.setUn (x : Cluster) (u : Nat) (v : UnitSt) : Cluster := { x with units := Tab.put x.units u v }
def Module.un (m : Module) (r c u : Nat) : UnitSt := (m.cl r c).un u
def Module.modUn (m : Module) (r c u : Nat) (f : UnitSt → UnitSt) : Module :=
  m.modCl r c (fun x => x.setUn u (f (x.un u)))

def Module.port (m : Module) (p : Nat) : PortSt := Tab.get {} m.ports p
def Module.modPort (m : Module) (p : Nat) (f : PortSt → PortSt) : Module :=
  { m with ports := Tab.put m.ports p (f (m.port p)) }
def Module.edge (m : Module) (e : Nat) : EdgeSt := Tab.get {} m.edges e
def Module.modEdge (m : Module) (e : Nat) (f : EdgeSt → EdgeSt) : Module :=
  { m with edges := Tab.put m.edges e (f (m.edge e)) }
def Module.ring (m : Module) (i : Nat) : RingSt := Tab.get {} m.bridge.rings i
def Module.modRing (m : Module) (i : Nat) (f : RingSt → RingSt) : Module :=
  { m with bridge := { m.bridge with rings := Tab.put m.bridge.rings i (f (m.ring i)) } }
def Module.sq (m : Module) (i : Nat) : StageQ := Tab.get {} m.stageqs i
def Module.modSq (m : Module) (i : Nat) (f : StageQ → StageQ) : Module :=
  { m with stageqs := Tab.put m.stageqs i (f (m.sq i)) }
def Module.modEnv (m : Module) (f : Env → Env) : Module := { m with env := f m.env }
def Module.modFlash (m : Module) (f : Flash → Flash) : Module := { m with flash := f m.flash }
def Module.modFab (m : Module) (f : Fabric → Fabric) : Module := { m with fabric := f m.fabric }
def Module.modDrone (m : Module) (f : Drone → Drone) : Module := { m with drone := f m.drone }
/-- A round or alignment parameter: a commit acts from the next round boundary (R382). -/
def Module.roundNum (m : Module) (k : Nat) : Nat := (Tab.find? m.chanter.params k).getD (m.num k)
def Module.modCh (m : Module) (f : Chanter → Chanter) : Module := { m with chanter := f m.chanter }
def Module.modBel (m : Module) (f : Bellows → Bellows) : Module := { m with bellows := f m.bellows }
def Module.modCuts (m : Module) (f : Cuts → Cuts) : Module := { m with cuts := f m.cuts }
def Module.modTest (m : Module) (f : Test → Test) : Module := { m with test := f m.test }
def Module.modSec (m : Module) (f : Security → Security) : Module := { m with security := f m.security }
def Module.setTimer (m : Module) (k t : Nat) : Module := { m with timers := Tab.set 0 m.timers k t }
def Module.timer (m : Module) (k : Nat) : Nat := Tab.get 0 m.timers k

/-! ### Names of parts -/

def okR (r : Nat) : Bool := decide (r < 16)
def okC (c : Nat) : Bool := decide (c < 16)
def okQ (q : Nat) : Bool := decide (q < 64)
def okP (p : Nat) : Bool := decide (p < 96)
def okE (e : Nat) : Bool := decide (e < 4)
def okRing (i : Nat) : Bool := decide (i < 256)

/-- Region GEN (R99, R393). -/
def Module.gen (m : Module) (r : Nat) : Nat := m.num (kREGION_GEN + r)
def Module.dieGen (m : Module) (d : Nat) : Nat := m.num (kDIE_GEN + d)
/-- CTX_GEN: a cold start sets it to 1, which is also what an unlisted entry reads (R393, R404). -/
def Module.cgen (m : Module) (r c : Nat) : Nat := Tab.get 1 m.ctxGen (8 * r + c)
def Module.node (m : Module) : Nat := m.num kNODE_ID
/-- MODULE_STATE (R374): 0 STARTING, 1 CONFIG, 2 RUN, 3 FAILED. -/
def Module.mstate (m : Module) : Nat := m.num kMODULE_STATE
def Module.inRun (m : Module) : Bool := decide (m.mstate = 2)
/-- REGION_FSTATE (R404): 0 enabled, 1 draining, 2 recovering, 3 disabled, 4 lost. -/
def Module.fstate (m : Module) (r : Nat) : Nat := m.num (kREGION_FSTATE + r)

/-- Is a reset of a domain that holds this region running (R398)? -/
def ResetSt.covers (x : ResetSt) (r : Nat) : Bool :=
  match x.dom with
  | .region r' => r' == r
  | .die d => d == r / 4
  | .warm => true
  | .cold => true

def Module.inReset (m : Module) (r : Nat) : Bool := m.resets.any (fun x => x.covers r)
def Module.dieInReset (m : Module) (d : Nat) : Bool :=
  m.resets.any (fun x => match x.dom with | .region _ => false | .die d' => d' == d | _ => true)

/-- Is a function in the disable cycle (R395)? -/
def Module.cycling (m : Module) (f : Func) : Bool := m.cycles.any (fun x => x.func == f)

/-- Work for a region whose PLL is stopped restarts it: it runs again 40 µs later (R339). -/
def wakePll (now r : Nat) (m : Module) : Module :=
  let p := (m.rg r).power
  if p.pllOff ∧ p.pllWake = none then m.modPower r (fun p => { p with pllWake := some (now + 40000) }) else m

/-! ### Events -/

/-- SOURCE of a region controller block (R277, R311). -/
def srcRegion (r : Nat) : Nat := (0x010 + r) * 2 ^ 16 + r
def srcCluster (r c : Nat) : Nat := (0x100 + 16 * r + c) * 2 ^ 16 + c * 256 + r
def srcDie (d : Nat) : Nat := (0x020 + d) * 2 ^ 16 + d
def srcPort (p : Nat) : Nat := (0x200 + p) * 2 ^ 16 + p
def srcControl : Nat := 0
def srcDrone : Nat := 0x001 * 2 ^ 16
def srcBellows : Nat := 0x002 * 2 ^ 16
def srcChanter : Nat := 0x004 * 2 ^ 16
def srcBridge : Nat := 0x300 * 2 ^ 16

/-- Port 47,210 of the field network (R300). -/
def fieldPort : Nat := 47210

/-- Destination entries TELEM_DEST and EVENT_DEST: ff02::1 and port 47,210 by default (R315). -/
def destDefault : List Byte := [0xFF, 0x02] ++ zeros 13 ++ [0x01] ++ leBytes 2 fieldPort
def Module.dest (m : Module) (k : Nat) : List Byte := if m.blob k = [] then destDefault else m.blob k

/-- Is the event's code marked fatal (R392)? "port failed" is fatal by its own condition, which its poster passes. -/
def fatalCode (cls code : Nat) : Bool :=
  (cls, code) = (7, 6) || (cls, code) = (9, 4) || (cls, code) = (11, 3)

/-- The 32 B record of an event (R311). -/
def eventRecord (seq cls code now src : Nat) (detail : List Byte) : List Byte :=
  leBytes 4 seq ++ leBytes 2 cls ++ leBytes 2 code ++ leBytes 8 now ++ leBytes 4 src ++ fitB 12 detail

/-- Post an event: the limit of one record per millisecond and combination, EVENT_SEQ, EVENT_LOG, the message to
EVENT_DEST, the alert line (R311, R390, R391). While Drone does not run, nothing is posted (R374). -/
def postF (fatal : Bool) (now cls code src : Nat) (detail : List Byte) (m : Module) : Module :=
  if !m.env.droneUp then m
  else
    let m := if fatal then m.modEnv (fun e => { e with alertN := false }) else m
    let key := (cls * 2 ^ 16 + code) * 2 ^ 32 + src
    match Tab.find? m.drone.lastEvent key with
    | some t =>
      if now < t + ms then m.bump kEVENTS_MERGED 1 else record m key
    | none => record m key
where
  record (m : Module) (key : Nat) : Module :=
    let seq := (m.num kEVENT_SEQ + 1) % 2 ^ 32
    let rec_ := eventRecord seq cls code now src detail
    let dst := m.dest kEVENT_DEST
    let msg : DictMsg := { ver := 1, kind := 4, op := 0, flags := 0, seq := seq % 2 ^ 16, index := 0, sub := 0, status := 0, len := 32, offset := 0, time := 0, data := rec_ }
    ((m.setNum kEVENT_SEQ seq).bump kEVENTS_SENT 1).modDrone (fun d =>
      { d with lastEvent := Tab.put d.lastEvent key now
               eventLog := Tab.put d.eventLog (seq % 256) rec_
               outbox := d.outbox ++ [(dst.take 16, leAt dst 16 2, msg)] })

def post (now cls code src : Nat) (detail : List Byte) (m : Module) : Module :=
  postF (fatalCode cls code) now cls code src detail m

/-! ### Sync counters -/

/-- A sync counter's value (R82). -/
def Work.counter (w : Work) (k : Nat) : Nat := Tab.get 0 w.sync k

/-- A wait is satisfied when (c − v) mod 65,536 < 32,768 (R82); identifier 0xFF waits for nothing. -/
def Work.waitOk (w : Work) (id v : Nat) : Bool :=
  decide (id = 255) || decide ((w.counter id + 65536 - v % 65536) % 65536 < 32768)

def Work.addCounter (w : Work) (k n : Nat) : Work :=
  if k < 255 then { w with sync := Tab.set 0 w.sync k ((w.counter k + n) % 65536) } else w

def Work.setCounter (w : Work) (k v : Nat) : Work :=
  if k < 255 then { w with sync := Tab.set 0 w.sync k (v % 65536) } else w

/-- SERIAL: 12 digits and capital letters (R315). -/
def serialBytes : List Byte := (fitB 12 Config.serial).map serialChar

end Sys2Proof.Machine
end

