-- ==== Sys2Proof/Machine/Flags.lean ====
section
/-! DEFINITION. The sticky flag registers of the module (R47, R63, R64) and their summaries (R65). -/

namespace Sys2Proof.Machine

/-- The four flags (R47). -/
def flagBits (v : Nat) : Nat := v % 16

/-- A write to a flag register clears the bits written as 1 (R64). -/
def clearFlags (flags v : Nat) : Nat := flagBits flags &&& (15 - flagBits v)

/-- Change every flag register of a cluster. -/
def Cluster.mapFlags (f : Nat → Nat) (x : Cluster) : Cluster :=
  { x with convFlags := f x.convFlags, units := x.units.map (fun u => (u.1, { u.2 with flags := f u.2.flags })) }

/-- Change every flag register of a region. -/
def Region.mapFlags (f : Nat → Nat) (g : Region) : Region :=
  { g with clusters := g.clusters.map (fun c => (c.1, c.2.mapFlags f)), train := { g.train with ulaneFlags := f g.train.ulaneFlags } }

/-- Change every flag register of the module: units, conversion stages, update lanes and collective engine. -/
def Module.mapFlags (f : Nat → Nat) (m : Module) : Module :=
  { m with regions := m.regions.map (fun r => (r.1, r.2.mapFlags f))
           fabric := { m.fabric with collFlags := m.fabric.collFlags.map (fun d => (d.1, f d.2)) } }

/-- The OR of a cluster's flags. -/
def Cluster.flagsOr (x : Cluster) : Nat := x.units.foldl (fun a u => a ||| u.2.flags) x.convFlags

/-- The OR of a region's flags. -/
def Region.flagsOr (g : Region) : Nat := g.clusters.foldl (fun a c => a ||| c.2.flagsOr) g.train.ulaneFlags

/-- FLAGS_OR and FLAGS_REGIONS as Drone computes them (R65). -/
def refreshFlags (m : Module) : Module :=
  let all := (m.regions.foldl (fun a r => a ||| r.2.flagsOr) 0) ||| (m.fabric.collFlags.foldl (fun a d => a ||| d.2) 0)
  let rs := (List.range 16).filter (fun r => (m.rg r).flagsOr ≠ 0)
  (m.setNum kFLAGS_OR all).setNum kFLAGS_REGIONS (maskOf rs)

/-- FLAGS_CLEAR (R65): the selected bits are cleared in every flag register, and FLAGS_OR is computed again. -/
def flagsClear (v : Nat) (m : Module) : Module := refreshFlags (m.mapFlags (fun x => clearFlags x v))

/-- FLAGS_CLEAR (R65). -/
def execFlagsClear (v : Nat) (s : State) : Host.Outcome State Fault Refusal :=
  s.does (fun _ m => (flagsClear v m).status 0)

/-- A flag register's value, by block and by offset within its window, with the aliases of its group (R63, R278). -/
inductive FlagReg where
  | unit (r c u : Nat)
  | conv (r c : Nat)
  | ulane (r : Nat)
  | coll (d : Nat)
  deriving DecidableEq, Repr

def flagRegAt (block off : Nat) : Option FlagReg :=
  if 0x100 ≤ block ∧ block < 0x200 then
    let r := (block - 0x100) / 16
    let c := block % 16
    if 0x1000 ≤ off ∧ off < 0x1800 ∧ off % 32 < 8 then some (.unit r c ((off - 0x1000) / 256))
    else if 0x0800 ≤ off ∧ off < 0x0900 ∧ off % 32 < 8 then some (.conv r c)
    else none
  else if 0x010 ≤ block ∧ block < 0x020 then
    if 0x0400 ≤ off ∧ off < 0x0500 ∧ off % 32 < 8 then some (.ulane (block - 0x010)) else none
  else if 0x020 ≤ block ∧ block < 0x024 then
    if 0x0100 ≤ off ∧ off < 0x0200 ∧ off % 32 < 8 then some (.coll (block - 0x020)) else none
  else none

def FlagReg.read (m : Module) : FlagReg → Nat
  | .unit r c u => (m.un r c u).flags
  | .conv r c => (m.cl r c).convFlags
  | .ulane r => (m.rg r).train.ulaneFlags
  | .coll d => Tab.get 0 m.fabric.collFlags d

def FlagReg.clear (v : Nat) (m : Module) : FlagReg → Module
  | .unit r c u => m.modUn r c u (fun x => { x with flags := clearFlags x.flags v })
  | .conv r c => m.modCl r c (fun x => { x with convFlags := clearFlags x.convFlags v })
  | .ulane r => m.modTrain r (fun t => { t with ulaneFlags := clearFlags t.ulaneFlags v })
  | .coll d => m.modFab (fun x => { x with collFlags := Tab.put x.collFlags d (clearFlags (Tab.get 0 x.collFlags d) v) })

/-- FLAG_REGISTER_CLEAR (R64): a write to a flag register; one to another register is none of these. -/
def execFlagRegisterClear (block offset v : Nat) (s : State) : Host.Outcome State Fault Refusal :=
  s.does (fun _ m => match flagRegAt block offset with
    | some x => if offset % 8 = 0 then (x.clear v m).status 0 else m.status 0
    | none => m.status 2)

end Sys2Proof.Machine
end

