-- ==== Sys2Proof/Machine/Float.lean ====
section
/-! DEFINITION. Number formats and the one rounding of every operation (R26, R28, R50, R53–R57). A value
between two roundings is held exactly, as (−1)^neg · m · 2^e. -/

namespace Sys2Proof.Machine

/-- An exact value, an infinity or a NaN. Zero is m = 0 and keeps its sign. -/
inductive FV where
  | nan
  | inf (neg : Bool)
  | num (neg : Bool) (m : Nat) (e : Int)
  deriving DecidableEq, Repr

/-- How a format spends its largest exponent field (R50). -/
inductive FKind where
  | ieee
  | e4m3
  | finite
  | int
  deriving DecidableEq, Repr

/-- A number format (R50). For an integer format `ebits` is its width. -/
structure Fmt where
  kind : FKind
  ebits : Nat
  mbits : Nat
  bias : Nat
  width : Nat
  deriving DecidableEq, Repr

def fp32 : Fmt := ⟨.ieee, 8, 23, 127, 32⟩
def bf16 : Fmt := ⟨.ieee, 8, 7, 127, 16⟩
def fp16 : Fmt := ⟨.ieee, 5, 10, 15, 16⟩
def e4m3 : Fmt := ⟨.e4m3, 4, 3, 7, 8⟩
def e5m2 : Fmt := ⟨.ieee, 5, 2, 15, 8⟩
def e3m2 : Fmt := ⟨.finite, 3, 2, 3, 6⟩
def e2m3 : Fmt := ⟨.finite, 2, 3, 1, 6⟩
def e2m1 : Fmt := ⟨.finite, 2, 1, 1, 4⟩
def int8 : Fmt := ⟨.int, 8, 0, 0, 8⟩
def int32 : Fmt := ⟨.int, 32, 0, 0, 32⟩
def fp64 : Fmt := ⟨.ieee, 11, 52, 1023, 64⟩

/-- The format of a format code (R19); codes 0xA–0xF are reserved. -/
def fmtOf : Nat → Option Fmt
  | 0 => some fp32
  | 1 => some bf16
  | 2 => some fp16
  | 3 => some e4m3
  | 4 => some e5m2
  | 5 => some e3m2
  | 6 => some e2m3
  | 7 => some e2m1
  | 8 => some int8
  | 9 => some int32
  | _ => none

def fINVALID : Flags := 8
def fINEXACT : Flags := 4
def fUNDERFLOW : Flags := 2
def fOVERFLOW : Flags := 1

/-- A value with the flags that computing it raised. -/
abbrev FR := FV × Flags

/-- Bits in a number's binary form. -/
def bitLen (n : Nat) : Nat := if n = 0 then 0 else n.log2 + 1

/-- The largest exponent field that a finite value carries, and the largest mantissa under it (R50). -/
def Fmt.maxE (f : Fmt) : Nat :=
  match f.kind with
  | .ieee => 2 ^ f.ebits - 2
  | _ => 2 ^ f.ebits - 1

def Fmt.maxM (f : Fmt) : Nat :=
  match f.kind with
  | .e4m3 => 2 ^ f.mbits - 2
  | _ => 2 ^ f.mbits - 1

/-- Max finite of a format, as a mantissa and an exponent (R50). -/
def Fmt.maxFin (f : Fmt) (neg : Bool) : Nat × Int :=
  match f.kind with
  | .int => (if neg then 2 ^ (f.ebits - 1) else 2 ^ (f.ebits - 1) - 1, 0)
  | _ => (2 ^ f.mbits + f.maxM, (f.maxE : Int) - f.bias - f.mbits)

/-- Read an element of a format, a subnormal as zero of its sign (R50, R53). -/
def decodeFmt (f : Fmt) (x : Nat) : FV :=
  match f.kind with
  | .int =>
    let v := x % 2 ^ f.ebits
    if v < 2 ^ (f.ebits - 1) then .num false v 0 else .num true (2 ^ f.ebits - v) 0
  | k =>
    let m := x % 2 ^ f.mbits
    let ex := (x >>> f.mbits) % 2 ^ f.ebits
    let neg := x.testBit (f.mbits + f.ebits)
    if ex = 0 then .num neg 0 0
    else if k = .ieee ∧ ex = 2 ^ f.ebits - 1 then (if m = 0 then .inf neg else .nan)
    else if k = .e4m3 ∧ ex = 15 ∧ m = 7 then .nan
    else .num neg (2 ^ f.mbits + m) ((ex : Int) - f.bias - f.mbits)

/-- m·2^e at or below m'·2^e'. -/
def dyLe (m : Nat) (e : Int) (m' : Nat) (e' : Int) : Bool :=
  if e ≤ e' then decide (m ≤ m' * 2 ^ (e' - e).toNat) else decide (m * 2 ^ (e - e').toNat ≤ m')

/-- m·2^e as an integer, when it is one (used for values already rounded to an integer). -/
def dyNat (m : Nat) (e : Int) : Nat := if 0 ≤ e then m * 2 ^ e.toNat else m / 2 ^ (-e).toNat

/-- floor(log₂) of m·2^e for m > 0. -/
def dyExp (m : Nat) (e : Int) : Int := e + (m.log2 : Int)

/-- Round m·2^e, plus a little more when `sticky`, to p significant bits: to nearest even, or by R28 with the
number r. The exponent range is unlimited (R54, R57). Answers the rounded mantissa and exponent and whether
rounding changed the value. -/
def roundSig (p m : Nat) (e : Int) (sticky : Bool) (r : Option Nat) : Nat × Int × Bool :=
  let n := bitLen m
  if n ≤ p ∧ !sticky then (m, e, false)
  else
    let up := p + 2 - n                    -- room for the sticky bit of a short quotient
    let m := m * 2 ^ up
    let e := e - (up : Int)
    let sh := bitLen m - p
    let q := m >>> sh
    let rem := m % 2 ^ sh
    let e' := e + (sh : Int)
    match r with
    | none =>
      let twice := 2 * rem
      let half := 2 ^ sh
      let inc := decide (half < twice) || (decide (twice = half) && (sticky || q.testBit 0))
      (if inc then q + 1 else q, e', !(decide (rem = 0)) || sticky)
    | some r =>
      if rem = 0 ∧ !sticky then (q, e', false)
      else
        let f := (rem * 2 ^ 24) >>> sh
        (if 2 ^ 24 ≤ f + r then q + 1 else q, e', true)

/-- Round m·2^e to an integer, to nearest even (R56). -/
def roundInt (m : Nat) (e : Int) : Nat × Bool :=
  if 0 ≤ e then (m * 2 ^ e.toNat, false)
  else
    let sh := (-e).toNat
    let q := m >>> sh
    let rem := m % 2 ^ sh
    let half := 2 ^ sh
    let inc := decide (half < 2 * rem) || (decide (2 * rem = half) && q.testBit 0)
    (if inc then q + 1 else q, !(decide (rem = 0)))

/-- The result of a finite overflow in a format (R56). -/
def overflowOf (f : Fmt) (neg : Bool) : FR :=
  match f.kind, decide (f.mbits ≥ 7) with
  | .ieee, true => (.inf neg, fOVERFLOW ||| fINEXACT)
  | _, _ => (.num neg (f.maxFin neg).1 (f.maxFin neg).2, fOVERFLOW ||| fINEXACT)

/-- Round an exact finite value once into a format: overflow by R56, then flushing by R54. An integer format rounds to nearest even
(R56), with ORND = 1 too (DESIGN CHOICE, log entry 153). -/
def roundFin (f : Fmt) (neg : Bool) (m : Nat) (e : Int) (sticky : Bool) (r : Option Nat) : FR :=
  match f.kind with
  | .int =>
    let (q, ix) := roundInt m e
    if q ≤ (f.maxFin neg).1 then (.num (neg && decide (q ≠ 0)) q 0, if ix then fINEXACT else 0)
    else overflowOf f neg
  | _ =>
    if m = 0 ∧ !sticky then (.num neg 0 0, 0)
    else
      let (q, e', ix) := roundSig (f.mbits + 1) m e sticky r
      let fl : Flags := if ix then fINEXACT else 0
      if !(dyLe q e' (f.maxFin neg).1 (f.maxFin neg).2) then overflowOf f neg
      else if dyExp q e' < 1 - (f.bias : Int) then (.num neg 0 0, fUNDERFLOW ||| fINEXACT)
      else (.num neg q e', fl)

/-- Convert a value into a format with one rounding (R55, R56). -/
def convert (f : Fmt) (r : Option Nat) : FV → FR
  | .nan =>
    match f.kind with
    | .ieee => (.nan, fINVALID)
    | .e4m3 => (.nan, fINVALID)
    | _ => (.num false 0 0, fINVALID)
  | .inf neg =>
    match f.kind with
    | .ieee => (.inf neg, 0)
    | _ => (.num neg (f.maxFin neg).1 (f.maxFin neg).2, fOVERFLOW)
  | .num neg m e => roundFin f neg m e false r

/-- The code of a value that the format represents exactly; NaN codes are canonical (R50). -/
def encodeFmt (f : Fmt) : FV → Nat
  | .nan =>
    match f.kind with
    | .ieee => (2 ^ f.ebits - 1) * 2 ^ f.mbits + 2 ^ (f.mbits - 1)
    | .e4m3 => 0x7F
    | _ => 0
  | .inf neg => (2 ^ f.ebits - 1) * 2 ^ f.mbits + (if neg then 2 ^ (f.mbits + f.ebits) else 0)
  | .num neg m e =>
    match f.kind with
    | .int => if neg then (2 ^ f.ebits - dyNat m e) % 2 ^ f.ebits else dyNat m e
    | _ =>
      let s := if neg then 2 ^ (f.mbits + f.ebits) else 0
      if m = 0 then s
      else
        let ex := dyExp m e
        let q := if e ≤ ex - f.mbits then m >>> (ex - f.mbits - e).toNat else m * 2 ^ (e - (ex - f.mbits)).toNat
        s + (ex + f.bias).toNat * 2 ^ f.mbits + q % 2 ^ f.mbits

/-- Convert and encode. -/
def convertCode (f : Fmt) (r : Option Nat) (v : FV) : Nat × Flags :=
  let (x, fl) := convert f r v
  (encodeFmt f x, fl)

/-- An FP32 pattern as a value. -/
def f32 (w : Nat) : FV := decodeFmt fp32 w

/-- The FP32 pattern of a value. -/
def toF32 (v : FV) : Nat := encodeFmt fp32 v

def fvZero : FV := .num false 0 0
def fvOne : FV := .num false 1 0

def FV.isZero : FV → Bool
  | .num _ m _ => decide (m = 0)
  | _ => false

def FV.isFinite : FV → Bool
  | .num _ _ _ => true
  | _ => false

def FV.isNan : FV → Bool
  | .nan => true
  | _ => false

def FV.neg? : FV → Bool
  | .num n _ _ => n
  | .inf n => n
  | .nan => false

def FV.negate : FV → FV
  | .num n m e => .num (!n) m e
  | .inf n => .inf (!n)
  | .nan => .nan

def FV.abs : FV → FV
  | .num _ m e => .num false m e
  | .inf _ => .inf false
  | .nan => .nan

/-- The signed mantissa of a finite value at exponent e', which is at or below its own. -/
def FV.at (v : FV) (e' : Int) : Int :=
  match v with
  | .num n m e => (if n then -1 else 1) * ((m * 2 ^ (e - e').toNat : Nat) : Int)
  | _ => 0

def FV.exp : FV → Int
  | .num _ m e => if m = 0 then 0 else e
  | _ => 0

/-- Exact sum of two finite values; a zero sum is +0 unless both are −0. -/
def exactAdd (a b : FV) : FV :=
  match a, b with
  | .num n1 m1 e1, .num n2 m2 e2 =>
    if m1 = 0 ∧ m2 = 0 then .num (n1 && n2) 0 0
    else if m1 = 0 then .num n2 m2 e2
    else if m2 = 0 then .num n1 m1 e1
    else
      let e := min e1 e2
      let s := a.at e + b.at e
      .num (decide (s < 0)) s.natAbs e
  | _, _ => .nan

/-- Exact product of two finite values. -/
def exactMul (a b : FV) : FV :=
  match a, b with
  | .num n1 m1 e1, .num n2 m2 e2 => .num (n1 != n2) (m1 * m2) (if m1 * m2 = 0 then 0 else e1 + e2)
  | _, _ => .nan

/-- Multiply by a power of two, exactly. -/
def FV.scale (v : FV) (k : Int) : FV :=
  match v with
  | .num n m e => .num n m (if m = 0 then 0 else e + k)
  | v => v

def invalidNan : FR := (.nan, fINVALID)

/-- Sum before rounding, with the exceptions of R26. -/
def rawAdd (a b : FV) : FR :=
  match a, b with
  | .nan, _ => invalidNan
  | _, .nan => invalidNan
  | .inf n, .inf n' => if n = n' then (.inf n, 0) else invalidNan
  | .inf n, _ => (.inf n, 0)
  | _, .inf n => (.inf n, 0)
  | a, b => (exactAdd a b, 0)

/-- Product before rounding, with the exceptions of R26. -/
def rawMul (a b : FV) : FR :=
  match a, b with
  | .nan, _ => invalidNan
  | _, .nan => invalidNan
  | .inf n, b => if b.isZero then invalidNan else (.inf (n != b.neg?), 0)
  | a, .inf n => if a.isZero then invalidNan else (.inf (n != a.neg?), 0)
  | a, b => (exactMul a b, 0)

/-- Round a value to FP32, once. -/
def round32 (r : Option Nat) (x : FR) : FR :=
  match x.1 with
  | .num n m e => let (v, fl) := roundFin fp32 n m e false r; (v, x.2 ||| fl)
  | v => (v, x.2)

/-- Round a value to FP64, once, to nearest even. -/
def round64 (v : FV) : FV :=
  match v with
  | .num n m e => (roundFin fp64 n m e false none).1
  | v => v

def fAdd (a b : FV) : FR := round32 none (rawAdd a b)
def fSub (a b : FV) : FR := round32 none (rawAdd a b.negate)
def fMul (a b : FV) : FR := round32 none (rawMul a b)

/-- a × b + c with one rounding. -/
def fFma (a b c : FV) : FR :=
  let p := rawMul a b
  let s := rawAdd p.1 c
  round32 none (s.1, p.2 ||| s.2)

/-- a ≥ b for values that are not NaN; +0 and −0 are equal. -/
def FV.ge (a b : FV) : Bool :=
  match a, b with
  | .nan, _ => false
  | _, .nan => false
  | .inf false, _ => true
  | _, .inf true => true
  | .inf true, _ => false
  | _, .inf false => false
  | .num _ _ e1, .num _ _ e2 => decide (b.at (min e1 e2) ≤ a.at (min e1 e2))

def FV.gt (a b : FV) : Bool := !a.isNan && !b.isNan && !(b.ge a)

def anyNan (xs : List FV) : Bool := xs.any FV.isNan

/-- max with +0 above −0 (R40). -/
def fMax (a b : FV) : FR :=
  if anyNan [a, b] then invalidNan
  else if a.gt b then (a, 0) else if b.gt a then (b, 0)
  else (if a.neg? then b else a, 0)

/-- min with −0 below +0 (R40). -/
def fMin (a b : FV) : FR :=
  if anyNan [a, b] then invalidNan
  else if a.gt b then (b, 0) else if b.gt a then (a, 0)
  else (if a.neg? then a else b, 0)

/-- Quotient, correctly rounded, with the exceptions of R26. -/
def fDiv (a b : FV) : FR :=
  match a, b with
  | .nan, _ => invalidNan
  | _, .nan => invalidNan
  | .inf n, .inf _ => if n then invalidNan else invalidNan
  | .inf n, b => (.inf (n != b.neg?), 0)
  | a, .inf n => (.num (a.neg? != n) 0 0, 0)
  | .num n1 m1 e1, .num n2 m2 e2 =>
    if m2 = 0 then (if m1 = 0 then invalidNan else (.inf (n1 != n2), fOVERFLOW))
    else if m1 = 0 then (.num (n1 != n2) 0 0, 0)
    else
      let k := bitLen m2 + 60
      let q := (m1 * 2 ^ k) / m2
      let rem := (m1 * 2 ^ k) % m2
      roundFin fp32 (n1 != n2) q (e1 - e2 - k) (decide (rem ≠ 0)) none

/-- Integer square root by binary digits. -/
def isqrtGo : Nat → Nat → Nat → Nat
  | 0, _, r => r
  | b + 1, n, r => let t := r + 2 ^ b; isqrtGo b n (if t * t ≤ n then t else r)

def isqrt (n : Nat) : Nat := isqrtGo (bitLen n / 2 + 1) n 0

/-- Square root, correctly rounded (R168). -/
def fSqrt (a : FV) : FR :=
  match a with
  | .nan => invalidNan
  | .inf n => if n then invalidNan else (.inf false, 0)
  | .num n m e =>
    if m = 0 then (.num n 0 0, 0)
    else if n then invalidNan
    else
      let k : Nat := if (e % 2 = 0) then 120 else 121
      let x := m * 2 ^ k
      let q := isqrt x
      roundFin fp32 false q ((e - k) / 2) (decide (q * q ≠ x)) none

/-- FP32 of the exact quotient of two natural numbers, to nearest even. -/
def f32Ratio (p q : Nat) : Nat := if q = 0 then 0 else toF32 (fDiv (.num false p 0) (.num false q 0)).1

/-- FP32 of an integer count of thousandths, to nearest even (milliwatts, milli-°C, millivolts). -/
def f32Milli (x : Int) : Nat :=
  toF32 (fDiv (.num (decide (x < 0)) x.natAbs 0) (.num false 1000 0)).1

/-- x thousandths at or above an FP32 threshold, compared exactly. -/
def milliGe (x : Int) (w : Nat) : Bool :=
  FV.ge (.num (decide (x < 0)) x.natAbs 0) (exactMul (f32 w) (.num false 1000 0))

end Sys2Proof.Machine
end

