-- ==== Sys2Proof/Machine/Approx.lean ====
section
/-! DEFINITION. The functions that are allowed an error in ulp (R26, R37, R40, R168). A result is the reference
value, computed by fixed-point series, moved by a free number of ulps within the spec's bound (log entry 4). Results on zero, infinity and NaN are exact. -/

namespace Sys2Proof.Machine

/-- Fixed-point scale: 2^200. -/
def fxS : Nat := 200

/-- A finite value in fixed point, toward zero. -/
def toFx (v : FV) : Int :=
  match v with
  | .num n m e =>
    let s : Int := e + fxS
    let a : Nat := if 0 ≤ s then m * 2 ^ s.toNat else m / 2 ^ (-s).toNat
    if n then -(a : Int) else a
  | _ => 0

/-- A fixed-point number as a value. -/
def ofFx (x : Int) : FV := .num (decide (x < 0)) x.natAbs (-(fxS : Int))

def fxMul (a b : Int) : Int := (a * b) / 2 ^ fxS

/-- Σ rᵏ/k! for small |r| (fixed point). -/
def fxExpSmall (r : Int) : Int :=
  ((List.range 60).foldl (fun (a : Int × Int) k =>
    let t := fxMul a.2 r / ((k + 1 : Nat) : Int)
    (a.1 + t, t)) ((2 : Int) ^ fxS, (2 : Int) ^ fxS)).1

/-- 2·atanh(z) for |z| ≤ 1/3 (fixed point), the series of ln((1+z)/(1−z)). -/
def fxAtanh2 (z : Int) : Int :=
  let z2 := fxMul z z
  ((List.range 70).foldl (fun (a : Int × Int) k => (a.1 + 2 * a.2 / ((2 * k + 1 : Nat) : Int), fxMul a.2 z2)) (0, z)).1

/-- ln 2 (fixed point). -/
def fxLn2 : Int := fxAtanh2 ((2 : Int) ^ fxS / 3)

/-- e^x for a fixed-point x, as mantissa at scale fxS and a power of two. -/
def fxExp (x : Int) : Int × Int :=
  let k := x / fxLn2
  (fxExpSmall (x - k * fxLn2), k)

/-- ln of m·2^e for m > 0 (fixed point). -/
def fxLn (m : Nat) (e : Int) : Int :=
  let n := m.log2
  let f : Int := (m : Int) * 2 ^ fxS / 2 ^ n            -- in [1, 2)
  let one : Int := (2 : Int) ^ fxS
  fxAtanh2 ((f - one) * one / (f + one)) + (e + (n : Int)) * fxLn2

/-- An exponential's value: e^x as a mantissa and an exponent. -/
def fvExpFx (x : Int) : FV :=
  let p := fxExp x
  .num false p.1.toNat (p.2 - fxS)

/-- A free FP32 value within b ulp of the reference value: the one at or below it in magnitude, moved by 1 − b to b ulps. -/
def nearF32 (code arg b : Nat) (v : FV) : FV :=
  match v with
  | .num n m e =>
    if m = 0 then v
    else
      let d : Int := max (1 - (b : Int)) (min (b : Int) (Config.ulpError code arg))
      let u : Int := dyExp m e - 23
      let q : Int := (dyNat m (e - u) : Nat)
      .num n (max 0 (q + d)).toNat u
  | v => v

/-- Deliver an approximated result: overflow and flushing by R26, INEXACT set. -/
def deliver (v : FV) : FR :=
  match v with
  | .num n m e => let (x, fl) := roundFin fp32 n m e false none; (x, fl ||| fINEXACT)
  | v => (v, 0)

/-- Clamp a fixed-point exponent argument so that the result is far outside the FP32 range. -/
def clampFx (x : Int) : Int := max (-(300 : Int) * 2 ^ fxS) (min ((300 : Int) * 2 ^ fxS) x)

/-- e^a (codes 0x14; also the EXP of SMAX_STEP and SMAX_NORM). -/
def fExp (a : FV) : FR :=
  match a with
  | .nan => invalidNan
  | .inf n => if n then (fvZero, 0) else (.inf false, 0)
  | .num _ m _ => if m = 0 then (fvOne, 0) else deliver (nearF32 0x14 (toF32 a) 2 (fvExpFx (clampFx (toFx a))))

/-- 2^a. -/
def fExp2 (a : FV) : FR :=
  match a with
  | .nan => invalidNan
  | .inf n => if n then (fvZero, 0) else (.inf false, 0)
  | .num _ m _ => if m = 0 then (fvOne, 0) else deliver (nearF32 0x10 (toF32 a) 2 (fvExpFx (fxMul (clampFx (toFx a)) fxLn2)))

/-- log₂ a: ±0 gives −∞ and sets OVERFLOW; a negative nonzero value is invalid (R26). -/
def fLog2 (a : FV) : FR :=
  match a with
  | .nan => invalidNan
  | .inf n => if n then invalidNan else (.inf false, 0)
  | .num n m e =>
    if m = 0 then (.inf true, fOVERFLOW)
    else if n then invalidNan
    else
      let l := fxLn m e
      deliver (nearF32 0x11 (toF32 a) 2 (ofFx (l * 2 ^ fxS / fxLn2)))

/-- 1/a: ±0 gives ±∞ and sets OVERFLOW (R26). `b` is the bound in ulp: 2 in the vector lane, 1 in the update lanes. -/
def fRcp (code b : Nat) (a : FV) : FR :=
  match a with
  | .nan => invalidNan
  | .inf n => (.num n 0 0, 0)
  | .num n m e =>
    if m = 0 then (.inf n, fOVERFLOW)
    else
      let k := bitLen m + 60
      deliver (nearF32 code (toF32 a) b (.num n (2 ^ k / m) (-e - k)))

/-- 1/√a: +0 gives +∞, −0 gives −∞, both set OVERFLOW (R26). -/
def fRsqrt (code b : Nat) (a : FV) : FR :=
  match a with
  | .nan => invalidNan
  | .inf n => if n then invalidNan else (fvZero, 0)
  | .num n m e =>
    if m = 0 then (.inf n, fOVERFLOW)
    else if n then invalidNan
    else
      let m' := if e % 2 = 0 then m else 2 * m
      let e' := if e % 2 = 0 then e else e - 1
      let k := 2 * (bitLen m' + 60)
      deliver (nearF32 code (toF32 a) b (.num false (isqrt (2 ^ k * 2 ^ 60 / m')) (-(e' / 2) - (k : Int) / 2 - 30)))

/-- σ(x) = 1/(1 + e^−x) for a nonzero finite x, before the last rounding. -/
def fvSigmoid (x : Int) : FV :=
  let p := fxExp (clampFx (-x))
  let one : Nat := 2 ^ fxS
  let t : Nat := if 0 ≤ p.2 then p.1.toNat * 2 ^ p.2.toNat else p.1.toNat / 2 ^ (-p.2).toNat
  .num false (one * one * 2 ^ 400 / (one + t)) (-(fxS : Int) - 400)

/-- Sigmoid (ACT 5). -/
def fSigmoid (a : FV) : FR :=
  match a with
  | .nan => invalidNan
  | .inf n => if n then (fvZero, 0) else (fvOne, 0)
  | .num _ m _ => if m = 0 then (.num false 1 (-1), 0) else deliver (nearF32 0x45 (toF32 a) 2 (fvSigmoid (toFx a)))

/-- x·σ(x) (ACT 4 and the first factor of SILU_MUL). −∞ gives the limit −0 (log entry 4). -/
def fSilu (a : FV) : FR :=
  match a with
  | .nan => invalidNan
  | .inf n => if n then (.num true 0 0, 0) else (.inf false, 0)
  | .num n m _ =>
    if m = 0 then (.num n 0 0, 0)
    else deliver (nearF32 0x44 (toF32 a) 2 (exactMul a (fvSigmoid (toFx a))))

/-- tanh x for fixed point: (1 − t)/(1 + t) with t = e^(−2|x|). -/
def fvTanh (a : FV) : FV :=
  let x := toFx a.abs
  let one : Nat := 2 ^ fxS
  let p := fxExp (clampFx (-2 * x))
  let t : Nat := p.1.toNat / 2 ^ (-p.2).toNat
  -- for small |x| the difference loses its leading bits: use x − x³/3 + 2x⁵/15
  if x < 2 ^ (fxS - 20) then
    let x3 := fxMul (fxMul x x) x
    match a with
    | .num n m e => if m * 2 ^ 40 = 0 then a else if dyExp m e < -60 then a else .num n (x - x3 / 3 + 2 * fxMul (fxMul x3 x) x / 15).toNat (-(fxS : Int))
    | v => v
  else .num a.neg? ((one - t) * one / (one + t)) (-(fxS : Int))

/-- tanh (ACT 6). -/
def fTanh (a : FV) : FR :=
  match a with
  | .nan => invalidNan
  | .inf n => (.num n 1 0, 0)
  | .num _ m _ => if m = 0 then (a, 0) else deliver (nearF32 0x46 (toF32 a) 2 (fvTanh a))

/-- erf |x| by its Maclaurin series for |x| < 6, else 1 (fixed point). -/
def fxErf (x : Int) : Int :=
  if 6 * 2 ^ fxS ≤ x then 2 ^ fxS
  else
    let x2 := fxMul x x
    -- 2/√π as a fixed-point constant, from its decimal expansion
    let c : Int := 1128379167095512573896158903121545171688101258657997713688171 * 2 ^ fxS / 10 ^ 60
    let s := ((List.range 160).foldl (fun (a : Int × Int) k =>
      (a.1 + a.2 / ((2 * k + 1 : Nat) : Int), -(fxMul a.2 x2) / ((k + 1 : Nat) : Int))) (0, x)).1
    fxMul c s

/-- z + (1/2)/(z + 1/(z + (3/2)/(z + …))) for z ≥ 1 (fixed point): erfc z = e^(−z²) / (√π · this). -/
def fxErfcFrac (z : Int) : Int :=
  let one : Int := (2 : Int) ^ fxS
  (List.range 120).foldl (fun (t : Int) k => z + ((120 - k : Nat) : Int) * one / 2 * one / t) z

/-- x/2 · erfc(|x|/√2) for x ≤ −1 (fixed point): the lower tail of GELU, x · e^(−x²/2) / (2√π · fxErfcFrac). -/
def fvGeluTail (x r : Int) : FV :=
  let z := fxMul (-x) r
  -- 1/√π is half of 2/√π, from its decimal expansion
  let c : Int := 1128379167095512573896158903121545171688101258657997713688171 * 2 ^ fxS / (2 * 10 ^ 60)
  let q := -x * c / (2 * fxErfcFrac z)
  exactMul (.num true q.toNat (-(fxS : Int))) (fvExpFx (-(fxMul x x / 2)))

/-- x/2·(1 + h) with h a fixed-point number in −1..1. -/
def halfGate (a : FV) (h : Int) : FV := exactMul a (ofFx ((2 : Int) ^ fxS + h)) |>.scale (-1)

/-- GELU, tanh form (ACT 2). The constants 0.797 884 56 and 0.044 715 are the spec's. −∞ gives −0 (log entry 4). -/
def fGeluTanh (a : FV) : FR :=
  match a with
  | .nan => invalidNan
  | .inf n => if n then (.num true 0 0, 0) else (.inf false, 0)
  | .num n m e =>
    if m = 0 then (.num n 0 0, 0)
    else if 5 < dyExp m e then deliver (nearF32 0x42 (toF32 a) 2 (if n then .num true 1 (-400) else a))
    else
      let x := toFx a
      let one : Int := (2 : Int) ^ fxS
      let y := fxMul (79788456 * one / 100000000) (x + fxMul (44715 * one / 1000000) (fxMul (fxMul x x) x))
      -- 0.5·x·(1 + tanh y) = x·σ(2y)
      deliver (nearF32 0x42 (toF32 a) 2 (exactMul a (fvSigmoid (2 * y))))

/-- GELU, erf form (ACT 3), within 4 ulp. -/
def fGeluErf (a : FV) : FR :=
  match a with
  | .nan => invalidNan
  | .inf n => if n then (.num true 0 0, 0) else (.inf false, 0)
  | .num n m e =>
    if m = 0 then (.num n 0 0, 0)
    else if 5 < dyExp m e then deliver (nearF32 0x43 (toF32 a) 4 (if n then .num true 1 (-400) else a))
    else
      let x := toFx a
      -- 1/√2 as a fixed-point constant
      let r : Int := ((isqrt (2 ^ (2 * fxS) / 2) : Nat) : Int)
      if x < -(4 * 2 ^ fxS) then deliver (nearF32 0x43 (toF32 a) 4 (fvGeluTail x r)) else
      let h := fxErf (fxMul (if x < 0 then -x else x) r)
      deliver (nearF32 0x43 (toF32 a) 4 (halfGate a (if x < 0 then -h else h)))

end Sys2Proof.Machine
end

