-- ==== Sys2Proof/Machine/Codec.lean ====
section
/-! DEFINITION. The lossless block format of a 256 B slot (R101, R106–R109), the lossy delta codecs
(R114–R118) and the entropy stage's decoder (R120, R121). -/

namespace Sys2Proof.Machine

/-! ### Slots -/

/-- An element view: element width, lowest exponent bit, exponent width (R106). -/
structure View where
  w : Nat
  elo : Nat
  e : Nat
  deriving DecidableEq, Repr

/-- The views of R106; view 0 has no exponent field; values from 6 are reserved. -/
def viewOf : Nat → Option View
  | 0 => some ⟨8, 0, 0⟩
  | 1 => some ⟨16, 7, 8⟩
  | 2 => some ⟨16, 10, 5⟩
  | 3 => some ⟨8, 3, 4⟩
  | 4 => some ⟨8, 2, 5⟩
  | 5 => some ⟨32, 23, 8⟩
  | _ => none

/-- Elements in a quarter of 64 B. -/
def View.n (v : View) : Nat := 512 / v.w

/-- Element i of a quarter. -/
def View.elem (v : View) (q : List Byte) (i : Nat) : Nat := leAt q (i * (v.w / 8)) (v.w / 8)

/-- Exponent field of an element. -/
def View.expOf (v : View) (x : Nat) : Nat := (x >>> v.elo) % 2 ^ v.e

/-- Residue of an element: its sign above its mantissa (R106). -/
def View.resOf (v : View) (x : Nat) : Nat := x % 2 ^ v.elo + (x >>> (v.elo + v.e)) * 2 ^ v.elo

/-- The element with a given exponent field and residue. -/
def View.join (v : View) (ex res : Nat) : Nat :=
  res % 2 ^ v.elo + ex * 2 ^ v.elo + (res >>> v.elo) * 2 ^ (v.elo + v.e)

/-- Bit fields of equal width, packed from the least significant bit upwards (R108). -/
def packBits (w : Nat) : List Nat → Nat
  | [] => 0
  | x :: xs => x % 2 ^ w + packBits w xs * 2 ^ w

/-- One coded quarter: mode, K, BASE and its bytes. -/
structure SubStream where
  mode : Nat
  k : Nat
  base : Nat
  data : List Byte
  deriving DecidableEq, Repr

/-- The 15-bit descriptor of a quarter (R107). -/
def SubStream.desc (q : SubStream) : Nat := q.mode * 2 ^ 13 + q.k * 2 ^ 10 + q.base * 2 ^ 2

/-- Does exponent-plane width k hold every exponent field over a base (R108)? -/
def planeFits (k base : Nat) (exps : List Nat) : Bool :=
  if k = 0 then exps.all (fun x => decide (x = base))
  else exps.all (fun x => decide (x = 0) || decide (base ≤ x && x - base < 2 ^ k - 1))

/-- The smallest nonzero number of a list, 0 when there is none. -/
def minNonzero (xs : List Nat) : Nat :=
  xs.foldl (fun m x => if x = 0 then m else if m = 0 then x else min m x) 0

/-- The exponent-plane form of a quarter, where one exists (R108, R109). -/
def planeForm (v : View) (els : List Nat) : Option SubStream :=
  let exps := els.map v.expOf
  let base := minNonzero exps
  match (List.range 8).find? (fun k => planeFits k base exps) with
  | none => none
  | some k =>
    let codes := exps.map (fun x => if k = 0 then 0 else if x = 0 then 2 ^ k - 1 else x - base)
    some ⟨1, k, base, leBytes (v.n * k / 8) (packBits k codes)
      ++ leBytes (v.n * (v.w - v.e) / 8) (packBits (v.w - v.e) (els.map v.resOf))⟩

/-- The bitmap form of a quarter (R108). -/
def bitmapForm (v : View) (els : List Nat) : SubStream :=
  ⟨2, 0, 0, leBytes (v.n / 8) (packBits 1 (els.map (fun x => if x = 0 then 0 else 1)))
    ++ (els.filter (fun x => x ≠ 0)).flatMap (leBytes (v.w / 8))⟩

/-- The shortest form of a quarter; ties go to the lowest mode (R109). -/
def quarterForm (vi : Nat) (v : View) (q : List Byte) : SubStream :=
  let els := (List.range v.n).map (v.elem q)
  let zero := if q.all (fun b => b = 0) then [SubStream.mk 0 0 0 []] else []
  let plane := if vi = 0 then [] else (planeForm v els).toList
  let forms := zero ++ plane ++ [bitmapForm v els, ⟨3, 0, 0, q⟩]
  forms.foldl (fun best f => if f.data.length < best.data.length then f else best) (forms.headD ⟨3, 0, 0, q⟩)

/-- Encode 256 bytes under one view: header and sub-streams (R107). -/
def encodeView (vi : Nat) (bs : List Byte) : List Byte :=
  match viewOf vi with
  | none => bs
  | some v =>
    let qs := (List.range 4).map (fun j => quarterForm vi v (sliceB bs (64 * j) 64))
    let h := vi * 2 ^ 60 + (List.range 4).foldl (fun a j => a + ((qs.getD j ⟨3, 0, 0, []⟩).desc) * 2 ^ (15 * j)) 0
    leBytes 8 h ++ qs.flatMap SubStream.data

/-- The encoder of R109: the slot's code and its stored sectors. -/
def encodeSlot (bs : List Byte) : Nat × List Byte :=
  if bs.all (fun b => b = 0) then (8, [])
  else
    let cands := (List.range 6).map (fun v => encodeView v bs)
    let best := cands.foldl (fun b c => if c.length < b.length then c else b) (encodeView 0 bs)
    if 224 < best.length then (0, bs)
    else
      let n := ceilDiv best.length 32
      (n, fitB (32 * n) best)

/-- Expand one quarter from the remaining stored bytes; none when the header is malformed (R108). -/
def expandQuarter (vi : Nat) (v : View) (d : Nat) (rest : List Byte) : Option (List Byte × List Byte) :=
  let mode := bits d 14 13
  let k := bits d 12 10
  let base := bits d 9 2
  match mode with
  | 0 => some (zeros 64, rest)
  | 1 =>
    let l1 := v.n * k / 8
    let l2 := v.n * (v.w - v.e) / 8
    if vi = 0 ∨ rest.length < l1 + l2 then none
    else
      let cs := leNat (rest.take l1)
      let rs := leNat ((rest.drop l1).take l2)
      let exps := (List.range v.n).map (fun i =>
        let c := (cs >>> (k * i)) % 2 ^ k
        if k ≠ 0 ∧ c = 2 ^ k - 1 then 0 else base + c)
      if exps.any (fun x => decide (2 ^ v.e ≤ x)) then none
      else
        let els := (List.range v.n).map (fun i =>
          v.join (exps.getD i 0) ((rs >>> ((v.w - v.e) * i)) % 2 ^ (v.w - v.e)))
        some (els.flatMap (leBytes (v.w / 8)), rest.drop (l1 + l2))
  | 2 =>
    let lb := v.n / 8
    if rest.length < lb then none
    else
      let map := leNat (rest.take lb)
      let cnt := (bitList map v.n).length
      let lw := v.w / 8
      if rest.length < lb + cnt * lw then none
      else
        let q := (List.range v.n).foldl (fun (a : List Byte × List Byte) i =>
          if map.testBit i then (a.1 ++ a.2.take lw, a.2.drop lw) else (a.1 ++ zeros lw, a.2)) ([], rest.drop lb)
        some q
  | _ => if rest.length < 64 then none else some (rest.take 64, rest.drop 64)

/-- Expand a slot from its code and stored sectors: none for a reserved code or a malformed header (R105). -/
def expandSlot (code : Nat) (stored : List Byte) : Option (List Byte) :=
  if code = 0 then some (fitB 256 stored)
  else if code = 8 then some (zeros 256)
  else if 8 < code then none
  else
    let st := fitB (32 * code) stored
    let h := leAt st 0 8
    match viewOf (bits h 63 60) with
    | none => none
    | some v =>
      ((List.range 4).foldl (fun (a : Option (List Byte × List Byte)) j =>
        match a with
        | none => none
        | some (out, rest) =>
          match expandQuarter (bits h 63 60) v (bits h (15 * j + 14) (15 * j)) rest with
          | none => none
          | some (q, rest') => some (out ++ q, rest')) (some ([], st.drop 8))).map Prod.fst

/-- Stored sectors of a code (R101). -/
def sectorsOf (code : Nat) : Nat := if code = 0 then 8 else if code < 8 then code else 0

/-! ### Delta codecs -/

/-- Payload bytes of one block under a codec (R114). -/
def payloadLen (codec k : Nat) : Nat :=
  match codec with
  | 0 => 512
  | 1 => 136
  | _ => 1 + 2 * k

/-- floor(log₂) of a finite nonzero value. -/
def FV.flog2 : FV → Int
  | .num _ m e => if m = 0 then 0 else dyExp m e
  | _ => 0

/-- The E8M0 byte of a group: x + 127, clamped to 0x00–0xFE (R38, R115). -/
def e8m0 (x : Int) : Nat := (min (max (x + 127) 0) 254).toNat

/-- The power of two that a scale byte stands for. -/
def scaleExp (b : Nat) : Int := (b : Int) - 127

/-- An element under a scale byte; 0xFF makes every element of its block a NaN (R52). -/
def scaled (b : Nat) (x : FV) : FV := if b = 255 then .nan else x.scale (scaleExp b)

/-- The element of largest magnitude of a list of finite values. -/
def maxMag (xs : List FV) : FV := xs.foldl (fun a x => if (FV.abs x).gt a then FV.abs x else a) fvZero

/-- Encode finite values under a codec: payload bytes and the values sent (R115, R116). `rs` holds one
stochastic number per converted element where the rounding is stochastic. -/
def deltaEncode (codec k : Nat) (d : List FV) (rs : List (Option Nat)) : List Byte × List FV :=
  match codec with
  | 0 =>
    let cs := d.map (fun x => (convert bf16 none x).1)
    (cs.flatMap (fun c => leBytes 2 (encodeFmt bf16 c)), cs)
  | 1 =>
    let scale := (List.range 8).map (fun g =>
      let m := maxMag ((d.drop (32 * g)).take 32)
      (m.isZero, if m.isZero then 0 else e8m0 (m.flog2 - 2)))
    let codes := (List.range 256).map (fun i =>
      let (z, sc) := scale.getD (i / 32) (true, 0)
      if z then 0 else encodeFmt e2m1 (convert e2m1 (rs.getD i none) ((d.getD i fvZero).scale (-(scaleExp sc)))).1)
    (leBytes 128 (packBits 4 codes) ++ scale.map (fun p => BitVec.ofNat 8 p.2),
      (List.range 256).map (fun i => (decodeFmt e2m1 (codes.getD i 0)).scale (scaleExp (scale.getD (i / 32) (true, 0)).2)))
  | _ =>
    let mag := d.map FV.abs
    let beats := fun (i j : Nat) => (mag.getD j fvZero).gt (mag.getD i fvZero)
      || ((mag.getD j fvZero).ge (mag.getD i fvZero) && decide (j < i))
    let sel := (List.range 256).filter (fun i => decide (((List.range 256).filter (fun j => j ≠ i && beats i j)).length < k))
    let m := maxMag (sel.map (fun i => d.getD i fvZero))
    let sc := if m.isZero then 0 else e8m0 (m.flog2 - 8)
    let codes := (List.range sel.length).map (fun n =>
      encodeFmt e4m3 (convert e4m3 (rs.getD n none) ((d.getD (sel.getD n 0) fvZero).scale (-(scaleExp sc)))).1)
    ([BitVec.ofNat 8 sc] ++ sel.map (BitVec.ofNat 8) ++ codes.map (BitVec.ofNat 8),
      (List.range 256).map (fun i =>
        match sel.findIdx? (fun j => j = i) with
        | none => fvZero
        | some n => (decodeFmt e4m3 (codes.getD n 0)).scale (scaleExp sc)))

/-- Decode a block's payload: the values of its 256 elements (R118). -/
def deltaDecode (codec k : Nat) (p : List Byte) : List FV :=
  match codec with
  | 0 => (List.range 256).map (fun i => decodeFmt bf16 (leAt p (2 * i) 2))
  | 1 => (List.range 256).map (fun i =>
      scaled (leAt p (128 + i / 32) 1) (decodeFmt e2m1 ((leAt p 0 128 >>> (4 * i)) % 16)))
  | _ => (List.range 256).map (fun i =>
      match (List.range k).find? (fun n => decide (leAt p (1 + n) 1 = i)) with
      | none => fvZero
      | some n => scaled (leAt p 0 1) (decodeFmt e4m3 (leAt p (1 + k + n) 1)))

/-! ### The entropy stage -/

/-- Refill a lane's state: (x << 8) or the next byte, while x is below 2²³ (R121). -/
def laneRefill : Nat → Nat → List Byte → Option (Nat × List Byte)
  | 0, x, bs => some (x, bs)
  | f + 1, x, bs =>
    if x < 2 ^ 23 then
      match bs with
      | [] => none
      | b :: bs => laneRefill f (x * 256 + b.toNat) bs
    else some (x, bs)

/-- The symbol with cum[s] ≤ slot < cum[s] + freq[s], with cum[s] (R121). -/
def symbolOf (slot : Nat) : List Nat → Nat → Nat → Option (Nat × Nat × Nat)
  | [], _, _ => none
  | f :: fs, s, cum => if slot < cum + f then (if f = 0 then none else some (s, f, cum)) else symbolOf slot fs (s + 1) (cum + f)

/-- The symbols of one lane, then the check of its end (R121). -/
def laneDecode (freq : List Nat) : Nat → Nat → List Byte → Option (List Byte)
  | 0, x, bs => if x = 0x00800000 ∧ bs = [] then some [] else none
  | n + 1, x, bs =>
    match symbolOf (x % 4096) freq 0 0 with
    | none => none
    | some (s, f, c) =>
      match laneRefill 4 (f * (x / 4096) + x % 4096 - c) bs with
      | none => none
      | some (x', bs') => (laneDecode freq n x' bs').map (fun r => BitVec.ofNat 8 s :: r)

/-- Cut a list into runs of given lengths. -/
def cutRuns {α : Type} : List Nat → List α → List (List α)
  | [], _ => []
  | n :: ns, xs => xs.take n :: cutRuns ns (xs.drop n)

/-- Decode one coded section: none where it fails (R120, R121). -/
def sectionDecode (sec : List Byte) : Option (List Byte) :=
  let count := leAt sec 0 4
  let form := leAt sec 4 1
  if count = 0 ∨ 65536 < count ∨ leAt sec 5 3 ≠ 0 ∨ sec.length < 8 then none
  else if form = 0 then (if sec.length = 8 + count then some (sec.drop 8) else none)
  else if form ≠ 1 ∨ sec.length < 648 then none
  else
    let fr := leAt sec 8 384
    let freq := (List.range 256).map (fun s => (fr >>> (12 * s)) % 4096)
    let lens := (List.range 128).map (fun l => leAt sec (392 + 2 * l) 2)
    if freq.sum ≠ 4096 ∨ 648 + lens.sum ≠ sec.length ∨ lens.any (fun l => decide (l < 4)) then none
    else
      let lanes := cutRuns lens (sec.drop 648)
      let outs := (List.range 128).map (fun l =>
        let bs := lanes.getD l []
        let x := leAt bs 0 4
        if x < 2 ^ 23 then none
        else laneDecode freq (if l < count then (count - l + 127) / 128 else 0) x (bs.drop 4))
      if outs.any Option.isNone then none
      else some ((List.range count).map (fun j => ((outs.getD (j % 128) none).getD []).getD (j / 128) 0))

end Sys2Proof.Machine
end

