-- ==== Sys2Proof/Machine/Shake.lean ====
section
/-! DEFINITION. SHAKE256 of FIPS 202, the digest of every object, record and fingerprint (R353, R424, R441). -/

namespace Sys2Proof.Machine

/-- Rotate a 64-bit lane left. -/
def rotl64 (x n : Nat) : Nat := (x * 2 ^ (n % 64)) % 2 ^ 64 + x / 2 ^ (64 - n % 64) % 2 ^ (n % 64)

/-- Round constants of Keccak-f[1600]. -/
def keccakRC : List Nat :=
  [0x0000000000000001, 0x0000000000008082, 0x800000000000808A, 0x8000000080008000,
   0x000000000000808B, 0x0000000080000001, 0x8000000080008081, 0x8000000000008009] ++
  [0x000000000000008A, 0x0000000000000088, 0x0000000080008009, 0x000000008000000A,
   0x000000008000808B, 0x800000000000008B, 0x8000000000008089, 0x8000000000008003] ++
  [0x8000000000008002, 0x8000000000000080, 0x000000000000800A, 0x800000008000000A,
   0x8000000080008081, 0x8000000000008080, 0x0000000080000001, 0x8000000080008008]

/-- Rotation offsets, lane x + 5y. -/
def keccakRot : List Nat :=
  [0, 1, 62, 28, 27, 36, 44, 6, 55, 20, 3, 10, 43, 25, 39, 41, 45, 15, 21, 8, 18, 2, 61, 56, 14]

/-- One round. -/
def keccakRound (a : List Nat) (rc : Nat) : List Nat :=
  let g := fun (l : List Nat) i => l.getD i 0
  let c := (List.range 5).map (fun x => g a x ^^^ g a (x + 5) ^^^ g a (x + 10) ^^^ g a (x + 15) ^^^ g a (x + 20))
  let d := (List.range 5).map (fun x => g c ((x + 4) % 5) ^^^ rotl64 (g c ((x + 1) % 5)) 1)
  let a := (List.range 25).map (fun i => g a i ^^^ g d (i % 5))
  -- rho and pi: B[y, 2x+3y] = rot(A[x, y])
  let b := (List.range 25).map (fun i =>
    let x' := i % 5
    let y' := i / 5
    let x := (x' + 3 * y') % 5
    let y := x'
    rotl64 (g a (x + 5 * y)) (g keccakRot (x + 5 * y)))
  (List.range 25).map (fun i =>
    let x := i % 5
    let y := i / 5
    let v := g b i ^^^ ((2 ^ 64 - 1 - g b ((x + 1) % 5 + 5 * y)) &&& g b ((x + 2) % 5 + 5 * y))
    if i = 0 then v ^^^ rc else v)

/-- The permutation of 24 rounds. -/
def keccakF (a : List Nat) : List Nat := keccakRC.foldl keccakRound a

/-- XOR one 136-byte block into the state. -/
def absorb (a : List Nat) (blk : List Byte) : List Nat :=
  keccakF ((List.range 25).map (fun i => if i < 17 then a.getD i 0 ^^^ leAt blk (8 * i) 8 else a.getD i 0))

/-- Absorb the padded message block by block. -/
def spongeIn (msg : List Byte) : List Nat :=
  let n := msg.length / 136 + 1
  let pad := n * 136 - msg.length
  let p : List Byte := if pad = 1 then [0x9F] else [0x1F] ++ zeros (pad - 2) ++ [0x80]
  let m := msg ++ p
  (List.range n).foldl (fun a i => absorb a (sliceB m (136 * i) 136)) (List.replicate 25 0)

/-- The first n bytes of SHAKE256. -/
def shake256 (n : Nat) (msg : List Byte) : List Byte :=
  ((List.range (n / 136 + 1)).foldl (fun (s : List Byte × List Nat) _ =>
    (s.1 ++ ((List.range 17).flatMap (fun i => leBytes 8 (s.2.getD i 0))), keccakF s.2)) ([], spongeIn msg)).1.take n

end Sys2Proof.Machine
end

