-- ==== Sys2Proof/Machine/Fabric.lean ====
section
/-! DEFINITION. Sending on the fabric: addresses (R14), routes (R244–R246), credits and retry buffers (R238, R240),
tags (R241), requests and responses (R233, R237). -/

namespace Sys2Proof.Machine

/-! ### Addresses -/

def addrNode (a : Nat) : Nat := bits a 55 41
def addrRegion (a : Nat) : Nat := bits a 40 37
def addrOff (a : Nat) : Nat := bits a 36 0
def mkAddr (node r off : Nat) : Nat := node * 2 ^ 41 + r * 2 ^ 37 + off

/-- The site and the kind of a node (R244): SET_TABLE byte of its set; all 0xC0 while nothing is set. -/
def Module.setByte (m : Module) (n : Nat) : Nat :=
  if m.blob kSET_TABLE = [] then 0xC0 else leAt (m.blob kSET_TABLE) (n / 8) 1
def Module.siteOf (m : Module) (n : Nat) : Nat := m.setByte n % 64
def Module.kindOf (m : Module) (n : Nat) : Nat := m.setByte n / 64

/-! ### Operations -/

/-- Frame operations (R234). -/
def opREAD : Nat := 1
def opWRITE : Nat := 2
def opACCUM : Nat := 3
def opGATHER : Nat := 4
def opREFETCH : Nat := 5
def opRELEASE : Nat := 6
def opSIGNAL : Nat := 7
def opSTAGE : Nat := 8
def opCREDIT : Nat := 9
def opCOLL : Nat := 10
def opREGRD : Nat := 11
def opREGWR : Nat := 12
def opDICT : Nat := 13
def opDESC : Nat := 14
def opPOOL : Nat := 15
def opCHANTER : Nat := 16
def opTIMING : Nat := 17

/-- The channel of a frame (R240). -/
def vcOf (op : Nat) (rsp : Bool) : Nat :=
  if rsp then 1
  else if op = opCOLL ∨ op = opSTAGE then 2
  else if op = opCREDIT ∨ op = opSIGNAL ∨ op = opTIMING ∨ op = opREGRD ∨ op = opREGWR ∨ op = opDICT then 3
  else 0

/-- Completion timeout of an operation's class in ns (R234, R242); 0 for operations without a response. -/
def timeoutOf (op : Nat) : Nat :=
  if op = opREGRD ∨ op = opREGWR ∨ op = opDICT ∨ op = opDESC then 10 * ms
  else if op = opPOOL then 50 * ms
  else if op = opCREDIT ∨ op = opCHANTER ∨ op = opTIMING then 0
  else 100 * us

/-- A request frame of this module (R233). -/
def Module.mkReq (m : Module) (op r gen addr aux : Nat) (body : List Byte) : Frame :=
  { ver := 1, rsp := false, op := op, vc := vcOf op false, retry := false, stored := false, enc := false, epoch := 0,
    auth := false, gen := gen, srcRegion := r, srcNode := m.node, tag := 0, addr := addr, status := 0,
    len := body.length, hops := 16, fmt := 0, cop := 0, aux := aux, group := 0, cseq := 0, seg := 0, segs := 0,
    sec := 0, body := body, mac := [] }

end Sys2Proof.Machine

namespace Sys2Proof

open Sys2Proof.Machine

/-- The response to a request: the same OP, tag and GEN, RSP = 1 (R233, R234). -/
def Frame.answer (f : Frame) (status aux : Nat) (body : List Byte) : Frame :=
  { f with rsp := true, vc := 1, retry := false, status := status, aux := aux, len := body.length, hops := 16,
           body := body, enc := false, auth := false, epoch := 0, sec := 0, mac := [] }

/-- Bytes of a frame (R232), with the tag of a sealed one and the trailer of a TIMING frame. -/
def Frame.bytes (f : Frame) : Nat := 32 + (if f.enc || f.auth then 8 else 0) + f.body.length + f.mac.length

/-- The node that a frame travels to: a request to its address, a response to its requester. -/
def Frame.dest (f : Frame) : Nat := if f.rsp then f.srcNode else addrNode f.addr

/-- The node that a frame comes from: a request from its requester, a response from the address that it answers for. -/
def Frame.sender (f : Frame) : Nat := if f.rsp then addrNode f.addr else f.srcNode

/-- Credits of 64 B that a frame takes (R240). -/
def Frame.credits (f : Frame) : Nat := ceilDiv f.bytes 64

/-- The 32 B header, with HOPS as given (R233, R436). -/
def Frame.header (f : Frame) (hops : Nat) : List Byte :=
  leBytes 8 (place f.ver 63 60 + place (b2n f.rsp) 59 59 + place f.op 58 54 + place f.vc 53 52 + place (b2n f.retry) 51 51
    + place (b2n f.stored) 49 49 + place (b2n f.enc) 48 48 + place f.epoch 47 47 + place (b2n f.auth) 46 46
    + place f.gen 45 38 + place f.srcRegion 37 34 + place f.srcNode 33 19 + place f.tag 17 0)
  ++ leBytes 8 (place f.addr 63 8 + place f.status 7 0)
  ++ leBytes 8 (place f.len 63 51 + place hops 47 40 + place f.fmt 39 36 + place f.cop 35 32 + place f.aux 31 0)
  ++ leBytes 8 (place f.group 63 48 + place f.cseq 47 24 + place f.seg 23 12 + place f.segs 11 0)

/-- A frame's bytes without the link trailer (R232). -/
def Frame.wire (f : Frame) : List Byte :=
  f.header f.hops ++ (if f.enc || f.auth then leBytes 8 f.sec else []) ++ f.body ++ f.mac

/-- A request that carries an UPDATE (R433). -/
def Frame.kexUpdate (f : Frame) : Bool := f.op == opDICT && !f.rsp && leAt f.body 6 2 == 0x9020 && leAt f.body 24 1 == 3

/-- Handshake traffic, which travels in clear (R432, R433): DICT requests for KEX_MAILBOX (an UPDATE apart) and IDENTITY_PUBKEY, and
their responses. The body is a dictionary message (R301). -/
def Frame.kexClear (f : Frame) : Bool :=
  f.op == opDICT && ((leAt f.body 6 2 == 0x9020 && (f.rsp || leAt f.body 24 1 != 3)) || (leAt f.body 6 2 == 0x9001 && leAt f.body 8 1 == 0))

end Sys2Proof

namespace Sys2Proof.Machine

/-! ### Register requests -/

/-- The block of a register request (R277). -/
def regBlock (f : Frame) : Nat := bits f.addr 27 16

/-- A write of a doorbell or a completion doorbell (R270, R274). -/
def rings (f : Frame) : Bool := f.op == opREGWR && (regBlock f == 0x301 || regBlock f == 0x302)

/-! ### Ports -/

def Module.portState (m : Module) (p : Nat) : Nat := m.num (kPORT_STATE + p)
def Module.setPortState (m : Module) (p v : Nat) : Module := m.setNum (kPORT_STATE + p) v
def PortSt.credit (x : PortSt) (vc : Nat) : Nat := Tab.get 768 x.credits vc
def PortSt.setCredit (x : PortSt) (vc n : Nat) : PortSt := { x with credits := Tab.set 768 x.credits vc n }

/-- The position that set port p leads to from position i: port 8j + k leads to position i + j + 1 mod 8 (R230). -/
def setPeer (i p : Nat) : Nat := (i + p / 8 + 1) % 8

/-- Set ports that lead to a position. -/
def setPortsTo (i d : Nat) : List Nat := (List.range 56).filter (fun p => setPeer i p == d)
def sitePorts : List Nat := (List.range 32).map (· + 56)

/-- An UP port carries frames (R256); in a power-fail sequence it takes no new ones (R371). -/
def Module.up (m : Module) (p : Nat) : Bool := decide (m.portState p = 2) && !m.bellows.failing

/-- Bytes in a port's retry buffer (R238). -/
def PortSt.heldBytes (x : PortSt) : Nat := (x.unacked.map (fun u => u.2.1.bytes + 8)).sum

/-- How often the port's unacknowledged frames have been replayed at most; 0 where no replay is in progress. -/
def PortSt.replays (x : PortSt) : Nat := x.unacked.foldl (fun a u => max a (Tab.get 0 x.replayed u.1)) 0

/-- Does the port take a new frame: no replay in progress, room in the retry buffer (R238)? -/
def PortSt.accepts (x : PortSt) (f : Frame) : Bool :=
  decide (x.replays = 0) && decide (x.unacked.length < 2048) && decide (x.heldBytes + f.bytes + 8 ≤ 200704)

/-! ### Line encryption of what is sent (R432–R436) -/

/-- The slot of a port's key, and of an edge peer's. -/
def portSlot (p : Nat) : Nat := p
def edgeSlot (node : Nat) : Nat := 256 + node

def Module.key (m : Module) (slot : Nat) : LineKey := Tab.get {} m.security.keys slot
def Module.modKey (m : Module) (slot : Nat) (f : LineKey → LineKey) : Module :=
  { m with security := { m.security with keys := Tab.put m.security.keys slot (f (m.key slot)) } }

/-- LINE_ENC acts from RUN onwards (R382). -/
def Module.lineEnc (m : Module) : Nat := if m.inRun then m.num kLINE_ENC else 0
def Module.protectsPort (m : Module) (p : Nat) : Bool := decide (m.lineEnc = 2) && decide (p < 88)
def Module.protectsEdge (m : Module) : Bool := decide (1 ≤ m.lineEnc)

/-- Key and salt of a direction and index (R434): 32 B and 4 B of one digest. -/
def deriveKey (master : List Byte) (dir n : Nat) : List Byte × List Byte :=
  let d := shake256 36 (master ++ [0x6B, 0x65, 0x79] ++ leBytes 1 dir ++ leBytes 4 n)
  (d.take 32, d.drop 32)

/-- Direction 0 runs from the lower node to the higher, and from the module to a switch (R434). -/
def Module.sendDir (m : Module) (slot : Nat) : Nat :=
  if 56 ≤ slot ∧ slot < 96 then 0
  else
    let peer := if slot < 56 then m.node / 8 * 8 + setPeer (m.node % 8) slot else slot - 256
    if m.node < peer then 0 else 1

/-- Frames sent under the sending key, over every interface. -/
def LineKey.sent (k : LineKey) : Nat := (k.sendCounts.map (·.2)).sum

/-- The hard limit of a sending key: twice 2^KEY_FRAMES_LOG2 frames (R438). -/
def Module.keyLimit (m : Module) : Nat := 2 * 2 ^ m.num kKEY_FRAMES_LOG2

/-- A key that may seal now. -/
def Module.keyUsable (m : Module) (slot : Nat) : Bool :=
  (m.key slot).established && decide ((m.key slot).sent < m.keyLimit)

/-- May a frame be sealed under a slot's key: at its hard limit the UPDATE alone may, which ends that state (R438). -/
def Module.maySeal (m : Module) (slot : Nat) (f : Frame) : Bool := m.keyUsable slot || ((m.key slot).established && f.kexUpdate)

/-- Seal a frame under a slot's sending key: AUTH for TIMING, ENC otherwise (R432, R435, R436), the body as long as before and a tag of 16 B (R232). Reaching the hard limit is
posted once (R438). -/
def sealFrame (now slot iface : Nat) (f : Frame) (m : Module) : Module × Frame :=
  let k := m.key slot
  let (key, salt) := deriveKey k.master (m.sendDir slot) k.sendIdx
  let sec := place iface 63 62 + place (Tab.get 0 k.sendCounts iface) 61 0
  let nonce := salt ++ leBytes 8 sec
  let f := { f with enc := f.op != opTIMING, auth := f.op == opTIMING, epoch := (k.sendIdx + k.sendBase) % 2, sec := sec }
  let aad := f.header 0 ++ leBytes 8 sec
  let g := if f.enc then { f with body := fitB f.body.length (Config.gcmBody key nonce f.body), mac := fitB 16 (Config.gcmTag key nonce aad f.body) }
    else { f with mac := fitB 16 (Config.gcmTag key nonce (aad ++ f.body) []) }
  let m := m.modKey slot (fun k => { k with sendCounts := Tab.put k.sendCounts iface (Tab.get 0 k.sendCounts iface + 1) })
  if m.keyUsable slot ∨ (m.key slot).limitPosted then (m, g)
  else (post now 10 5 srcDrone (leBytes 2 (if slot < 256 then slot else slot - 256)) (m.modKey slot (fun k =>
    { k with limitPosted := true, gone := if slot < 256 then none else some (k.gone.getD now) })), g)

/-- Is the frame sealed: always on a protected path, but for handshake traffic; the response of KEX_MAILBOX is sealed where a key is
in place, that of IDENTITY_PUBKEY never (R433). -/
def seals (m : Module) (slot : Nat) (protect : Bool) (f : Frame) : Bool :=
  protect && (!f.kexClear || (f.rsp && leAt f.body 6 2 == 0x9020 && m.keyUsable slot))

/-- The port adds the trailer of a TIMING frame after its tag: TX_TIME and 8 bytes of 0 (R440). -/
def stamped (now : Nat) (f : Frame) : Frame := if f.op = opTIMING then { f with mac := f.mac ++ leBytes 8 now ++ zeros 8 } else f

/-- The IPv6 address of interface e of a node (R254). -/
def edgeAddr (m : Module) (node e : Nat) : List Byte :=
  sliceB (m.blob kSITE_PREFIX) (8 * m.siteOf node) 8 ++ beBytes 8 (0x4B47000000000000 + 4 * node + e)

/-- The MAC address of edge interface e: MAC_BASE + e (R428). -/
def edgeMac (e : Nat) : List Byte := beBytes 6 ((fitB 6 Config.macBase).foldl (fun a b => 256 * a + b.toNat) 0 + e)

/-- The sum of 16-bit words, most significant byte first, of the UDP checksum. -/
def wordSum : List Byte → Nat
  | a :: b :: rest => 256 * a.toNat + b.toNat + wordSum rest
  | [a] => 256 * a.toNat
  | [] => 0

/-- The UDP checksum: the complement of the sum with its carries folded in, never 0. -/
def udpChecksum (src dst udp : List Byte) : Nat :=
  let fold := fun x => x % 65536 + x / 65536
  let v := 65535 - fold (fold (wordSum (src ++ dst ++ beBytes 4 udp.length ++ beBytes 4 17 ++ udp)))
  if v = 0 then 65535 else v

/-- Ethernet, IPv6 and UDP header of the packet that carries a frame (R253, R254). The destination is the far node's interface
of the same number (log entry 77). -/
def edgeHeader (m : Module) (e : Nat) (f : Frame) : List Byte :=
  let hash := if f.rsp then Config.flowHash f.sender (addrRegion f.addr) f.dest f.srcRegion
    else Config.flowHash f.sender f.srcRegion f.dest (addrRegion f.addr)
  let src := edgeAddr m m.node e
  let dst := edgeAddr m f.dest e
  let len := 8 + f.wire.length
  let udp := fun sum => beBytes 2 (49152 + hash % 16384) ++ beBytes 2 (m.num kKG_UDP_PORT) ++ beBytes 2 len ++ beBytes 2 sum
  fitB 6 (m.blob kEDGE_GW_MAC) ++ edgeMac e
    ++ (if m.num kEDGE_VLAN = 0 then [] else beBytes 2 0x8100 ++ beBytes 2 (m.num kEDGE_VLAN)) ++ beBytes 2 0x86DD
    ++ beBytes 4 (6 * 2 ^ 28 + m.num kEDGE_DSCP * 2 ^ 22 + hash % 2 ^ 20) ++ beBytes 2 len ++ beBytes 1 17 ++ beBytes 1 64 ++ src ++ dst
    ++ udp (udpChecksum src dst (udp 0 ++ f.wire))

/-- What a frame leaves as: on an edge interface behind its packet header. -/
def Module.sent (m : Module) (via : Via) (f : Frame) : List Emit :=
  match via with
  | .edge e => let h := edgeHeader m e f; [.packet e h (crc32 (h ++ f.wire)), .frame via f]
  | _ => [.frame via f]

/-- A frame leaves. -/
def emitFrame (now : Nat) (via : Via) (f : Frame) (m : Module) : Module :=
  let m := if f.op = opTIMING then { m with security := { m.security with txTime := Tab.set 0 m.security.txTime f.dest now } } else m
  { m with out := m.out ++ m.sent via (stamped now f) }

/-- A frame leaves on a port, with the link layer's trailer behind it: its sequence number and the CRC-32 over the frame (R232). -/
def emitLink (now p seq : Nat) (f : Frame) (m : Module) : Module :=
  (emitFrame now (.port p) f m).emit (.trailer p seq (crc32 (stamped now f).wire))

/-- Does a frame need the port's key, while there is none that may seal it (R433, R438)? -/
def Module.lacksKey (m : Module) (p : Nat) (f : Frame) : Bool := seals m (portSlot p) (m.protectsPort p) f && !m.maySeal (portSlot p) f

/-- Transmit on a port: sealed where set and site ports are protected. A frame that needs a key stays in the retry buffer while there is
none. -/
def transmitPort (now p seq : Nat) (f : Frame) (m : Module) : Module :=
  if m.lacksKey p f then m
  else if seals m (portSlot p) (m.protectsPort p) f then
    let (m, g) := sealFrame now (portSlot p) 0 f m
    emitLink now p seq g m
  else emitLink now p seq f m

/-- Credits that a frame takes on a port: for the whole frame as it travels, sealed and stamped (R240). -/
def linkCredits (m : Module) (p : Nat) (f : Frame) : Nat :=
  ceilDiv (f.bytes + (if seals m (portSlot p) (m.protectsPort p) f then 24 else 0) + (if f.op = opTIMING then 16 else 0)) 64

/-- The request that a frame is has been sent for the first time: its timeout runs from now (R242). -/
def markSent (now : Nat) (f : Frame) (m : Module) : Module :=
  let is := fun (q : Req) => q.parked && q.tag == f.tag && q.frame.op == f.op
  if f.rsp || !m.fabric.reqs.any is then m
  else m.modFab (fun x => { x with reqs := x.reqs.map (fun q => if is q then { q with parked := false, sentAt := now } else q) })

/-- Transmit on an edge interface: sealed under the edge key of the far node; without one a frame that needs it does not leave. -/
def transmitEdge (now e : Nat) (f : Frame) (m : Module) : Module :=
  if seals m (edgeSlot f.dest) m.protectsEdge f ∧ !m.maySeal (edgeSlot f.dest) f then m
  else if seals m (edgeSlot f.dest) m.protectsEdge f then
    let (m, g) := sealFrame now (edgeSlot f.dest) e f m
    emitFrame now (.edge e) g m
  else emitFrame now (.edge e) f m

/-- Put a frame on a port: credits taken, kept until acknowledged (R238, R240). -/
def putOnLink (now p : Nat) (f : Frame) (m : Module) : Module :=
  let n := linkCredits m p f
  (markSent now f m).modPort p (fun x =>
    { (x.setCredit f.vc (x.credit f.vc - n)) with
      sendSeq := (x.sendSeq + 1) % 4096
      unacked := x.unacked ++ [(x.sendSeq, f, now)] }) |> transmitPort now p (m.port p).sendSeq f

/-- Send a frame on a port. Without credits, or while the port takes no new frame, it waits behind the frames of its channel (R238, R240). -/
def sendPort (now p : Nat) (f : Frame) (m : Module) : Module :=
  let x := m.port p
  if x.credit f.vc < linkCredits m p f ∨ x.accepts f = false ∨ x.waiting.any (fun g => g.vc == f.vc) then m.modPort p (fun x => { x with waiting := x.waiting ++ [f] })
  else putOnLink now p f m

/-- The port of a group that a frame takes: UP, not replaying, most credits on the channel, lowest number (R246). Where every port's buffer is
full, or every one replays, the frame waits at such a port (log entry 152). -/
def pickPort (m : Module) (f : Frame) (ps : List Nat) : Option Nat :=
  let keyed := ps.filter (fun p => m.up p && (!m.protectsPort p || m.keyUsable (portSlot p)))
  let ok := keyed.filter (fun p => (m.port p).accepts f)
  let still := keyed.filter (fun p => decide ((m.port p).replays = 0))
  let free := if ok ≠ [] then ok else if still ≠ [] then still else keyed
  free.foldl (fun best p =>
    match best with
    | none => some p
    | some b => if (m.port b).credit f.vc < (m.port p).credit f.vc then some p else some b) none

/-! ### Edge interfaces -/

def Module.edgeRole (m : Module) (e : Nat) : Nat := m.num (kEDGE_ROLE + e)

/-- An interface is up when both its ports are (R245, R257). -/
def Module.edgeUp (m : Module) (e : Nat) : Bool := m.up (88 + 2 * e) && m.up (89 + 2 * e)

/-- Roles that carry a kind of destination: 0 long-haul, 1 pool, 2 host (R245, R258). -/
def roleServes (kind role : Nat) : Bool :=
  match kind with
  | 0 => role == 1 || role == 4
  | 1 => role == 3 || role == 4
  | _ => role == 2

/-- The edge interface for a destination, by the hash of destination node and source region (R246). -/
def pickEdge (m : Module) (kind node r : Nat) : Option Nat :=
  let es := (List.range 4).filter (fun e => m.edgeUp e && roleServes kind (m.edgeRole e))
  if es = [] then none else es[Config.edgeHash node r % es.length]?

/-- The longest body towards a node (R254). -/
def Module.bodyLimit (m : Module) (node : Nat) : Nat :=
  if node = m.node ∨ (m.kindOf node = 0 ∧ m.siteOf node = m.siteOf m.node) then 4096
  else min 4096 ((m.num kEDGE_MTU - 104) / 64 * 64)

/-- The way to a node (R245): none when no interface on the route is UP. -/
def route (m : Module) (f : Frame) : Option Via :=
  let d := f.dest
  let here := m.node
  if d = here then some .mesh
  else if d / 8 = here / 8 ∧ m.kindOf d = 0 then
    match pickPort m f (setPortsTo (here % 8) (d % 8)) with
    | some p => some (.port p)
    | none => (pickPort m f sitePorts).map .port
  else if m.kindOf d = 0 ∧ m.siteOf d = m.siteOf here then (pickPort m f sitePorts).map .port
  else if m.kindOf d = 3 then none
  else (pickEdge m (m.kindOf d) d (if f.rsp then addrRegion f.addr else f.srcRegion)).map .edge

/-- The fragments to a node are due, without their RTO (R213). -/
def Chanter.resend (node : Nat) (c : Chanter) : Chanter :=
  { c with streams := c.streams.map (fun s => (s.1, if s.2.node = node then { s.2 with frags := s.2.frags.map (fun f => { f with sentAt := none }) } else s.2)) }

/-- Send a frame on a given way. -/
def sendVia (now : Nat) (via : Via) (f : Frame) (m : Module) : Module :=
  match via with
  | .port p => sendPort now p f m
  | .edge e => transmitEdge now e f m
  | .mesh => emitFrame now .mesh f m

/-- Send a request or a response: 0x00 sent, 0x08 no route or no key (R245, R432). -/
def send (now : Nat) (f : Frame) (m : Module) : Module × Nat :=
  match route m f with
  | none => (m.bump kNO_ROUTE 1, 8)
  | some (.edge e) =>
    if m.protectsEdge && !f.kexClear && !m.maySeal (edgeSlot f.dest) f then (if f.rsp then m else m.bump kNO_KEY 1, 8)
    else (sendVia now (.edge e) f m, 0)
  | some v => (sendVia now v f m, 0)

/-- Send a frame whose outcome nobody waits for. -/
def sendOnly (now : Nat) (f : Frame) (m : Module) : Module := (send now f m).1

/-- Answer a request (R237). -/
def respond (now : Nat) (f : Frame) (status aux : Nat) (body : List Byte) (m : Module) : Module := sendOnly now (f.answer status aux body) m

/-! ### Tags -/

/-- The first number from k that a predicate takes, within n numbers. -/
def firstFrom : Nat → Nat → (Nat → Bool) → Option Nat
  | 0, _, _ => none
  | n + 1, k, p => if p k then some k else firstFrom n (k + 1) p

/-- A holder: a region 0–15, 16 for Drone, 17 for the bridge's forwarding (R241, R267). -/
def Module.tagFree (m : Module) (t : Nat) : Bool :=
  !(m.fabric.reqs.any (fun q => q.tag == t)) && !(m.fabric.quarantine.any (fun q => q.1 == t))

def Module.tagsHeld (m : Module) (holder : Nat) : Nat :=
  (m.fabric.reqs.filter (fun q => q.holder == holder)).length

/-- A free tag for a holder (R241). -/
def Module.newTag (m : Module) (holder : Nat) : Option Nat :=
  if 16 ≤ holder then
    if (if holder = 16 then 256 else 768) ≤ m.tagsHeld holder then none else firstFrom 1024 261120 m.tagFree
  else if 32768 ≤ m.tagsHeld holder then none
  else
    match firstFrom 8192 (8192 * holder) m.tagFree with
    | some t => some t
    | none => firstFrom 130048 131072 m.tagFree

/-- The generation that a holder's requests carry (R393). -/
def Module.holderGen (m : Module) (holder : Nat) : Nat := if 16 ≤ holder then m.dieGen 0 else m.gen holder

/-- Does a frame wait at a port? -/
def waitsAtPort (m : Module) (f : Frame) : Bool := m.ports.any (fun p => p.2.waiting.contains f)

/-- The context of a request that no descriptor makes: it goes with its holder's generation alone (R393). -/
def noCtx : Nat := 8

/-- Send a request under a tag and record it; without a route or a key it completes at once with 0x08 (R245, R432). -/
def sendTagged (now t holder : Nat) (owner : Owner) (ctx : Nat) (f : Frame) (m : Module) : Module × Nat :=
  let f := { f with tag := t, gen := m.holderGen holder }
  let (m, st) := send now f m
  if st = 0 then
    (m.modFab (fun x => { x with reqs := x.reqs ++ [{ tag := t, holder := holder, owner := owner, ctx := ctx, ctxGen := m.cgen holder ctx, gen := f.gen, frame := f, sentAt := now, parked := waitsAtPort m f }] }), 0)
  else (m, st)

/-- Issue one request frame; with no free tag it waits (R241). Answers 0x00 sent, 0x100 waiting, 0x08 no route. -/
def issue (now holder : Nat) (owner : Owner) (ctx : Nat) (f : Frame) (m : Module) : Module × Nat :=
  match m.newTag holder with
  | none =>
    (m.modFab (fun x => { x with waiting := x.waiting ++ [{ holder := holder, owner := owner, ctx := ctx, since := now, frame := f }] }), 0x100)
  | some t => sendTagged now t holder owner ctx f m

/-- Issue a request whose issue nobody waits for. -/
def issueOnly (now holder : Nat) (owner : Owner) (ctx : Nat) (f : Frame) (m : Module) : Module := (issue now holder owner ctx f m).1

/-- Requests of one frame each, in order, that nobody waits for; the first failure's status. -/
def issueAll (now holder ctx : Nat) (fs : List Frame) (m : Module) : Module × Nat :=
  fs.foldl (fun (a : Module × Nat) f =>
    let (m, st) := issue now holder .none ctx f a.1
    (m, if a.2 = 0 ∧ st ≠ 0x100 then st else a.2)) (m, 0)

/-! ### Cut proposals -/

/-- STEP_CLOSED of the module: the latest step that any region has closed (R362, log entry 10). -/
def Module.stepClosed (m : Module) : Nat := (List.range 16).foldl (fun a r => max a (m.num (kSTEP_CLOSED + r))) 0

/-- A snapshot policy entry's value in force: a commit in RUN acts from the next step close (R382). -/
def Module.snapNum (m : Module) (k : Nat) : Nat := (Tab.find? m.cuts.params k).getD (m.num k)

/-- Set CUT_AT to a pending step by the rules of R362; answers the status. -/
def setCutAt (v : Nat) (m : Module) : Module × Nat :=
  if m.snapNum kSNAP_POLICY = 0 then (m, 8)
  else if v ≤ m.stepClosed then (m.bump kCUT_LATE 1, 2)
  else if m.num kCUT_AT ≠ 0 ∧ m.num kCUT_AT < v then (m, 0)
  else (m.setNum kCUT_AT v, 0)

/-- Nodes of a site layout: SEGS, NODES, segments, then node numbers (R202). -/
def Module.siteNodes (m : Module) (site : Nat) : List Nat :=
  let b := m.blob (kSITE_LAYOUT + site)
  let segs := leAt b 0 2
  let n := leAt b 2 2
  if b = [] then [] else (List.range n).map (fun i => leAt b (8 + 16 * segs + 2 * i) 2)

/-- A dictionary message's bytes (R301). -/
def dictBytes (x : DictMsg) : List Byte :=
  leBytes 1 x.ver ++ leBytes 1 x.kind ++ leBytes 1 x.op ++ leBytes 1 x.flags ++ leBytes 2 x.seq ++ leBytes 2 x.index
    ++ leBytes 1 x.sub ++ leBytes 1 x.status ++ leBytes 2 x.len ++ leBytes 4 x.offset ++ leBytes 8 x.time ++ x.data

/-- A dictionary message from its bytes. -/
def dictOfBytes (b : List Byte) : DictMsg :=
  { ver := leAt b 0 1, kind := leAt b 1 1, op := leAt b 2 1, flags := leAt b 3 1, seq := leAt b 4 2, index := leAt b 6 2,
    sub := leAt b 8 1, status := leAt b 9 1, len := leAt b 10 2, offset := leAt b 12 4, time := leAt b 16 8, data := b.drop 24 }

/-- An in-band WRITE of a numeric entry, as Drone sends it (R312). -/
def dictWriteTo (now node key size v : Nat) (m : Module) : Module :=
  let msg : DictMsg := { ver := 1, kind := 1, op := 2, flags := 0, seq := m.free % 65536, index := key / 256, sub := key % 256, status := 0, len := size, offset := 0, time := 0, data := leBytes size v }
  issueOnly now 16 .none 0 (m.mkReq opDICT 0 (m.dieGen 0) (mkAddr node 0 0) 0 (dictBytes msg)) m

/-- Drone proposes a cut on an advisory event of a class that ADVISE_MASK selects, under policy 2 (R362). -/
def advise (now bitNo : Nat) (m : Module) : Module :=
  if m.snapNum kSNAP_POLICY = 2 ∧ (m.snapNum kADVISE_MASK).testBit bitNo
      ∧ m.cuts.lastCut + m.snapNum kSNAP_MIN_STEPS ≤ m.stepClosed ∧ m.env.droneUp then
    let k := m.stepClosed + 2
    forL ((m.siteNodes (m.num kSITE_ID)).filter (fun n => n ≠ m.node)) (setCutAt k m).1 (fun n m => dictWriteTo now n kCUT_AT 8 k m)
  else m

end Sys2Proof.Machine
end

