-- ==== Sys2Proof/Machine/Memory.lean ====
section
/-! DEFINITION. Bonded memory: slots, codes and sectors (R101–R105), the region address map (R127–R129), sector errors
(R133–R135), the metadata cache (R102), and the cluster buffer with its tags (R73, R75, R103). -/

namespace Sys2Proof.Machine

/-! ### The region address map (R129) -/

def dataEnd : Nat := 0x17F4000000
def metaEnd : Nat := 0x1800000000

/-- A range that may be read: data or metadata table. -/
def readable (off len : Nat) : Bool := decide (off + len ≤ metaEnd)

/-- A range that may be written: data only. -/
def writable (off len : Nat) : Bool := decide (off + len ≤ dataEnd)

/-- Slots of the metadata table keep code 0x0. -/
def metaSlot (slot : Nat) : Bool := decide (dataEnd / 256 ≤ slot)

/-- The slot's code (R101, R102). -/
def Stack.code (k : Stack) (slot : Nat) : Nat := if metaSlot slot then 0 else Tab.get 8 k.codes slot

/-- Byte b of the metadata table: two codes (R129). -/
def Stack.metaByte (k : Stack) (b : Nat) : Byte := BitVec.ofNat 8 (k.code (2 * b) + 16 * k.code (2 * b + 1))

/-- A stored byte, as the stack holds it. -/
def Stack.byte (k : Stack) (a : Nat) : Byte :=
  if a < dataEnd then Tab.get 0 k.data a else if a < metaEnd then k.metaByte (a - dataEnd) else 0

/-- n stored bytes from a. -/
def Stack.bytesAt (k : Stack) (a n : Nat) : List Byte := (List.range n).map (fun i => k.byte (a + i))

/-- Write stored bytes from a; the list keeps its canonical form. -/
def Stack.putBytes (k : Stack) (a : Nat) (bs : List Byte) : Stack :=
  { k with data := ((List.range bs.length).foldl (fun d i => Tab.set 0 d (a + i) (bs.getD i 0)) k.data) }

/-- The canonical form of a stack's memory: addresses strictly rising, inside the data range, no entry equal to what
an unlisted address reads as. -/
def Memory.wf (d : List Host.Cell) : Bool := Tab.canon (0 : Byte) d

/-- The metadata sector that describes a slot: 64 slots to a sector (R105). -/
def metaSector (slot : Nat) : Nat := (dataEnd + slot / 2) / 32

/-! ### Sector ECC (R133) -/

/-- Twice an element of GF(2⁸) over x⁸ + x⁴ + x³ + x² + 1, and products and powers of α. -/
def gfDouble (a : Nat) : Nat := if a < 128 then 2 * a else (2 * a) ^^^ 0x11D
def gfMul (a b : Nat) : Nat :=
  ((List.range 8).foldl (fun (x : Nat × Nat) i => (if b.testBit i then x.1 ^^^ x.2 else x.1, gfDouble x.2)) (0, a)).1
def gfPow (n : Nat) : Nat := (List.range n).foldl (fun a _ => gfDouble a) 1

/-- The three check symbols: the remainder by the generator x³ + 7x² + 14x + 8. -/
def rsCheck (msg : List Nat) : List Nat :=
  let c := msg.foldl (fun (c : Nat × Nat × Nat) u =>
    let f := u ^^^ c.1
    (c.2.1 ^^^ gfMul 7 f, c.2.2 ^^^ gfMul 14 f, gfMul 8 f)) (0, 0, 0)
  [c.1, c.2.1, c.2.2]

/-- The word's value at a root of the generator; the first symbol is the highest coefficient (DEDUCED, log entry 143). -/
def rsSyndrome (root : Nat) (word : List Nat) : Nat := word.foldl (fun s u => gfMul root s ^^^ u) 0

/-- Decode a word of 36 symbols: 0 no error, 1 one symbol (its position and what it is off by), 2 detected, 3 the address
symbol. Three or more errors give whichever of these their syndromes look like. -/
def rsDecode (word : List Nat) : Nat × Nat × Nat :=
  let s0 := rsSyndrome 1 word
  let s1 := rsSyndrome 2 word
  let s2 := rsSyndrome 4 word
  if s0 = 0 ∧ s1 = 0 ∧ s2 = 0 then (0, 0, 0)
  else match (List.range 36).find? (fun i => s0 != 0 && gfMul s0 (gfPow (35 - i)) == s1 && gfMul s1 (gfPow (35 - i)) == s2) with
    | some 32 => (3, 32, s0)
    | some i => (1, i, s0)
    | none => (2, 0, 0)

/-- The address symbol A of a sector of region r. -/
def addrSymbol (r sector : Nat) : Nat := (leBytes 4 sector).foldl (fun a b => a ^^^ b.toNat) r

/-- The codeword of a sector as it was written: data, A, check symbols; and as a read finds it, with the symbols that are in
error. -/
def Stack.codeword (k : Stack) (r sector : Nat) : List Nat :=
  let msg := (k.bytesAt (32 * sector) 32).map (·.toNat) ++ [addrSymbol r sector]
  msg ++ rsCheck msg
def Stack.received (k : Stack) (r sector : Nat) : List Nat :=
  let e := Tab.get [] k.errs sector
  let w := k.codeword r sector
  (List.range 36).map (fun i => w.getD i 0 ^^^ Tab.get 0 e i)

/-- What a read's decoding of a sector finds. -/
def Stack.decode (k : Stack) (r sector : Nat) : Nat × Nat × Nat :=
  match Tab.find? k.errs sector with
  | none => (0, 0, 0)
  | some _ => rsDecode (k.received r sector)

/-! ### Errors met -/

/-- What a read of some sectors meets: corrected sectors, uncorrectable sectors with their outcome code (R133, R134). -/
structure Met where
  ces : List Nat := []
  ues : List (Nat × Nat) := []
  deriving DecidableEq, Repr

/-- Meet the sectors of a read in region r. -/
def Stack.meet (k : Stack) (r : Nat) (sectors : List Nat) : Met :=
  sectors.foldl (fun m x =>
    match (k.decode r x).1 with
    | 0 => m
    | 1 => { m with ces := m.ces ++ [x] }
    | 2 => { m with ues := m.ues ++ [(x, 1)] }
    | _ => { m with ues := m.ues ++ [(x, 2)] }) {}

/-- Sectors from address a, n bytes. -/
def sectorsIn (a n : Nat) : List Nat :=
  if n = 0 then [] else (List.range ((a + n - 1) / 32 - a / 32 + 1)).map (· + a / 32)

/-- Stored sectors of a slot, by number. -/
def Stack.slotSectors (k : Stack) (slot : Nat) : List Nat :=
  (List.range (sectorsOf (k.code slot))).map (· + 8 * slot)


/-- n bytes from a as a read in region r delivers them: with the errors, and with the correction. -/
def Stack.deliver (k : Stack) (r a n : Nat) : List Byte :=
  (List.range n).map (fun i =>
    let a := a + i
    match Tab.find? k.errs (a / 32) with
    | none => k.byte a
    | some e =>
      let d := k.decode r (a / 32)
      BitVec.ofNat 8 ((k.byte a).toNat ^^^ Tab.get 0 e (a % 32) ^^^ (if d.1 = 1 ∧ d.2.1 = a % 32 then d.2.2 else 0)))

/-- The stack as a read of a slot sees it: the codes of the slot's metadata sector as its decoding delivers them (R105). -/
def Stack.seen (k : Stack) (r slot : Nat) : Stack :=
  match Tab.find? k.errs (metaSector slot) with
  | none => k
  | some _ =>
    let bs := k.deliver r (32 * metaSector slot) 32
    { k with codes := (List.range 64).foldl (fun c i => Tab.set 8 c (slot / 64 * 64 + i) ((bs.getD (i / 2) 0).toNat / 16 ^ (i % 2) % 16)) k.codes }

/-- What a read of some of a slot's own sectors meets: its metadata sector first, and nothing more where that cannot be read (R102,
R105). -/
def Stack.meetSlot (k : Stack) (r slot : Nat) (own : List Nat) : Met :=
  if metaSlot slot then k.meet r own
  else if 2 ≤ (k.decode r (metaSector slot)).1 then k.meet r [metaSector slot]
  else k.meet r (metaSector slot :: own)

/-- The sectors that a read of part of a slot needs (R104, R130). -/
def Stack.needs (k : Stack) (slot lo n : Nat) : List Nat :=
  if k.code slot = 0 then sectorsIn (256 * slot + lo) n else k.slotSectors slot

/-- A change of a slot's code rewrites its metadata sector, corrected (R130). -/
def Stack.settle (k : Stack) (r slot : Nat) : Stack :=
  match Tab.find? k.errs (metaSector slot) with
  | none => k
  | some _ => { k.seen r slot with errs := Tab.del k.errs (metaSector slot) }

/-- The 256 bytes of a slot of region r; none for a sector that cannot be read, a reserved code or a malformed header
(R105). -/
def Stack.slot? (k : Stack) (r slot : Nat) : Option (List Byte) :=
  let k := k.seen r slot
  if (k.meetSlot r slot (k.slotSectors slot)).ues ≠ [] then none
  else expandSlot (k.code slot) (k.deliver r (256 * slot) (32 * sectorsOf (k.code slot)))

/-! ### The metadata cache (R102) -/

/-- Touch the metadata line of a slot: a miss replaces the least recently used of 8,192 lines. Answers a miss. -/
def Stack.touchMeta (k : Stack) (slot : Nat) : Stack × Bool :=
  let line := slot / 128
  if metaSlot slot then (k, false)
  else if k.mcache.contains line then ({ k with mcache := line :: k.mcache.filter (· ≠ line) }, false)
  else ({ k with mcache := (line :: k.mcache).take 8192 }, true)

/-- A region's global sector address. -/
def Module.sectorAddr (m : Module) (r sector : Nat) : Nat := mkAddr m.node r (32 * sector)

/-- The UE_LOG word u0 (R134). -/
def ueWord (addr requester outcome : Nat) : Nat := place requester 63 56 + (addr / 32) % 2 ^ 51 * 32 + outcome

/-- Post a memory advisory, at most one per reason and 60 s (R140). -/
def memAdvisory (now r reason : Nat) (m : Module) : Module :=
  match Tab.find? (m.rg r).stack.advised reason with
  | some t => if now < t + 60 * sec then m else go m
  | none => go m
where
  go (m : Module) : Module :=
    (post now 2 4 (srcRegion r) [BitVec.ofNat 8 reason] (m.modStack r (fun k => { k with advised := Tab.put k.advised reason now })))
    |> advise now 0

/-- Account for one corrected sector (R133, R140). -/
def noteCe (now r : Nat) (m : Module) : Module :=
  let m := (m.bump kCE_COUNT 1).modStack r (fun k =>
    { k with ceTimes := (k.ceTimes.filter (fun t => decide (now < t + 3600 * sec))) ++ [now] })
  if m.num kCE_ADVISE < (m.rg r).stack.ceTimes.length then memAdvisory now r 1 m else m

/-- The row of a sector, by pseudo-channel, bank and row (R127): the key of repair. -/
def rowOf (sector : Nat) : Nat :=
  let s := sector / 8
  let pch := (s % 512) ^^^ (s / 512 % 512)
  let i := s / 512
  (pch * 16 + i / 4 % 16) * 12288 + i / 64

/-- Account for one uncorrectable sector: UE_LOG, the event, the row's candidacy and the advisory (R134, R140, R141). -/
def noteUe (now r requester : Nat) (x : Nat × Nat) (m : Module) : Module :=
  let u0 := ueWord (m.sectorAddr r x.1) requester x.2
  let m := (m.bump kUE_COUNT 1).modStack r (fun k =>
    let log := k.ueLog ++ [(u0, now)]
    let row := rowOf x.1
    { k with ueLog := log.drop (log.length - 16)
             candidates := if k.candidates.contains row then k.candidates else k.candidates ++ [row] })
  (post now 2 (if x.2 = 2 then 2 else 1) (srcRegion r) (leBytes 8 u0) m) |> memAdvisory now r 2

/-- Account for what a read met. -/
def noteMet (now r requester : Nat) (x : Met) (m : Module) : Module :=
  forL x.ues (forL x.ces m (fun _ m => noteCe now r m)) (fun u m => noteUe now r requester u m)

/-- "compressed slot malformed" (R105, R392): reason 1 reserved code, 2 header. -/
def noteMalformed (now r requester slot : Nat) (m : Module) : Module :=
  let reason := if 8 < (m.rg r).stack.code slot then 1 else 2
  post now 2 3 (srcRegion r) (leBytes 8 (mkAddr m.node r (256 * slot)) ++ [BitVec.ofNat 8 requester, BitVec.ofNat 8 reason]) m

/-- A request for the region's memory: it ends self-refresh, at the cost of 2 µs (R137). -/
def memRequest (now r : Nat) (m : Module) : Module :=
  let m := if (m.rg r).stack.selfRefresh then m.bump kSR_EXIT_NS 2000 else m
  m.modStack r (fun k => { k with selfRefresh := false, lastReq := now })

/-- A request touches the metadata line of its slot (R102). -/
def touchLine (r slot : Nat) (m : Module) : Module :=
  let x := (m.rg r).stack.touchMeta slot
  (if x.2 then m.bump kMETA_MISS 1 else m).modStack r (fun _ => x.1)

/-! ### Reads -/

/-- Read n bytes of one slot from byte lo, expanded. None where the slot is uncorrectable (R105). -/
def readSlot (now r requester slot lo n : Nat) (m : Module) : Module × Option (List Byte) :=
  let k := (m.rg r).stack.seen r slot
  let m := touchLine r slot m
  let met := k.meetSlot r slot (k.needs slot lo n)
  let m' := noteMet now r requester met m
  if met.ues ≠ [] then (m', none)
  else
    match expandSlot (k.code slot) (k.deliver r (256 * slot) (32 * sectorsOf (k.code slot))) with
    | none => (noteMalformed now r requester slot m', none)
    | some bs => (m', some (sliceB bs lo n))

/-- The pieces of a range, by slot: slot, first byte in it, bytes. -/
def pieces (off len : Nat) : List (Nat × Nat × Nat) :=
  if len = 0 then []
  else (List.range ((off + len - 1) / 256 - off / 256 + 1)).map (fun i =>
    let s := off / 256 + i
    let lo := max off (256 * s)
    (s, lo - 256 * s, min (off + len) (256 * s + 256) - lo))

/-- Read a range of bonded memory, expanded. Answers 0x02 outside the map (R129), 0x01 where a sector is
uncorrectable, with what was read before it. -/
def memRead (now r requester off len : Nat) (m : Module) : Module × Nat × List Byte :=
  if !readable off len then (m, 2, [])
  else
    (pieces off len).foldl (fun (a : Module × Nat × List Byte) p =>
      if a.2.1 ≠ 0 then a
      else
        match readSlot now r requester p.1 p.2.1 p.2.2 a.1 with
        | (m, none) => (m, 1, a.2.2)
        | (m, some bs) => (m, 0, a.2.2 ++ bs)) (memRequest now r m, 0, [])

/-- The read of a record that work needs: does it succeed? -/
def readRecord (now r requester off len : Nat) (m : Module) : Module × Bool :=
  match memRead now r requester off len m with
  | (m, st, _) => (m, st = 0)

/-- Read one slot in stored form: its code and stored sectors (R104). -/
def readStored (now r requester slot : Nat) (m : Module) : Module × Option (Nat × List Byte) :=
  let k := (m.rg r).stack.seen r slot
  let m := touchLine r slot m
  let met := k.meetSlot r slot (k.slotSectors slot)
  let m' := noteMet now r requester met m
  if met.ues ≠ [] then (m', none)
  else if 8 < k.code slot then (noteMalformed now r requester slot m', none)
  else (m', some (k.code slot, k.deliver r (256 * slot) (32 * sectorsOf (k.code slot))))

/-- Read n slots from an offset in stored form: codes, then stored bytes. None where one cannot be read. -/
def readRun (now r requester off n : Nat) (m : Module) : Module × Option (List Nat × List Byte) :=
  (List.range n).foldl (fun (a : Module × Option (List Nat × List Byte)) i =>
    match a.2 with
    | none => a
    | some (cs, st) =>
      match readStored now r requester (off / 256 + i) a.1 with
      | (m, none) => (m, none)
      | (m, some (c, s)) => (m, some (cs ++ [c], st ++ s))) (m, some ([], []))

/-! ### Writes -/

/-- Is the granule of an offset marked used (R138)? The metadata table's granules always are. -/
def Stack.allocBit (k : Stack) (granule : Nat) : Bool :=
  decide (49056 ≤ granule) || (Tab.get 0 k.alloc (granule / 8)).testBit (granule % 8)

/-- The first granule from g on whose bit is clear, among n, wrapping at the end (R409). -/
def Stack.clearFrom (k : Stack) : Nat → Nat → Option Nat
  | 0, _ => none
  | n + 1, g => if k.allocBit g then Stack.clearFrom k n ((g + 1) % 49152) else some g

/-- The granule that memory test has in hand in region r, where it runs (R409). -/
def Module.underTest (m : Module) (r : Nat) : Option Nat :=
  match m.test.reqs.find? (fun b => b.kind == 2 && b.region == r && b.running.isSome) with
  | some b => b.running
  | none => if m.num kMEMTEST_AUTO = 1 then (m.rg r).stack.clearFrom 49152 (Tab.get 0 m.test.granule r) else none

/-- Count a write into granules marked unused (R138, log entry 11); one that memory test has in hand gives no result (R409). -/
def noteAlloc (r off len : Nat) (m : Module) : Module :=
  let gs := (List.range ((off + len - 1) / 2097152 - off / 2097152 + 1)).map (· + off / 2097152)
  if len ≠ 0 ∧ gs.any (fun g => !(m.rg r).stack.allocBit g) then
    let m := m.bump kUNMAPPED_WRITES 1
    match m.underTest r with
    | some g => if gs.contains g then m.modTest (fun t => { t with touched := Tab.set 0 t.touched r 1 }) else m
    | none => m
  else m

/-- Replace a whole slot: its code and stored sectors, errors of those sectors cleared (R104, R134). -/
def Stack.putSlot (k : Stack) (slot code : Nat) (st : List Byte) : Stack :=
  let k' := k.putBytes (256 * slot) (fitB (32 * sectorsOf code) st)
  { k' with codes := Tab.set 8 k.codes slot code
            errs := k.errs.filter (fun e => !(decide (8 * slot ≤ e.1) && decide (e.1 < 8 * slot + sectorsOf code))) }

/-- Metadata sector readable? A slot whose code cannot be read is left unchanged (R105). -/
def metaOk (now r requester slot : Nat) (m : Module) : Module × Bool :=
  let met := (m.rg r).stack.meet r [metaSector slot]
  (noteMet now r requester met (touchLine r slot m), met.ues = [])

/-- Write a whole slot with a code (stored form). COMP_SLOTS and COMP_SAVED count codes 0x1–0x8 (R125). -/
def writeStored (now r requester slot code : Nat) (st : List Byte) (m : Module) : Module × Bool :=
  let (m, ok) := metaOk now r requester slot m
  if !ok then (m, false)
  else
    let m := if code = 0 ∨ 8 < code then m else (m.bump kCOMP_SLOTS 1).bump kCOMP_SAVED (8 - sectorsOf code)
    (m.modStack r (fun k => (k.settle r slot).putSlot slot code st), true)

/-- Set the codes of n slots from a slot to 0x8, without writing data (R101, R148, R172); a slot whose metadata sector cannot be
read stays as it is (R105). A cleared slot counts in no counter of compressed slots (DESIGN CHOICE, log entry 165). -/
def clearCodes (now r requester slot n : Nat) (m : Module) : Module :=
  forN n (noteAlloc r (256 * slot) (256 * n) m) (fun i m =>
    let (m, ok) := metaOk now r requester (slot + i) m
    if ok then m.modStack r (fun k => (k.settle r (slot + i)).putSlot (slot + i) 8 []) else m)

/-- Write part of a slot (R104, R130): a compressed slot is expanded, merged and stored raw; a raw slot writes the
sectors it touches: one that it covers in part is read, corrected and merged. -/
def writePart (now r requester slot lo : Nat) (bs : List Byte) (m : Module) : Module × Bool :=
  let n := bs.length
  let k := (m.rg r).stack.seen r slot
  if n = 256 then writeStored now r requester slot 0 bs m
  else if k.code slot = 0 then
    let (m, ok) := metaOk now r requester slot m
    let a := 256 * slot + lo
    let cut := (sectorsIn a n).filter (fun x => decide (32 * x < a) || decide (a + n < 32 * x + 32))
    let met := k.meet r cut
    let m := noteMet now r requester met m
    if !ok ∨ met.ues ≠ [] then (m, false)
    else (m.modStack r (fun k =>
      let k' := (cut.foldl (fun (y : Stack) x => y.putBytes (32 * x) (k.deliver r (32 * x) 32)) k).putBytes a bs
      { k' with errs := k.errs.filter (fun e => !((sectorsIn a n).contains e.1)) }), true)
  else
    match readSlot now r requester slot 0 256 m with
    | (m, none) => (m, false)
    | (m, some old) =>
      ((m.bump kCOMP_RMW 1).modStack r (fun k => (k.settle r slot).putSlot slot 0 (old.take lo ++ bs ++ old.drop (lo + n))), true)

/-- Write a range of bonded memory, expanded. Answers 0x02 outside the data range, 0x01 where some slot was left
unchanged; the other slots are written (R105). -/
def memWrite (now r requester off : Nat) (bs : List Byte) (m : Module) : Module × Nat :=
  if !writable off bs.length then (m, 2)
  else
    let m := noteAlloc r off bs.length (memRequest now r m)
    (pieces off bs.length).foldl (fun (a : Module × Nat) p =>
      let (m, ok) := writePart now r requester p.1 p.2.1 (sliceB bs (256 * p.1 + p.2.1 - off) p.2.2) a.1
      (m, if ok then a.2 else 1)) (m, 0)

/-- Write whole slots, compressing each (R110). -/
def memWriteComp (now r requester off : Nat) (bs : List Byte) (m : Module) : Module × Nat :=
  if !writable off bs.length then (m, 2)
  else
    let m := noteAlloc r off bs.length (memRequest now r m)
    (List.range (bs.length / 256)).foldl (fun (a : Module × Nat) i =>
      let (c, st) := encodeSlot (sliceB bs (256 * i) 256)
      let (m, ok) := writeStored now r requester (off / 256 + i) c st a.1
      (m, if ok then a.2 else 1)) (m, 0)

/-- A value of little-endian bytes in a region's memory, as the region's controller holds of its own tables and records: what a read
delivers, and 0 where it cannot be read. The work that needs such a record reads it with `readRecord` first, which gives the read its
outcome (DESIGN CHOICE, log entry 144). -/
def Module.peek (m : Module) (r off n : Nat) : Nat :=
  leNat ((pieces off n).flatMap (fun p => sliceB (((m.rg r).stack.slot? r p.1).getD (zeros 256)) p.2.1 p.2.2))

/-- Bytes of a region's memory, expanded, without the accounting of a read. -/
def Module.peekB (m : Module) (r off n : Nat) : List Byte :=
  (pieces off n).flatMap (fun p => sliceB (((m.rg r).stack.slot? r p.1).getD (zeros 256)) p.2.1 p.2.2)

/-! ### The cluster buffer -/

def bufSlots : Nat := 16384
def bufBytes : Nat := 4194304

/-- The tag of a slot (R103). -/
def Cluster.tag (x : Cluster) (slot : Nat) : Nat := Tab.get 0 x.tags slot

/-- A byte of the buffer; undefined contents are free values (R75). -/
def Cluster.byte (x : Cluster) (rc a : Nat) : Byte :=
  match Tab.find? x.buf a with
  | some v => BitVec.ofNat 8 v
  | none => Config.freeBuf x.epoch rc a

/-- Does a range touch a line with an uncorrectable error (R75)? Only lines that hold stored bytes are read. -/
def Cluster.badLine (x : Cluster) (a n : Nat) : Bool :=
  x.ueLines.any (fun l => decide (64 * l < a + n) && decide (a < 64 * l + 64))

/-- A slot's stored bytes, by its tag. -/
def Cluster.storedSlot (x : Cluster) (rc slot : Nat) : List Byte :=
  (List.range (32 * sectorsOf (x.tag slot))).map (fun i => x.byte rc (256 * slot + i))

/-- A slot expanded by its tag (R111); none for a malformed slot. -/
def Cluster.slot? (x : Cluster) (rc slot : Nat) : Option (List Byte) := expandSlot (x.tag slot) (x.storedSlot rc slot)

/-- Is reading a slot uncorrectable (R75, R105)? -/
def Cluster.slotBad (x : Cluster) (rc slot lo n : Nat) : Bool :=
  (if x.tag slot = 0 then x.badLine (256 * slot + lo) n else x.badLine (256 * slot) (32 * sectorsOf (x.tag slot)))
    || (x.slot? rc slot).isNone

/-- The malformed slots of a range: their lines are readable, their tag or header is not (R105, R108). -/
def Cluster.malformed (x : Cluster) (rc a n : Nat) : List Nat :=
  ((pieces a n).filter (fun p => (x.slot? rc p.1).isNone && !x.badLine (256 * p.1) (32 * sectorsOf (x.tag p.1)))).map (·.1)

/-- Read bytes of the buffer from a byte address: expanded bytes, and whether some of it is uncorrectable. -/
def Cluster.read (x : Cluster) (rc a n : Nat) : List Byte × Bool :=
  ((pieces a n).flatMap (fun p => sliceB ((x.slot? rc p.1).getD (zeros 256)) p.2.1 p.2.2),
    (pieces a n).any (fun p => x.slotBad rc p.1 p.2.1 p.2.2))

/-- A range's compressed slots, as COMP_UNEXPECTED counts them (R111). -/
def Cluster.compressed (x : Cluster) (a n : Nat) : Nat :=
  ((pieces a n).filter (fun p => x.tag p.1 ≠ 0)).length

/-- Write bytes into one slot's raw form: the tag becomes 0x0; a part written to a slot tagged 0x1–0x8 leaves the bytes
it did not write undefined (R103). -/
def Cluster.writeSlot (x : Cluster) (free slot lo : Nat) (bs : List Byte) : Cluster :=
  let base := if x.tag slot = 0 ∨ bs.length = 256 then x.buf
    else forN 256 x.buf (fun i b => Tab.put b (256 * slot + i) (Config.freeByte free (256 * slot + i)).toNat)
  let buf := forN bs.length base (fun i b => Tab.put b (256 * slot + lo + i) (bs.getD i 0).toNat)
  { x with buf := buf, tags := Tab.set 0 x.tags slot 0
           ueLines := x.ueLines.filter (fun l =>
             !(decide (256 * slot + lo ≤ 64 * l) && decide (64 * l + 64 ≤ 256 * slot + lo + bs.length))) }

/-- Write a range of the buffer raw. -/
def Cluster.write (x : Cluster) (free a : Nat) (bs : List Byte) : Cluster :=
  (pieces a bs.length).foldl (fun x p => x.writeSlot free p.1 p.2.1 (sliceB bs (256 * p.1 + p.2.1 - a) p.2.2)) x

/-- Put a slot in stored form with its tag (R89, R103). -/
def Cluster.putSlot (x : Cluster) (slot tag : Nat) (st : List Byte) : Cluster :=
  let n := 32 * sectorsOf tag
  { x with buf := forN n x.buf (fun i b => Tab.put b (256 * slot + i) (st.getD i 0).toNat)
           tags := Tab.set 0 x.tags slot tag
           ueLines := x.ueLines.filter (fun l => !(decide (256 * slot ≤ 64 * l) && decide (64 * l + 64 ≤ 256 * slot + n))) }

/-- "compressed slot malformed" for slots of a cluster's buffer (R105). The event's fields are those of R392, with the slot's byte
address in the buffer in place of a global address, and requester 0 for a unit (DESIGN CHOICE, log entry 141). -/
def noteBufMalformed (now r c requester : Nat) (slots : List Nat) (m : Module) : Module :=
  forL slots m (fun slot m =>
    post now 2 3 (srcCluster r c) (leBytes 8 (256 * slot) ++ [BitVec.ofNat 8 requester, BitVec.ofNat 8 (if 8 < (m.cl r c).tag slot then 1 else 2)]) m)

end Sys2Proof.Machine
end

