-- ==== Sys2Proof/Machine/Operands.lean ====
section
/-! DEFINITION. Descriptor fields (R43, R44, R77), element packing (R51), operand rows, generators (R28, R57). -/

namespace Sys2Proof

open Sys2Proof.Machine

/-! ### The common header (R77) -/

def Desc.cls (d : Desc) : Nat := fld d.w0 63 60
def Desc.ctx (d : Desc) : Nat := fld d.w0 59 57
def Desc.order (d : Desc) : Bool := fldB d.w0 56
def Desc.gen (d : Desc) : Nat := fld d.w0 55 48
def Desc.queue (d : Desc) : Nat := fld d.w0 47 42
def Desc.prio (d : Desc) : Nat := fld d.w0 41 40
def Desc.cluster (d : Desc) : Nat := fld d.w0 39 36
def Desc.unit (d : Desc) : Nat := fld d.w0 35 32
def Desc.tag (d : Desc) : Nat := fld d.w0 31 0
def Desc.waitA (d : Desc) : Nat := fld d.w1 63 56
def Desc.waitAVal (d : Desc) : Nat := fld d.w1 55 40
def Desc.waitB (d : Desc) : Nat := fld d.w1 39 32
def Desc.waitBVal (d : Desc) : Nat := fld d.w1 31 16
def Desc.sig (d : Desc) : Nat := fld d.w1 15 8
def Desc.cpl (d : Desc) : Bool := fldB d.w1 7

/-- The 64 bytes of a descriptor. -/
def Desc.toBytes (d : Desc) : List Byte :=
  [d.w0, d.w1, d.w2, d.w3, d.w4, d.w5, d.w6, d.w7].flatMap (fun w => leBytes 8 w.toNat)

/-- A descriptor from its 64 bytes. -/
def Desc.ofBytes (b : List Byte) : Desc :=
  let w := fun i => BitVec.ofNat 64 (leAt b (8 * i) 8)
  ⟨w 0, w 1, w 2, w 3, w 4, w 5, w 6, w 7⟩

end Sys2Proof

namespace Sys2Proof.Machine

/-! ### Element packing (R51) -/

/-- Bytes of a packed row of n elements. -/
def rowBytes (f : Fmt) (n : Nat) : Nat := if f.width = 6 then 3 * ceilDiv n 4 else ceilDiv (n * f.width) 8

/-- Code of element i of a packed row held as a little-endian number. -/
def elemCode (f : Fmt) (row i : Nat) : Nat := (row >>> (f.width * i)) % 2 ^ f.width

/-- The packed bytes of a row of codes. -/
def packRow (f : Fmt) (codes : List Nat) : List Byte := leBytes (rowBytes f codes.length) (packBits f.width codes)

/-- Values of the elements of a packed row. -/
def rowValues (f : Fmt) (bytes : List Byte) (n : Nat) : List FV :=
  let v := leNat bytes
  (List.range n).map (fun i => decodeFmt f (elemCode f v i))

/-! ### Generators (R28) -/

/-- One step of the Galois generator x²⁴ + x²³ + x²² + x¹⁷ + 1, in its right-shifting form (log entry 12). -/
def lfsrStep (x : Nat) : Nat := if x % 2 = 1 then (x / 2) ^^^ 0xE10000 else x / 2

/-- 24 steps, between two uses. -/
def lfsrNext (x : Nat) : Nat := (List.range 24).foldl (fun x _ => lfsrStep x) x

/-- A seed, with 0x00_0001 in place of zero. -/
def seedOf (x : Nat) : Nat := if x % 2 ^ 24 = 0 then 1 else x % 2 ^ 24

/-- The state of generator key = unit × 64 + lane; one never run has the state of SEED = 0. -/
def genGet (g : Tab Nat) (key : Nat) : Nat := (Tab.find? g key).getD (seedOf key)

/-- n numbers of a sequence, and the state after them. -/
def lfsrTake : Nat → Nat → List Nat × Nat
  | 0, x => ([], x)
  | n + 1, x => let r := lfsrTake n (lfsrNext x); (x :: r.1, r.2)

/-- Seed the 64 lanes of unit u for a matrix descriptor. -/
def seedLanes (g : Tab Nat) (u seed : Nat) : Tab Nat :=
  forN 64 g (fun l g => Tab.put g (u * 64 + l) (seedOf (seed ^^^ (u * 64 + l))))

/-! ### Work on one unit -/

/-- The working state of a descriptor on one unit: the cluster with its buffer, the unit's accumulator memory, the
region's generators, flags raised and AMAX. `rc` = 16 × region + cluster, `u` = region-local unit number. Of work that stops
early: the array cycles issued, or the rows done, the tile rows written so far, and malformed slots that it met. -/
structure Vm where
  x : Cluster
  un : UnitSt
  gens : Tab Nat
  rc : Nat
  u : Nat
  free : Nat
  flags : Flags := 0
  amax : FV := fvZero
  issued : Nat := 0
  wrote : Nat := 0
  malformed : List Nat := []
  deriving DecidableEq, Repr

/-- A word of accumulator memory; undefined contents are free values (R34). -/
def Vm.word (v : Vm) (row lane : Nat) : Nat :=
  match Tab.find? v.un.rows (row * 64 + lane) with
  | some w => w
  | none => (Config.freeTile v.un.epoch (v.rc * 8 + v.u % 8) (row * 64 + lane)).toNat

def Vm.setWord (v : Vm) (row lane w : Nat) : Vm :=
  { v with un := { v.un with rows := Tab.put v.un.rows (row * 64 + lane) w } }

def Vm.raise (v : Vm) (f : Flags) : Vm := { v with flags := v.flags ||| f }

/-- Take the next number of lane l. -/
def Vm.draw (v : Vm) (l : Nat) : Vm × Nat :=
  let x := genGet v.gens (v.u * 64 + l)
  ({ v with gens := Tab.put v.gens (v.u * 64 + l) (lfsrNext x) }, x)

/-- A number for a rounding: one of lane l when it is stochastic, none when it is to nearest even. -/
def Vm.number (v : Vm) (stoch : Bool) (l : Nat) : Vm × Option Nat :=
  if stoch then let (v, r) := v.draw l; (v, some r) else (v, none)

/-- Has a row of a range an uncorrectable error (R35)? -/
def UnitSt.badRow (u : UnitSt) (lo n : Nat) : Bool := u.ueRows.any (fun r => decide (lo ≤ r) && decide (r < lo + n))

/-- Is a row of a range tainted (R35)? -/
def UnitSt.tainted (u : UnitSt) (lo n : Nat) : Bool :=
  u.taintAll || u.taints.any (fun t => decide (t.lo < lo + n) && decide (lo ≤ t.hi))

/-- Record a tainted range; a fifth taints every row (R35). A range that is tainted already is recorded again, and counts
as one more (DESIGN CHOICE, log entry 133). -/
def UnitSt.taint (u : UnitSt) (lo n : Nat) : UnitSt :=
  if u.taintAll then { u with taints := [⟨0, 2047, [(0, 2047)]⟩] }
  else if 4 ≤ u.taints.length then { u with taintAll := true, taints := [⟨0, 2047, [(0, 2047)]⟩] }
  else { u with taints := u.taints ++ [⟨lo, lo + n - 1, [(lo, lo + n - 1)]⟩] }

/-- What is left of intervals when rows lo..lo+n−1 have been written. -/
def cutIntervals (lo n : Nat) (xs : List (Nat × Nat)) : List (Nat × Nat) :=
  if n = 0 then xs
  else xs.flatMap (fun p =>
    if p.2 < lo ∨ lo + n ≤ p.1 then [p]
    else (if p.1 < lo then [(p.1, lo - 1)] else []) ++ (if lo + n ≤ p.2 then [(lo + n, p.2)] else []))

/-- Rows written by a matrix descriptor with ACC = 0 or by a vector descriptor: a range all of whose rows have been
written is no longer tainted (R35). A written row holds no uncorrectable error. -/
def UnitSt.rewrote (u : UnitSt) (lo n : Nat) : UnitSt :=
  let ts := (u.taints.map (fun t => { t with todo := cutIntervals lo n t.todo })).filter (fun t => t.todo ≠ [])
  { u with taints := ts, taintAll := u.taintAll && ts ≠ []
           ueRows := u.ueRows.filter (fun r => !(decide (lo ≤ r) && decide (r < lo + n))) }

end Sys2Proof.Machine
end

