-- ==== Sys2Proof/Machine/Counters.lean ====
section
/-! DEFINITION. Stage queue records (R192), credits (R193), increments of sync counters with the entries they free
(R82, R193), and writes to a global address. -/

namespace Sys2Proof.Machine

/-! ### Stage queue records (R192) -/

structure SqRec where
  out : Bool
  enable : Bool
  ring : Nat
  slots : Nat
  entry : Nat
  region : Nat
  sig : Nat
  freeSig : Nat
  peer : Nat
  peerq : Nat
  deriving DecidableEq, Repr

def sqRecOf (b : List Byte) : SqRec :=
  let q0 := leAt b 0 8
  let q1 := leAt b 8 8
  let q2 := leAt b 16 8
  { out := bit q0 63, enable := bit q0 62, ring := bits q0 55 0, slots := bits q1 63 48, entry := bits q1 47 24,
    region := bits q1 23 20, sig := bits q1 15 8, freeSig := bits q1 7 0, peer := bits q2 63 49, peerq := bits q2 48 44 }

def Module.sqRec (m : Module) (i : Nat) : SqRec := sqRecOf (m.blob (kSTAGEQ + i))

/-- Does record i's queue run, or still drain (R194, R396)? -/
def Module.stageOn (m : Module) (i : Nat) : Bool := (m.sqRec i).enable || m.cycling (.stageQueue i)

/-- Does the queue run, or drain, in its region's present generation (R194, R396)? -/
def queueLive (m : Module) (i : Nat) : Bool := m.stageOn i && (m.sq i).gen == m.gen (m.sqRec i).region

/-- Send a CREDIT frame for record i to its PEER: n credits, 0 to ask for a grant (R193, R234). -/
def sendCredit (now i n : Nat) (m : Module) : Module :=
  let q := m.sqRec i
  let f := m.mkReq opCREDIT q.region (m.gen q.region) (mkAddr q.peer 0 0) n []
  sendOnly now { f with group := q.peerq } m

/-- n increments of FREE_SIG at inbound record i: the oldest arrived entries become free, their credits return to
PEER, and increments with no such entry are excess (R193). -/
def freeEntries (now i n : Nat) (m : Module) : Module :=
  let q := m.sq i
  let k := min n (q.arrivedN - q.freedN)
  let m := if n = k then m else m.bump kFREE_EXCESS (n - k)
  if k = 0 then m else sendCredit now i k (m.modSq i (fun q => { q with freedN := q.freedN + k }))

/-- Increment counter k of region r by n (R82), with what its increments free. -/
def incCounter (now r k n : Nat) (m : Module) : Module :=
  let m := m.modWork r (fun w => w.addCounter k n)
  if 255 ≤ k ∨ n = 0 then m
  else
    forN 32 m (fun i m =>
      let q := m.sqRec i
      if queueLive m i && !q.out && q.region == r && q.freeSig == k then freeEntries now i n m else m)

/-! ### Writes to a global address -/

/-- Pieces of at most n bytes, with their offsets. -/
def chop (n : Nat) (bs : List Byte) : List (Nat × List Byte) :=
  if n = 0 then [] else (List.range (ceilDiv bs.length n)).map (fun i => (n * i, (bs.drop (n * i)).take n))

/-- Write bytes at a global address for region r: into this module's memory, or by WRITE frames (R14, R252). -/
def writeGlobal (now r requester addr : Nat) (bs : List Byte) (m : Module) : Module × Nat :=
  if addrNode addr = m.node then memWrite now (addrRegion addr) requester (addrOff addr) bs m
  else issueAll now r 0 ((chop 4096 bs).map (fun p => m.mkReq opWRITE r (m.gen r) (addr + p.1) 0 p.2)) m

end Sys2Proof.Machine
end

