-- ==== Sys2Proof/Machine/Matrix.lean ====
section
/-! DEFINITION. The matrix array and its epilogue (R18–R39, R43, R45, R46). -/

namespace Sys2Proof.Machine

/-- One array operand (w2 and w3 of R43). -/
structure ArrayOp where
  fmt : Nat
  comp : Bool
  mx : Bool
  sc : Nat
  str : Nat
  base : Nat
  deriving DecidableEq, Repr

/-- The body of a matrix descriptor (R43). -/
structure Mat where
  a : ArrayOp
  b : ArrayOp
  k : Nat
  n : Nat
  m : Nat
  gc : Nat
  acc : Bool
  hold : Bool
  accbase : Nat
  srm : Nat
  seed : Nat
  ktotal : Nat
  epi : Bool
  ofmt : Nat
  act : Nat
  oscm : Nat
  bias : Bool
  cscl : Bool
  ornd : Bool
  obase : Nat
  oscale : Nat
  vec : Nat
  ostr : Nat
  scale : Nat
  deriving DecidableEq, Repr

def arrayOp (w : W64) : ArrayOp :=
  { fmt := fld w 63 60, comp := fldB w 59, mx := fldB w 58, sc := fld w 45 32, str := fld w 29 16, base := fld w 13 0 }

def matOf (d : Desc) : Mat :=
  { a := arrayOp d.w2, b := arrayOp d.w3, k := fld d.w4 63 44, n := fld d.w4 43 31, m := fld d.w4 30 18, gc := fld d.w4 17 16,
    acc := fldB d.w4 12, hold := fldB d.w4 11, accbase := fld d.w4 10 0, srm := fld d.w5 63 62, seed := fld d.w5 55 32,
    ktotal := fld d.w5 31 0, epi := fldB d.w6 63, ofmt := fld d.w6 62 59, act := fld d.w6 58 56, oscm := fld d.w6 55 54,
    bias := fldB d.w6 53, cscl := fldB d.w6 52, ornd := fldB d.w6 51, obase := fld d.w6 45 32, oscale := fld d.w6 31 0,
    vec := fld d.w7 63 50, ostr := fld d.w7 49 36, scale := fld d.w7 31 0 }

/-- Group size G. -/
def Mat.g (t : Mat) : Nat := match t.gc with | 0 => 4 | 1 => 8 | _ => 16

/-- Width in bits of an array operand's format; 0 for a code that is no array operand (R19). -/
def arrayWidth (code : Nat) : Nat := match code with
  | 1 => 16 | 2 => 16 | 3 => 8 | 4 => 8 | 5 => 6 | 6 => 6 | 7 => 4 | 8 => 8 | _ => 0

/-- Kc of a pair: by the wider operand (R20). -/
def Mat.kc (t : Mat) : Nat :=
  let w := max (arrayWidth t.a.fmt) (arrayWidth t.b.fmt)
  if w = 16 then 16 else if w = 4 then 128 else 64

def Mat.tiles (t : Mat) : Nat := ceilDiv t.n 64
def Mat.chunks (t : Mat) : Nat := ceilDiv t.k t.kc
def Mat.rows (t : Mat) : Nat := t.tiles * t.m
def Mat.lanes (t : Mat) (tile : Nat) : Nat := min 64 (t.n - 64 * tile)
def Mat.isInt (t : Mat) : Bool := t.a.fmt == 8

/-- Stochastic additions (R27): KTOTAL = 0 means the descriptor's own K; never for INT8 (R25). -/
def Mat.stoch (t : Mat) : Bool :=
  !t.isInt && (t.srm == 2 || (t.srm == 0 && decide (64 * t.g < (if t.ktotal = 0 then t.k else t.ktotal))))

def fmtD (code : Nat) : Fmt := (fmtOf code).getD fp32

/-- An operand's rows and scales lie inside the cluster buffer (R45). -/
def ArrayOp.fits (o : ArrayOp) (rows k : Nat) : Bool :=
  decide (256 * (o.base + (rows - 1) * o.str) + rowBytes (fmtD o.fmt) k ≤ bufBytes)
    && (!o.mx || decide (256 * o.sc + rows * (k / 32) ≤ bufBytes))

/-- An MX flag is valid with codes 0x3–0x7 (R19). -/
def mxOk (o : ArrayOp) : Bool := !o.mx || (decide (3 ≤ o.fmt) && decide (o.fmt ≤ 7))

/-- The conditions on the epilogue's fields, checked only when EPI = 1 (R36–R38, R45). -/
def Mat.epiOk (t : Mat) : Bool :=
  let slots := ceilDiv (rowBytes (fmtD t.ofmt) t.n) 256
  decide (t.ofmt ≤ 9) && decide (t.act ≠ 7) && decide (t.oscm ≠ 3)
    && (t.oscm ≠ 2 || (decide (3 ≤ t.ofmt) && decide (t.ofmt ≤ 7) && decide (t.n % 32 = 0) && decide (slots + 1 ≤ t.ostr)))
    && (t.ofmt ≠ 9 || (t.isInt && decide (t.scale = 0x3F800000) && !t.cscl && !t.bias && decide (t.act = 0) && decide (t.oscm = 0)))
    && decide (256 * (t.obase + (t.m - 1) * t.ostr + (if t.oscm = 2 then t.ostr else 0)) + (if t.oscm = 2 then 0 else rowBytes (fmtD t.ofmt) t.n) ≤ bufBytes)
    && (!(t.bias || t.cscl) || decide (256 * t.vec + 8 * t.n ≤ bufBytes))

/-- A matrix body that runs; any other completes with 0x02 (R45). -/
def Mat.ok (t : Mat) : Bool :=
  let wa := arrayWidth t.a.fmt
  let wb := arrayWidth t.b.fmt
  decide (wa ≠ 0) && decide (wb ≠ 0) && ((t.a.fmt == 8) == (t.b.fmt == 8)) && mxOk t.a && mxOk t.b
    && decide (t.k ≠ 0) && decide (t.n ≠ 0) && decide (t.m ≠ 0) && decide (t.n ≤ 4096) && decide (t.m ≤ 2048)
    && decide (t.gc ≠ 3) && decide (t.srm ≠ 3) && decide (t.k % t.g = 0)
    && (!(t.a.mx || t.b.mx) || decide (t.k % 32 = 0))
    && decide (t.accbase + t.rows ≤ 2048) && t.a.fits t.m t.k && t.b.fits t.n t.k && (!t.epi || t.epiOk)

/-- Element values of a K-range of one operand row. -/
def opValues (v : Vm) (o : ArrayOp) (row k lo n : Nat) : List FV :=
  let f := fmtD o.fmt
  let bytes := (v.x.read v.rc (256 * (o.base + row * o.str)) (rowBytes f k)).1
  let num := leNat bytes
  (List.range n).map (fun i => decodeFmt f (elemCode f num (lo + i)))

/-- Scale byte of the block that holds element k of a row; 127 without MX scales (R24). -/
def opScale (v : Vm) (o : ArrayOp) (row k e : Nat) : Nat :=
  if o.mx then leNat (v.x.read v.rc (256 * o.sc + row * (k / 32) + e / 32) 1).1 else 127

/-- The bytes of the buffer that a K-range of one operand row takes, its scales included: byte address and length. -/
def opRanges (o : ArrayOp) (row k lo n : Nat) : List (Nat × Nat) :=
  let f := fmtD o.fmt
  let b0 := lo * f.width / 8
  (256 * (o.base + row * o.str) + b0, min (rowBytes f k) (ceilDiv ((lo + n) * f.width) 8) - b0)
    :: (if o.mx then [(256 * o.sc + row * (k / 32) + lo / 32, ceilDiv n 32)] else [])

/-- The exact sum of one group's products, scaled and rounded once to FP32 (R24 steps 2–4). The sum starts from +0, so that products
that are all −0 give +0 (DESIGN CHOICE, log entry 134). -/
def groupSum (xs ys : List FV) (sa sb : Nat) : FR :=
  let s := (xs.zip ys).foldl (fun (a : FR) p =>
    let q := rawMul p.1 p.2
    let t := rawAdd a.1 q.1
    (t.1, a.2 ||| q.2 ||| t.2)) (fvZero, 0)
  if sa = 255 ∨ sb = 255 then invalidNan
  else round32 none (s.1.scale ((sa : Int) + sb - 254), s.2)

/-- One signed 32-bit word, and back. -/
def s32 (w : Nat) : Int := if w % 2 ^ 32 < 2 ^ 31 then (w % 2 ^ 32 : Nat) else ((w % 2 ^ 32 : Nat) : Int) - 2 ^ 32
def u32 (x : Int) : Nat := (x % 2 ^ 32).toNat

/-- Integer value of an exact integer. -/
def FV.toInt (v : FV) : Int := match v with | .num n m e => (if n then -1 else 1) * (dyNat m e : Int) | _ => 0

/-- Saturating INT32 addition (R25). -/
def addSat32 (a b : Int) : Int × Flags :=
  let s := a + b
  if s < -(2 ^ 31) then (-(2 ^ 31), fOVERFLOW) else if 2 ^ 31 - 1 < s then (2 ^ 31 - 1, fOVERFLOW) else (s, 0)

/-- One cycle for one output element: the groups of chunk c are added to the running value in ascending K order. -/
def cellCycle (t : Mat) (av : List FV) (tile c row lane : Nat) (v : Vm) : Vm :=
  let k0 := c * t.kc
  let len := min t.kc (t.k - k0)
  let col := 64 * tile + lane
  let bv := opValues v t.b col t.k k0 len
  let arow := t.accbase + tile * t.m + row
  let start := if c = 0 ∧ !t.acc then 0 else v.word arow lane
  let r := (List.range (ceilDiv len t.g)).foldl (fun (a : Vm × Nat) g =>
    let xs := (av.drop (g * t.g)).take t.g
    let ys := (bv.drop (g * t.g)).take t.g
    if t.isInt then
      let sum := ((xs.zip ys).map (fun p => p.1.toInt * p.2.toInt)).sum
      let (s, fl) := addSat32 (s32 a.2) sum
      (a.1.raise fl, u32 s)
    else
      let (gs, f1) := groupSum xs ys (opScale a.1 t.a row t.k (k0 + g * t.g)) (opScale a.1 t.b col t.k (k0 + g * t.g))
      let (v', rn) := a.1.number t.stoch lane
      let (s, f2) := round32 rn (rawAdd (f32 a.2) gs)
      (v'.raise (f1 ||| f2), toF32 s)) (v, start)
  r.1.setWord arow lane r.2

/-- The activation functions (R37). -/
def activate (code : Nat) (x : FV) : FR :=
  match code with
  | 1 => fMax x fvZero
  | 2 => fGeluTanh x
  | 3 => fGeluErf x
  | 4 => fSilu x
  | 5 => fSigmoid x
  | 6 => fTanh x
  | _ => (x, 0)

/-- emax of a narrow output format (R38). -/
def emaxOf (code : Nat) : Int := match code with | 3 => 8 | 4 => 15 | 5 => 4 | 6 => 2 | _ => 2

/-- The block scale of 32 values (R38, R62): scale byte and whether the block holds a NaN or an infinity. Where the byte is clamped,
the elements are multiplied by the inverse of the clamped scale (DESIGN CHOICE, log entry 135). -/
def blockScale (emax : Int) (xs : List FV) : Nat × Bool :=
  if xs.any (fun x => !x.isFinite) then (255, true)
  else
    let m := maxMag xs
    (if m.isZero then 0 else e8m0 (m.flog2 - emax), false)

/-- The steps of the epilogue up to AMAX for one element (R36). -/
def epiValue (t : Mat) (v : Vm) (tile row lane : Nat) : FV × Flags :=
  let w := v.word (t.accbase + tile * t.m + row) lane
  let x0 : FR := if t.isInt then round32 none (.num (decide (s32 w < 0)) (s32 w).natAbs 0, 0) else (f32 w, 0)
  let then_ := fun (a : FR) (f : FV → FR) => let b := f a.1; ((b.1, a.2 ||| b.2) : FR)
  let col := leNat (v.x.read v.rc (256 * t.vec + 8 * (64 * tile + lane)) 8).1
  let x1 := then_ x0 (fun x => fMul x (f32 t.scale))
  let x2 := if t.cscl then then_ x1 (fun x => fMul x (f32 (col % 2 ^ 32))) else x1
  let x3 := if t.bias then then_ x2 (fun x => fAdd x (f32 (col / 2 ^ 32))) else x2
  then_ x3 (activate t.act)

/-- One finished tile row through the epilogue into the cluster buffer (R36, R38, R39). OFMT = INT32 converts nothing, so under
ORND = 1 it takes no generator number (DESIGN CHOICE, log entry 136). The product by OSCALE is an FP32 step of R36, which rounds before R55's
conversion rounds (DEDUCED, log entry 160). -/
def epiRow (t : Mat) (tile row : Nat) (v : Vm) : Vm :=
  let n := t.lanes tile
  let f := fmtD t.ofmt
  let base := 256 * (t.obase + row * t.ostr)
  let at_ := base + 64 * tile * f.width / 8
  if t.ofmt = 9 then
    let ws := (List.range n).map (fun l => v.word (t.accbase + tile * t.m + row) l)
    let am := ws.foldl (fun a w => maxMag [a, (round32 none (.num false (s32 w).natAbs 0, 0)).1]) v.amax
    { v with x := v.x.write v.free at_ (packRow f ws), amax := am }
  else
    let xs := (List.range n).map (epiValue t v tile row)
    let v := (v.raise (xs.foldl (fun a p => a ||| p.2) 0))
    let v := { v with amax := xs.foldl (fun a p => if p.1.isNan then a else if p.1.abs.gt a then p.1.abs else a) v.amax }
    let blocks := if t.oscm = 2 then (List.range (n / 32)).map (fun b => blockScale (emaxOf t.ofmt) (((xs.drop (32 * b)).take 32).map Prod.fst)) else []
    let r := (List.range n).foldl (fun (a : Vm × List Nat) l =>
      let (v, rn) := a.1.number t.ornd l
      let x := (xs.getD l (fvZero, 0)).1
      if t.oscm = 2 then
        let (sb, bad) := blocks.getD (l / 32) (0, false)
        if bad then (v.raise fINVALID, a.2 ++ [0])
        else
          let (c, fl) := convertCode f rn (x.scale (-(scaleExp sb)))
          (v.raise fl, a.2 ++ [c])
      else
        let (y, f1) := if t.oscm = 1 then fMul x (f32 t.oscale) else (x, 0)
        let (c, f2) := convertCode f rn y
        (v.raise (f1 ||| f2), a.2 ++ [c])) (v, [])
    let x := r.1.x.write v.free at_ (packRow f r.2)
    let x := if t.oscm = 2 then
        x.write v.free (base + 256 * (t.ostr - 1) + 2 * tile) (blocks.map (fun b => BitVec.ofNat 8 b.1)) else x
    { r.1 with x := x }

/-- The bytes of the buffer that a chunk of one output row reads. -/
def cycleRanges (t : Mat) (tile c row : Nat) : List (Nat × Nat) :=
  let k0 := c * t.kc
  let len := min t.kc (t.k - k0)
  opRanges t.a row t.k k0 len ++ (List.range (t.lanes tile)).flatMap (fun l => opRanges t.b (64 * tile + l) t.k k0 len)

/-- Is one of some ranges uncorrectable (R35)? -/
def Vm.anyBad (v : Vm) (xs : List (Nat × Nat)) : Bool := xs.any (fun p => (v.x.read v.rc p.1 p.2).2)

/-- Is something that a chunk of one output row reads uncorrectable (R35)? -/
def cycleBad (t : Mat) (tile c row : Nat) (v : Vm) : Bool :=
  v.anyBad (cycleRanges t tile c row) || (t.acc && decide (c = 0) && v.un.badRow (t.accbase + tile * t.m + row) 1)

/-- Array cycles of one K-chunk of a tile: max(M, L), L cycles being one tile load (R21, R23). -/
def Mat.chunkCycles (t : Mat) : Nat := max t.m (t.kc * arrayWidth t.b.fmt / 8)

/-- The work stops before a row of a chunk of a tile: cycles issued, and tile rows written (R35, R49); `xs` are the ranges that it
was to read. -/
def Mat.stoppedAt (t : Mat) (tile c row : Nat) (xs : List (Nat × Nat)) (v : Vm) : Vm :=
  { v with malformed := (xs.flatMap (fun p => v.x.malformed v.rc p.1 p.2)).eraseDups
           issued := (tile * t.chunks + c) * t.chunkCycles + row, wrote := tile * t.m + (if c = 0 then row else t.m) }

/-- Run one matrix descriptor: tile by tile, chunk by chunk, row by row, then the tile's epilogue rows. Answers 0x01
where something it reads is uncorrectable; rows already written keep partial values (R35). The epilogue of the tiles before the one
that stops has run, and its output stays written (DESIGN CHOICE, log entry 137). -/
def runMatrix (t : Mat) (v0 : Vm) : Vm × Nat :=
  if t.acc ∧ v0.un.tainted t.accbase t.rows then (v0, 1)
  else
    let v := { v0 with gens := seedLanes v0.gens v0.u t.seed }
    let r := (List.range t.tiles).foldl (fun (a : Vm × Nat) tile =>
      let a := (List.range t.chunks).foldl (fun (a : Vm × Nat) c =>
        (List.range t.m).foldl (fun (a : Vm × Nat) row =>
          if a.2 ≠ 0 then a
          else if cycleBad t tile c row a.1 then (t.stoppedAt tile c row (cycleRanges t tile c row) a.1, 1)
          else
            let av := opValues a.1 t.a row t.k (c * t.kc) (min t.kc (t.k - c * t.kc))
            ((List.range (t.lanes tile)).foldl (fun v l => cellCycle t av tile c row l v) a.1, 0)) a) a
      if a.2 ≠ 0 ∨ !t.epi then a
      else
        let vec := if t.bias || t.cscl then [(256 * t.vec + 512 * tile, 8 * t.lanes tile)] else []
        if a.1.anyBad vec then (t.stoppedAt (tile + 1) 0 0 vec a.1, 1) else ((List.range t.m).foldl (fun v row => epiRow t tile row v) a.1, 0)) (v, 0)
    if r.2 = 0 then
      (if t.acc then r.1 else { r.1 with un := r.1.un.rewrote t.accbase t.rows }, 0)
    else ({ r.1 with un := (if t.acc then r.1.un else r.1.un.rewrote t.accbase r.1.wrote).taint t.accbase t.rows }, 1)

/-- Compressed slots read with a COMP field of 0 (R111). -/
def Mat.unexpected (t : Mat) (x : Cluster) : Nat :=
  let cnt := fun (o : ArrayOp) rows => if o.comp then 0
    else ((List.range rows).map (fun i => x.compressed (256 * (o.base + i * o.str)) (rowBytes (fmtD o.fmt) t.k))).sum
  cnt t.a t.m + cnt t.b t.n

/-- The start of a matrix descriptor: Reed latency plus first tile load (R23). -/
def Mat.startCycles (t : Mat) : Nat := 8 + t.kc * arrayWidth t.b.fmt / 8

/-- The array's cycles, per output tile and K-chunk (R23). -/
def Mat.arrayCycles (t : Mat) : Nat := t.tiles * t.chunks * t.chunkCycles

/-- The drain, and the epilogue of the last output tile (R23). -/
def Mat.tailCycles (t : Mat) : Nat := 12 + (if t.epi then (if t.ofmt = 0 ∨ t.ofmt = 9 then 2 * t.m else t.m) else 0)

/-- Cycles of a matrix descriptor that pays its own start (R21, R23). -/
def Mat.cycles (t : Mat) : Nat := t.startCycles + t.arrayCycles + t.tailCycles

end Sys2Proof.Machine
end

