-- ==== Sys2Proof/Machine/Vector.lean ====
section
/-! DEFINITION. The vector lane (R40–R42, R44, R45, R75). -/

namespace Sys2Proof.Machine

/-- A source or destination (w3–w6 of R44). `buf`: cluster-buffer slots; otherwise tile rows. -/
structure VecOp where
  fmt : Nat
  buf : Bool
  stride : Nat
  index : Nat
  deriving DecidableEq, Repr

/-- The body of a vector descriptor (R44). -/
structure Vec where
  vop : Nat
  hold : Bool
  bcast : Bool
  rows : Nat
  len : Nat
  a : VecOp
  b : VecOp
  c : VecOp
  d : VecOp
  scalar : Nat
  ornd : Bool
  deriving DecidableEq, Repr

def vecOp (w : W64) : VecOp := { fmt := fld w 63 60, buf := fldB w 59, stride := fld w 29 16, index := fld w 13 0 }

def vecOf (d : Desc) : Vec :=
  { vop := fld d.w2 63 58, hold := fldB d.w2 57, bcast := fldB d.w2 56, rows := fld d.w2 44 32, len := fld d.w2 31 16,
    a := vecOp d.w3, b := vecOp d.w4, c := vecOp d.w5, d := vecOp d.w6, scalar := fld d.w7 63 32, ornd := fldB d.w7 31 }

/-- The operations (R40). -/
def vopKnown (v : Nat) : Bool := decide (v ≤ 0x0A) || (decide (0x10 ≤ v) && decide (v ≤ 0x15)) || (decide (0x20 ≤ v) && decide (v ≤ 0x25))
def vopUsesB (v : Nat) : Bool := [1, 2, 3, 4, 5, 6, 9, 0x0A, 0x15].contains v
def vopUsesC (v : Nat) : Bool := [4, 0x0A, 0x24, 0x25].contains v
def vopReduces (v : Nat) : Bool := decide (0x20 ≤ v) && decide (v ≤ 0x24)
/-- 32-bit words that a packed result holds per row: one, or two for an index or a state (R40, R41). -/
def vopWords (v : Nat) : Nat := if v = 0x20 ∨ v = 0x21 then 1 else 2
def packedC (v : Nat) : Bool := v == 0x24 || v == 0x25

/-- Slots or tile rows that an element row takes. -/
def VecOp.span (o : VecOp) (n : Nat) : Nat := if o.buf then ceilDiv (rowBytes (fmtD o.fmt) n) 256 else ceilDiv n 64

/-- An element-row operand that lies in range (R45); `src` admits INT32 tile rows. -/
def VecOp.okRows (o : VecOp) (src : Bool) (rows len : Nat) : Bool :=
  if o.buf then
    decide (o.fmt ≤ 8) && decide (256 * (o.index + (rows - 1) * o.stride) + rowBytes (fmtD o.fmt) len ≤ bufBytes)
  else
    (decide (o.fmt = 0) || (src && decide (o.fmt = 9))) && decide (ceilDiv len 64 ≤ o.stride)
      && decide (o.index + (rows - 1) * o.stride + ceilDiv len 64 ≤ 2048)

/-- A packed operand of `words` 32-bit words, format code 0x0 (R40). -/
def VecOp.okPacked (o : VecOp) (words : Nat) : Bool :=
  decide (o.fmt = 0) && (if o.buf then decide (256 * o.index + 4 * words ≤ bufBytes) else decide (o.index + ceilDiv words 64 ≤ 2048))

/-- Is some slot of an operand tagged 0x1–0x7 (R45, R111)? Only cluster-buffer slots have tags. -/
def VecOp.compressed (o : VecOp) (x : Cluster) (rows n : Nat) : Bool :=
  o.buf && (List.range rows).any (fun r => (List.range (ceilDiv n 256)).any (fun i =>
    let t := x.tag (o.index + r * o.stride + i)
    decide (1 ≤ t) && decide (t ≤ 7)))

def VecOp.packedCompressed (o : VecOp) (x : Cluster) (words : Nat) : Bool :=
  o.buf && (List.range (ceilDiv (4 * words) 256)).any (fun i =>
    let t := x.tag (o.index + i)
    decide (1 ≤ t) && decide (t ≤ 7))

/-- A format code and a place that w3's table allows, of an operand that is not used too: in accumulator memory FP32 or INT32 and a
tile row below 2,048 (R44, R45). -/
def VecOp.fieldsOk (o : VecOp) : Bool := decide (o.fmt ≤ 9) && (o.buf || ((decide (o.fmt = 0) || decide (o.fmt = 9)) && decide (o.index < 2048)))

/-- A vector body that runs; any other completes with 0x02 (R45, R111). A field outside its table is refused in an operand that the
operation does not use too, and so is a destination slot with a tag of 0x1–0x7 (log entries 24, 27). -/
def Vec.ok (t : Vec) (x : Cluster) : Bool :=
  vopKnown t.vop && t.a.fieldsOk && t.b.fieldsOk && t.c.fieldsOk && t.d.fieldsOk && decide (t.rows ≠ 0) && decide (t.rows ≤ 4096) && decide (t.len ≠ 0)
    && t.a.okRows true t.rows t.len
    && (!vopUsesB t.vop || t.bcast || t.b.okRows true t.rows t.len)
    && (!vopUsesC t.vop || (if packedC t.vop then t.c.okPacked (2 * t.rows) else t.c.okRows true t.rows t.len))
    && (if vopReduces t.vop then t.d.okPacked (vopWords t.vop * t.rows) else t.d.okRows false t.rows t.len)
    && !(t.a.compressed x t.rows (rowBytes (fmtD t.a.fmt) t.len))
    && !(vopUsesB t.vop && !t.bcast && t.b.compressed x t.rows (rowBytes (fmtD t.b.fmt) t.len))
    && !(vopUsesC t.vop && (if packedC t.vop then t.c.packedCompressed x (2 * t.rows) else t.c.compressed x t.rows (rowBytes (fmtD t.c.fmt) t.len)))
    && !(if vopReduces t.vop then t.d.packedCompressed x (vopWords t.vop * t.rows) else t.d.compressed x t.rows (rowBytes (fmtD t.d.fmt) t.len))

/-- Does the descriptor touch tile rows (R81)? -/
def Vec.usesTiles (t : Vec) : Bool :=
  !t.a.buf || (vopUsesB t.vop && !t.bcast && !t.b.buf) || (vopUsesC t.vop && !t.c.buf) || !t.d.buf

/-- Elements of row r of a source, converted to FP32 on reading (R40). -/
def srcRow (v : Vm) (o : VecOp) (r len : Nat) : List FR :=
  if o.buf then
    (rowValues (fmtD o.fmt) (v.x.read v.rc (256 * (o.index + r * o.stride)) (rowBytes (fmtD o.fmt) len)).1 len).map (fun x => (x, 0))
  else
    (List.range len).map (fun e =>
      let w := v.word (o.index + r * o.stride + e / 64) (e % 64)
      if o.fmt = 9 then round32 none (.num (decide (s32 w < 0)) (s32 w).natAbs 0, 0) else (f32 w, 0))

/-- Word j of a packed operand (R40, R41). -/
def packedWord (v : Vm) (o : VecOp) (j : Nat) : Nat :=
  if o.buf then leNat (v.x.read v.rc (256 * o.index + 4 * j) 4).1 else v.word (o.index + j / 64) (j % 64)

/-- Is what row r of a source reads uncorrectable (R35, R75)? -/
def srcBad (v : Vm) (o : VecOp) (r len : Nat) : Bool :=
  if o.buf then (v.x.read v.rc (256 * (o.index + r * o.stride)) (rowBytes (fmtD o.fmt) len)).2
  else v.un.badRow (o.index + r * o.stride) (ceilDiv len 64)

def packedBad (v : Vm) (o : VecOp) (j n : Nat) : Bool :=
  if o.buf then (v.x.read v.rc (256 * o.index + 4 * j) (4 * n)).2 else v.un.badRow (o.index + j / 64) 1

/-- Carry flags through a step. -/
def FR.then_ (a : FR) (f : FV → FR) : FR := let b := f a.1; (b.1, a.2 ||| b.2)

/-- a · σ(a) · b within 2 ulp (R40): the product of the approximated factor and b is moved as one result. -/
def fSiluMul (a b : FV) : FR :=
  match a, b with
  | .num s m _, .num s' m' _ =>
    if m = 0 ∨ m' = 0 then (.num (s != s') 0 0, 0)
    else deliver (nearF32 0x15 (toF32 a * 2 ^ 32 + toF32 b) 2 (exactMul (exactMul a (fvSigmoid (toFx a))) b))
  | .num s m _, .inf s' => if m = 0 then fMul a b else (.inf (s != s'), 0)
  | _, _ => FR.then_ (fSilu a) (fun x => fMul x b)

/-- One element-wise result in FP32 (R40); any NaN operand gives the canonical NaN and INVALID (R26). -/
def elementOp (vop : Nat) (a b c : FV) : FR :=
  match vop with
  | 0x00 => if a.isNan then invalidNan else (a, 0)
  | 0x01 => fAdd a b
  | 0x02 => fSub a b
  | 0x03 => fMul a b
  | 0x04 => fFma a b c
  | 0x05 => fMax a b
  | 0x06 => fMin a b
  | 0x07 => if a.isNan then invalidNan else (a.abs, 0)
  | 0x08 => if a.isNan then invalidNan else (a.negate, 0)
  | 0x09 => if anyNan [a, b] then invalidNan else (if a.gt b then fvOne else fvZero, 0)
  | 0x0A => if anyNan [a, b, c] then invalidNan else (if c.isZero then b else a, 0)
  | 0x10 => fExp2 a
  | 0x11 => fLog2 a
  | 0x12 => fRcp 0x12 2 a
  | 0x13 => fRsqrt 0x13 2 a
  | 0x14 => fExp a
  | _ => fSiluMul a b

/-- Combine a row in the lane and tree order of R41: `first` starts a lane, `step` adds an element, `comb` joins lanes. A lane starts
with its first element as it is, and a lane without elements takes no part (DESIGN CHOICE, log entry 138). -/
def treeReduce {σ : Type} (xs : List FV) (first : Nat → FV → σ) (step : σ → Nat → FV → σ) (comb : σ → σ → σ) : Option σ :=
  let lane := fun l =>
    ((List.range xs.length).filter (fun i => i % 64 == l)).foldl (fun (a : Option σ) i =>
      match a with
      | none => some (first i (xs.getD i fvZero))
      | some v => some (step v i (xs.getD i fvZero))) none
  let join := fun (a b : Option σ) =>
    match a, b with
    | some x, some y => some (comb x y)
    | some x, none => some x
    | none, y => y
  let up := fun (ls : List (Option σ)) => (List.range (ls.length / 2)).map (fun i => join (ls.getD (2 * i) none) (ls.getD (2 * i + 1) none))
  ((List.range 6).foldl (fun ls _ => up ls) ((List.range 64).map lane)).headD none

def frAdd (a b : FR) : FR := let s := fAdd a.1 b.1; (s.1, a.2 ||| b.2 ||| s.2)

/-- Row sum (R41). -/
def rowSum (xs : List FV) : FR :=
  (treeReduce xs (fun _ x => if x.isNan then invalidNan else (x, 0)) (fun v _ x => frAdd v (x, 0)) frAdd).getD (fvZero, 0)

/-- Row sum of squares, each square fused into its addition (R41). -/
def rowSumSq (xs : List FV) : FR :=
  (treeReduce xs (fun _ x => fMul x x) (fun v _ x => let s := fFma x x v.1; (s.1, v.2 ||| s.2)) frAdd).getD (fvZero, 0)

/-- The extreme of a row and its index (R41): the lowest index of equal values; a NaN takes the row. -/
def rowExtreme (isMax : Bool) (xs : List FV) : FR × Nat :=
  match xs.findIdx? FV.isNan with
  | some i => (invalidNan, i)
  | none =>
    let better := fun (a b : FV × Nat) =>   -- b replaces a
      if isMax then b.1.gt a.1 else a.1.gt b.1
    let r := treeReduce xs (fun i x => (x, i)) (fun v i x => if better v (x, i) then (x, i) else v)
      (fun a b => if better a b then b else if better b a then a else if a.2 ≤ b.2 then a else b)
    (((r.getD (fvZero, 0)).1, 0), (r.getD (fvZero, 0)).2)

/-- The maximum of a row as SMAX_STEP takes it (R40). -/
def rowMax (xs : List FV) : FR :=
  (treeReduce xs (fun _ x => if x.isNan then invalidNan else (x, 0)) (fun v _ x => FR.then_ v (fun y => fMax y x))
    (fun a b => let s := fMax a.1 b.1; (s.1, a.2 ||| b.2 ||| s.2))).getD (fvZero, 0)

/-- One step of the online softmax (R40): the new state from (m, s) and a row. -/
def smaxStepRow (mm ss : FV) (xs : List FV) : FR × FR :=
  let mr := rowMax xs
  let m2 := FR.then_ mr (fun x => fMax mm x)
  let f := FR.then_ (fSub mm m2.1) fExp
  let es := xs.map (fun a => FR.then_ (fSub a m2.1) fExp)
  let efl := es.foldl (fun a e => a ||| e.2) (0 : Flags)
  let r := rowSum (es.map Prod.fst)
  let s2 := frAdd (FR.then_ f (fun x => fMul ss x)) r
  (m2, (s2.1, s2.2 ||| efl))

/-- Write the elements of row r of an element-row destination, converting each (R40, R57). -/
def writeRow (t : Vec) (r : Nat) (xs : List FV) (v : Vm) : Vm :=
  let f := fmtD t.d.fmt
  let a := (List.range xs.length).foldl (fun (a : Vm × List Nat) e =>
    let (v, rn) := a.1.number t.ornd (e % 64)
    let (c, fl) := convertCode f rn (xs.getD e fvZero)
    (v.raise fl, a.2 ++ [c])) (v, [])
  if t.d.buf then { a.1 with x := a.1.x.write v.free (256 * (t.d.index + r * t.d.stride)) (packRow f a.2) }
  else (List.range xs.length).foldl (fun v e => v.setWord (t.d.index + r * t.d.stride + e / 64) (e % 64) (a.2.getD e 0)) a.1

/-- Write word j of a packed destination. -/
def writePacked (t : Vec) (j w : Nat) (v : Vm) : Vm :=
  if t.d.buf then { v with x := v.x.write v.free (256 * t.d.index + 4 * j) (leBytes 4 w) }
  else v.setWord (t.d.index + j / 64) (j % 64) w

/-- Word e of row r's packed result, of `w` words to a row. Under ORND = 1 every destination element takes one number of its lane,
which is the lane of its place in the row, though FP32 holds it exactly (R28); an index is an element too (log entry 139). -/
def writeResult (t : Vec) (w r e x : Nat) (v : Vm) : Vm := writePacked t (w * r + e) x (v.number t.ornd e).1

/-- A packed FP32 result. -/
def writePackedF (t : Vec) (w r e : Nat) (x : FR) (v : Vm) : Vm := writeResult t w r e (toF32 x.1) (v.raise x.2)

/-- The effect of row r. -/
def vecRow (t : Vec) (r : Nat) (v : Vm) : Vm :=
  let as := srcRow v t.a r t.len
  let afl := as.foldl (fun f p => f ||| p.2) (0 : Flags)
  let av := as.map Prod.fst
  let v := v.raise afl
  match t.vop with
  | 0x20 => writePackedF t 1 r 0 (rowSum av) v
  | 0x21 => writePackedF t 1 r 0 (rowSumSq av) v
  | 0x22 => let e := rowExtreme true av; writeResult t 2 r 1 e.2 (writePackedF t 2 r 0 e.1 v)
  | 0x23 => let e := rowExtreme false av; writeResult t 2 r 1 e.2 (writePackedF t 2 r 0 e.1 v)
  | 0x24 =>
    let st := smaxStepRow (f32 (packedWord v t.c (2 * r))) (f32 (packedWord v t.c (2 * r + 1))) av
    writePackedF t 2 r 1 st.2 (writePackedF t 2 r 0 st.1 v)
  | 0x25 =>
    let mm := f32 (packedWord v t.c (2 * r))
    let ss := f32 (packedWord v t.c (2 * r + 1))
    let ys := av.map (fun a => FR.then_ (FR.then_ (fSub a mm) fExp) (fun e => fDiv e ss))
    writeRow t r (ys.map Prod.fst) (v.raise (ys.foldl (fun f p => f ||| p.2) 0))
  | vop =>
    let bs : List FR := if !vopUsesB vop then [] else if t.bcast then List.replicate t.len (f32 t.scalar, 0) else srcRow v t.b r t.len
    let cs : List FR := if vopUsesC vop then srcRow v t.c r t.len else []
    let v := v.raise ((bs ++ cs).foldl (fun f p => f ||| p.2) 0)
    let ys := (List.range t.len).map (fun e => elementOp vop (av.getD e fvZero) (bs.getD e (fvZero, 0)).1 (cs.getD e (fvZero, 0)).1)
    writeRow t r (ys.map Prod.fst) (v.raise (ys.foldl (fun f p => f ||| p.2) 0))

/-- Is what row r reads uncorrectable? -/
def vecBad (t : Vec) (r : Nat) (v : Vm) : Bool :=
  srcBad v t.a r t.len
    || (vopUsesB t.vop && !t.bcast && srcBad v t.b r t.len)
    || (vopUsesC t.vop && (if packedC t.vop then packedBad v t.c (2 * r) 2 else srcBad v t.c r t.len))

/-- First tile row and number of tile rows of the destination. -/
def Vec.destRows (t : Vec) : Nat × Nat :=
  if vopReduces t.vop then (t.d.index, ceilDiv (vopWords t.vop * t.rows) 64)
  else (t.d.index, (t.rows - 1) * t.d.stride + ceilDiv t.len 64)

/-- Does a source read a tainted row (R35)? -/
def Vec.readsTaint (t : Vec) (u : UnitSt) : Bool :=
  let rows := fun (o : VecOp) => !o.buf && (List.range t.rows).any (fun r => u.tainted (o.index + r * o.stride) (ceilDiv t.len 64))
  rows t.a || (vopUsesB t.vop && !t.bcast && rows t.b)
    || (vopUsesC t.vop && (if packedC t.vop then !t.c.buf && u.tainted t.c.index (ceilDiv (2 * t.rows) 64) else rows t.c))

/-- Tile rows that the descriptor has written, row by row. -/
def vecRewrote (t : Vec) (n : Nat) (u : UnitSt) : UnitSt :=
  if t.d.buf then u
  else if vopReduces t.vop then u.rewrote t.d.index (ceilDiv (vopWords t.vop * n) 64)
  else (List.range n).foldl (fun u r => u.rewrote (t.d.index + r * t.d.stride) (ceilDiv t.len 64)) u

/-- Run one vector descriptor row by row; it stops at the first row with an uncorrectable source (R35, R75). The rows done
are counted, and those it has written no longer count as tainted, on either way out. -/
def runVector (t : Vec) (v : Vm) : Vm × Nat :=
  if t.readsTaint v.un then (v, 1)
  else
    let r := (List.range t.rows).foldl (fun (a : Vm × Nat) r =>
      if a.2 ≠ 0 then a
      else if vecBad t r a.1 then (a.1, 1)
      else ({ vecRow t r a.1 with issued := r + 1 }, 0)) (v, 0)
    let un := vecRewrote t r.1.issued r.1.un
    if r.2 = 0 then ({ r.1 with un := un }, 0)
    else ({ r.1 with un := if t.d.buf then un else un.taint t.destRows.1 t.destRows.2 }, 1)

/-- Cycles of the first n rows of a vector descriptor (R42). -/
def Vec.cyclesOf (t : Vec) (n : Nat) : Nat :=
  let half := (t.vop == 4 || t.vop == 0x0A) && !t.a.buf && !t.b.buf && !t.bcast && !t.c.buf
  let quarter := [0x10, 0x11, 0x12, 0x13, 0x14, 0x15, 0x24, 0x25].contains t.vop
  n * ceilDiv t.len 64 * (if quarter then 4 else if half then 2 else 1) + 8 + (if vopReduces t.vop then 6 else 0)

/-- Cycles of a vector descriptor (R42). -/
def Vec.cycles (t : Vec) : Nat := t.cyclesOf t.rows

end Sys2Proof.Machine
end

