-- ==== Sys2Proof/Machine/Stage.lean ====
section
/-! DEFINITION. The conversion stage (R55–R62, R66–R68, R90–R94) and moves (R89, R110, R111). -/

namespace Sys2Proof.Machine

/-! ### Bytes of either space -/

/-- Read n bytes at byte `a` of cluster c's buffer: what precedes the first uncorrectable slot, and the status (R75). A malformed
slot is reported (R105). -/
def bufRead (now r requester c a n : Nat) (m : Module) : Module × Nat × List Byte :=
  let x := m.cl r c
  let rc := 16 * r + c
  (pieces a n).foldl (fun (s : Module × Nat × List Byte) p =>
    if s.2.1 ≠ 0 then s
    else if x.slotBad rc p.1 p.2.1 p.2.2 then
      (noteBufMalformed now r c requester (x.malformed rc (256 * p.1 + p.2.1) p.2.2) s.1, 1, s.2.2)
    else (s.1, 0, s.2.2 ++ sliceB ((x.slot? rc p.1).getD (zeros 256)) p.2.1 p.2.2)) (m, 0, [])

/-- Read either space: `region` true for region offsets, else bytes of the cluster's buffer. -/
def spaceRead (now r requester c : Nat) (region : Bool) (a n : Nat) (m : Module) : Module × Nat × List Byte :=
  if region then memRead now r requester a n m else bufRead now r requester c a n m

/-- Write either space raw. -/
def spaceWrite (now r requester c : Nat) (region : Bool) (a : Nat) (bs : List Byte) (m : Module) : Module × Nat :=
  if region then memWrite now r requester a bs m
  else ((m.modCl r c (fun x => x.write m.free a bs)).useFree, 0)

/-- Byte address of an address field: region offsets as they are, cluster-buffer slots by 256 B. -/
def byteAddr (region : Bool) (a : Nat) : Nat := if region then a else 256 * a

/-- A range that ends inside its space, and may be written where `w`. -/
def spaceOk (w region : Bool) (a n : Nat) : Bool :=
  if region then (if w then writable a n else readable a n) else decide (a + n ≤ bufBytes)

/-! ### The conversion stage -/

/-- The body of a conversion descriptor (R90). -/
structure Conv where
  sfmt : Nat
  scomp : Bool
  sspace : Bool
  saddr : Nat
  dfmt : Nat
  dcomp : Bool
  dspace : Bool
  dmx : Bool
  daddr : Nat
  count : Nat
  cspan : Nat
  smode : Nat
  pow2 : Bool
  margin : Nat
  ornd : Bool
  seed : Nat
  stspace : Bool
  staddr : Nat
  xspace : Bool
  xaddr : Nat
  qfix : Nat
  stage : Nat
  stagelen : Nat
  st40 : Nat
  deriving DecidableEq, Repr

def convOf (d : Desc) : Conv :=
  { sfmt := fld d.w2 63 60, scomp := fldB d.w2 59, sspace := fldB d.w2 58, saddr := fld d.w2 36 0,
    dfmt := fld d.w3 63 60, dcomp := fldB d.w3 59, dspace := fldB d.w3 58, dmx := fldB d.w3 57, daddr := fld d.w3 36 0,
    count := fld d.w4 63 32, cspan := fld d.w4 31 16, smode := fld d.w4 15 14, pow2 := fldB d.w4 13, margin := fld d.w4 12 10,
    ornd := fldB d.w4 9, seed := fld d.w5 63 40, stspace := fldB d.w5 39, staddr := fld d.w5 36 0,
    xspace := fldB d.w6 63, xaddr := fld d.w6 36 0, qfix := fld d.w7 63 32, stage := fld d.w7 31 18, stagelen := fld d.w7 17 4,
    st40 := fld d.w5 39 0 }

/-- Clusters that take part, in ascending order. -/
def Conv.clusters (t : Conv) : List Nat := bitList t.cspan 16

/-- Elements of a share: S = ceil(COUNT / 64n) × 64 (R91). -/
def Conv.share (t : Conv) : Nat := ceilDiv t.count (64 * t.clusters.length) * 64

def Conv.srcBytes (t : Conv) : Nat := rowBytes (fmtD t.sfmt) t.count
def Conv.dstBytes (t : Conv) : Nat := rowBytes (fmtD t.dfmt) t.count
def Conv.blocks (t : Conv) : Nat := ceilDiv t.count 32

/-- 2⁻¹²⁶ ≤ QFIX ≤ 2¹²⁶ (R58, R94). -/
def qfixOk (w : Nat) : Bool := decide (0x00800000 ≤ w) && decide (w ≤ 0x7E800000)

/-- A conversion body that runs, the history record apart; any other completes with 0x02 (R94). -/
def Conv.ok (t : Conv) (lead : Nat) : Bool :=
  decide (t.sfmt ≤ 9) && decide (t.dfmt ≤ 9) && decide (t.count ≠ 0) && t.cspan.testBit lead
    && ((t.sspace && t.dspace) || decide (t.clusters.length = 1))
    && !(t.dcomp && !t.dspace)
    && (!t.dmx || (decide (3 ≤ t.dfmt) && decide (t.dfmt ≤ 7) && decide (t.smode = 0)))
    && (t.smode ≠ 3 || qfixOk t.qfix)
    && decide (t.stage + t.stagelen ≤ bufSlots)
    && spaceOk false t.sspace (byteAddr t.sspace t.saddr) t.srcBytes
    && spaceOk true t.dspace (byteAddr t.dspace t.daddr) t.dstBytes
    && spaceOk true t.stspace (byteAddr t.stspace t.staddr) 32
    && (t.smode ≠ 2 || spaceOk true t.xspace (byteAddr t.xspace t.xaddr) 64)
    && (!t.dmx || spaceOk true t.xspace (byteAddr t.xspace t.xaddr) t.blocks)
    && (t.smode == 2 || t.dmx || decide (t.xaddr = 0))
    && (!t.sspace || decide (t.saddr % 256 = 0)) && (!t.dspace || decide (t.daddr % 256 = 0))
    && (!t.stspace || decide (t.staddr % 32 = 0)) && (t.smode ≠ 2 || !t.xspace || decide (t.xaddr % 64 = 0))

/-- An amax history record (R59): HIST, FILLED, DEPTH, HEAD. -/
structure Hist where
  hist : List Nat
  filled : Nat
  depth : Nat
  head : Nat
  deriving DecidableEq, Repr

def histOf (b : List Byte) : Hist :=
  let d15 := leAt b 60 4
  { hist := (List.range 15).map (fun i => leAt b (4 * i) 4), filled := bits d15 11 8, depth := bits d15 7 4, head := bits d15 3 0 }

/-- Slots of the valid entries: FILLED of them, ending just before HEAD (R60). -/
def Hist.valid (h : Hist) : List Nat := (List.range h.filled).map (fun i => (h.head + h.depth * 16 - 1 - i) % h.depth)

/-- A valid entry is finite and not negative; −0 and subnormals read as 0 (R59). -/
def entryOk (w : Nat) : Bool :=
  match f32 w with
  | .num n m _ => !n || decide (m = 0)
  | _ => false

/-- A record that R59 does not refuse. -/
def Hist.ok (h : Hist) : Bool :=
  decide (h.depth ≠ 0) && decide (h.head < h.depth) && decide (h.filled ≤ h.depth) && h.valid.all (fun i => entryOk (h.hist.getD i 0))

/-- The record after a pass (R60). -/
def Hist.push (h : Hist) (amax : Nat) : List Byte :=
  let hist := h.hist.set h.head amax
  (hist.flatMap (leBytes 4)) ++ leBytes 4 (place (min (h.filled + 1) h.depth) 11 8 + place h.depth 7 4 + place ((h.head + 1) % h.depth) 3 0)

/-- Max finite F of a destination (R58). -/
def maxFinite (f : Fmt) : FV := .num false (f.maxFin false).1 (f.maxFin false).2

/-- floor(log₂(a/b)) of positive finite values. -/
def flog2Ratio (a b : FV) : Int :=
  match a, b with
  | .num _ m1 e1, .num _ m2 e2 =>
    let k : Int := (bitLen m1 : Int) - bitLen m2
    let ge := if 0 ≤ k then decide (m2 * 2 ^ k.toNat ≤ m1) else decide (m2 ≤ m1 * 2 ^ (-k).toNat)
    (if ge then k else k - 1) + e1 - e2
  | _, _ => 0

def twoTo (k : Int) : FV := .num false 1 k

/-- q from an absolute maximum (R58). -/
def quantFactor (dst : Fmt) (pow2 : Bool) (margin : Nat) (mx : FV) : FV :=
  if mx.isZero then fvOne
  else
    let f := maxFinite dst
    let q := if pow2 then twoTo (flog2Ratio f mx - margin)
      else (fDiv f (mx.scale margin)).1
    let q := if (twoTo (-126)).gt q then twoTo (-126) else q
    if q.gt (twoTo 126) then twoTo 126 else q

/-- What a pass counts (R66, R67). -/
structure Stats where
  amax : FV := fvZero
  zero : Nat := 0
  flush : Nat := 0
  sat : Nat := 0
  nonfin : Nat := 0
  flags : Flags := 0
  deriving DecidableEq, Repr

/-- One element converted: its code, and the counts (R67). An INT32 source is converted from its exact value, and AMAX is rounded in
the record alone (DESIGN CHOICE, log entry 142). -/
def convElem (f : Fmt) (q : FV) (rn : Option Nat) (x : FV) (s : Stats) : Nat × Stats :=
  let p := rawMul x q
  let (y, fl) := convert f rn p.1
  let fl := fl ||| p.2
  let zero := y.isZero
  (encodeFmt f y,
    { s with
      amax := if x.isFinite then maxMag [s.amax, x] else s.amax
      zero := s.zero + b2n zero
      flush := s.flush + b2n (zero && x.isFinite && !x.isZero)
      sat := s.sat + b2n (x.isFinite && (fl &&& fOVERFLOW) ≠ 0)
      nonfin := s.nonfin + b2n (!x.isFinite)
      flags := s.flags ||| fl })

/-- A generator number per element, or none (R57). -/
def numbers (stoch : Bool) (seed n : Nat) : List (Option Nat) :=
  if stoch then (lfsrTake n (seedOf seed)).1.map some else List.replicate n none

/-- Cast a list of elements with q. -/
def castList (f : Fmt) (q : FV) (rs : List (Option Nat)) (xs : List FV) (s : Stats) : List Nat × Stats :=
  (List.range xs.length).foldl (fun (a : List Nat × Stats) i =>
    let (c, s) := convElem f q (rs.getD i none) (xs.getD i fvZero) a.2
    (a.1 ++ [c], s)) ([], s)

/-- Cast a share into an MX destination: codes, scale bytes, counts (R62, R67). -/
def castMx (dfmt : Nat) (rs : List (Option Nat)) (xs : List FV) (s : Stats) : List Nat × List Nat × Stats :=
  (List.range (ceilDiv xs.length 32)).foldl (fun (a : List Nat × List Nat × Stats) b =>
    let blk := (xs.drop (32 * b)).take 32
    let (sb, bad) := blockScale (emaxOf dfmt) blk
    if bad then
      let am := blk.foldl (fun am x => if x.isFinite then maxMag [am, x] else am) a.2.2.amax
      (a.1 ++ List.replicate blk.length 0, a.2.1 ++ [255],
        { a.2.2 with amax := am, zero := a.2.2.zero + blk.length, nonfin := a.2.2.nonfin + blk.length, flags := a.2.2.flags ||| fINVALID })
    else
      let (cs, s) := castList (fmtD dfmt) (twoTo (-(scaleExp sb))) (rs.drop (32 * b)) blk a.2.2
      (a.1 ++ cs, a.2.1 ++ [sb], s)) ([], [], s)

/-- First and last element of the share of rank i. -/
def Conv.range (t : Conv) (i : Nat) : Nat × Nat := (min (i * t.share) t.count, min ((i + 1) * t.share) t.count)

/-- Read the elements of one share from its source: status and the elements before an uncorrectable slot. -/
def Conv.readShare (t : Conv) (now r lead i : Nat) (m : Module) : Module × Nat × List FV × List Byte :=
  let f := fmtD t.sfmt
  let (lo, hi) := t.range i
  let a := byteAddr t.sspace t.saddr + lo * f.width / 8
  let n := rowBytes f (hi - lo)
  let (m, st, bs) := spaceRead now r 2 lead t.sspace a n m
  (m, st, rowValues f bs (if st = 0 then hi - lo else bs.length * 8 / f.width), bs)

/-- Compressed source slots under SCOMP = 0 (R111). -/
def Conv.unexpected (t : Conv) (r lead : Nat) (m : Module) : Nat :=
  if t.scomp then 0
  else if t.sspace then ((pieces t.saddr t.srcBytes).filter (fun p => (m.rg r).stack.code p.1 ≠ 0)).length
  else (m.cl r lead).compressed (256 * t.saddr) t.srcBytes

/-- The measure pass (R92): the shares' elements, staged where they fit. Answers the amax. -/
def Conv.measure (t : Conv) (now r lead : Nat) (m : Module) : Module × Nat × FV :=
  let cs := t.clusters
  (List.range cs.length).foldl (fun (a : Module × Nat × FV) i =>
    if a.2.1 ≠ 0 then a
    else
      let (m, st, xs, bs) := t.readShare now r lead i a.1
      let c := cs.getD i 0
      let fits := decide (bs.length ≤ t.stagelen * 256) && decide (t.stagelen ≠ 0)
      let m := if fits then (m.modCl r c (fun x => x.write m.free (256 * t.stage) bs)).useFree else m
      (m, st, xs.foldl (fun am x => if x.isFinite then maxMag [am, x] else am) a.2.2)) (m, 0, fvZero)

/-- AMAX as FP32: the nearest one, where an INT32 source is wider than its 24 bits (R55, R58, R66). -/
def Stats.amax32 (s : Stats) : Nat := toF32 (round32 none (s.amax, 0)).1

/-- The statistics record (R66). -/
def statsRecord (t : Conv) (d : Nat) (s : Stats) : List Byte :=
  [s.amax32, d, sat32 t.count, sat32 s.zero, sat32 s.flush, sat32 s.sat, sat32 s.nonfin, s.flags.toNat].flatMap (leBytes 4)

/-- The numeric watch (R68). -/
def numericWatch (t : Conv) (now r lead : Nat) (s : Stats) (m : Module) : Module :=
  let many := fun (n key : Nat) => decide (m.num key ≠ 0) && decide (t.count < n * 2 ^ m.num key)
  let c := b2n (decide (m.num kWATCH_NONFIN = 1) && decide (0 < s.nonfin)) + 2 * b2n (many s.sat kWATCH_SAT_SHIFT) + 4 * b2n (many s.flush kWATCH_FLUSH_SHIFT)
  if c = 0 then m else post now 1 1 (srcCluster r lead) (leBytes 8 t.st40 ++ [BitVec.ofNat 8 c]) m

/-- Write the destination: raw, or each of its slots compressed (R90, R110); a slot that is covered in part keeps its
other bytes and is encoded anew, which counts as no COMP_RMW (log entry 28). Where that slot cannot be read, it stays as it is and the
others are written (R105). -/
def Conv.writeDst (t : Conv) (now r lead : Nat) (bs : List Byte) (m : Module) : Module × Nat :=
  if !t.dcomp then spaceWrite now r 2 lead t.dspace (byteAddr t.dspace t.daddr) bs m
  else
    let tail := bs.length % 256
    let last := t.daddr + (bs.length - tail)
    if tail = 0 then memWriteComp now r 2 t.daddr bs m
    else
      match readSlot now r 2 (last / 256) 0 256 m with
      | (m, none) => ((memWriteComp now r 2 t.daddr (bs.take (bs.length - tail)) m).1, 1)
      | (m, some old) => memWriteComp now r 2 t.daddr (bs ++ old.drop tail) m

/-- Write the statistics record and, where there is one, the history record: module and status. -/
def Conv.records (t : Conv) (now r lead : Nat) (stats : List Byte) (hist : Option (List Byte)) (m : Module) : Module × Nat :=
  let a := spaceWrite now r 2 lead t.stspace (byteAddr t.stspace t.staddr) stats m
  match hist with
  | none => a
  | some h =>
    let b := spaceWrite now r 2 lead t.xspace (byteAddr t.xspace t.xaddr) h a.1
    (b.1, max a.2 b.2)

/-- `m'` with the memory of region r and the buffer of cluster c as they are in `m`: what could not be written in full is not
written at all (R60, R66), and what was met on the way stays reported. -/
def keepContents (r c : Nat) (m m' : Module) : Module :=
  let k := (m.rg r).stack
  (m'.modStack r (fun x => { x with data := k.data, codes := k.codes, errs := k.errs })).modCl r c (fun _ => m.cl r c)

/-- The outcome of a conversion: module, status, flags, AUX. -/
abbrev ConvOut := Module × Nat × Flags × Nat

/-- The cast pass and the records (R58, R60, R62, R66, R92). -/
def Conv.cast (t : Conv) (now r lead : Nat) (staged : Bool) (q : FV) (hist : Option Hist) (m : Module) : ConvOut :=
  let cs := t.clusters
  let f := fmtD t.dfmt
  let a := (List.range cs.length).foldl (fun (a : Module × Nat × List Nat × List Nat × Stats) i =>
    if a.2.1 ≠ 0 then a
    else
      let c := cs.getD i 0
      let (lo, hi) := t.range i
      let n := rowBytes (fmtD t.sfmt) (hi - lo)
      let fromStage := staged && decide (n ≤ t.stagelen * 256) && decide (t.stagelen ≠ 0)
      let (m, st, xs) :=
        if fromStage then
          let s := bufRead now r 2 c (256 * t.stage) n a.1
          (s.1, s.2.1, rowValues (fmtD t.sfmt) s.2.2 (if s.2.1 = 0 then hi - lo else s.2.2.length * 8 / (fmtD t.sfmt).width))
        else let x := t.readShare now r lead i a.1; (x.1, x.2.1, x.2.2.1)
      let rs := numbers t.ornd (t.seed ^^^ c) xs.length
      let s0 : Stats := { a.2.2.2.2 with flags := 0 }
      let (codes, sc, s) := if t.dmx then castMx t.dfmt rs xs s0 else (let y := castList f q rs xs s0; (y.1, [], y.2))
      let m := m.modCl r c (fun x => { x with convFlags := x.convFlags ||| s.flags.toNat })
      (m, st, a.2.2.1 ++ codes, a.2.2.2.1 ++ sc, { s with flags := s.flags ||| a.2.2.2.2.flags })) (m, 0, [], [], {})
  let (m, st, codes, sc, s) := a
  let d := if t.dmx then 0x3F800000 else toF32 (fDiv fvOne q).1
  let (m, wst) := t.writeDst now r lead (packRow f codes) m
  let (m, xst) := if t.dmx then spaceWrite now r 2 lead t.xspace (byteAddr t.xspace t.xaddr) (sc.map (BitVec.ofNat 8)) m else (m, 0)
  if st ≠ 0 ∨ wst ≠ 0 ∨ xst ≠ 0 then (m, 1, s.flags, s.amax32)
  else
    let (m', wr) := t.records now r lead (statsRecord t d s) (hist.map (fun h => h.push (s.amax32))) m
    if wr ≠ 0 then (keepContents r lead m m', 1, s.flags, s.amax32)
    else (numericWatch t now r lead s m', 0, s.flags, s.amax32)

/-- SMODE 0b00: q = 1.0. -/
def convUnscaled (t : Conv) (now r lead : Nat) (m : Module) : ConvOut := t.cast now r lead false fvOne none m

/-- SMODE 0b11: q = QFIX. -/
def convFixed (t : Conv) (now r lead : Nat) (m : Module) : ConvOut := t.cast now r lead false (f32 t.qfix) none m

/-- SMODE 0b01: measure, combine, cast (R92). -/
def convCurrent (t : Conv) (now r lead : Nat) (hist : Option Hist) (m : Module) : ConvOut :=
  let (m, st, am) := t.measure now r lead m
  if st ≠ 0 then (m, 1, 0, ({ amax := am } : Stats).amax32)
  else t.cast now r lead true (quantFactor (fmtD t.dfmt) t.pow2 t.margin am) hist m

/-- SMODE 0b10: q from the history record, measured first when it holds no entry (R60). -/
def convDelayed (t : Conv) (now r lead : Nat) (m : Module) : ConvOut :=
  let (m, st, b) := spaceRead now r 2 lead t.xspace (byteAddr t.xspace t.xaddr) 64 m
  if st ≠ 0 then (m, 1, 0, 0)
  else
    let h := histOf b
    if !h.ok then (m, 2, 0, 0)
    else if h.filled = 0 then convCurrent t now r lead (some h) m
    else
      let mx := maxMag (h.valid.map (fun i => f32 (h.hist.getD i 0)))
      t.cast now r lead false (quantFactor (fmtD t.dfmt) t.pow2 t.margin mx) (some h) m

/-- Cycles of a conversion (R93). -/
def Conv.cycles (t : Conv) (two : Bool) : Nat :=
  32 + (if two then t.share / 64 + 64 else 0) + t.share / 64 + 16

/-! ### Moves -/

/-- The body of a move (R89). -/
structure Mv where
  sspace : Bool
  saddr : Nat
  dspace : Bool
  daddr : Nat
  slots : Nat
  rows : Nat
  cmode : Nat
  sstride : Nat
  dstride : Nat
  deriving DecidableEq, Repr

def mvOf (d : Desc) : Mv :=
  { sspace := fldB d.w2 58, saddr := fld d.w2 36 0, dspace := fldB d.w3 58, daddr := fld d.w3 36 0,
    slots := fld d.w4 63 50, rows := fld d.w4 49 32, cmode := fld d.w4 31 30, sstride := fld d.w5 63 32, dstride := fld d.w5 31 0 }

/-- First slot of a side. -/
def firstSlot (region : Bool) (a : Nat) : Nat := if region then a / 256 else a

/-- A side's slots lie inside its space (R89, R129). -/
def sideOk (w region : Bool) (a slots rows stride : Nat) : Bool :=
  let last := firstSlot region a + (rows - 1) * stride + slots
  if region then decide (a % 256 = 0) && (if w then decide (256 * last ≤ dataEnd) else decide (256 * last ≤ metaEnd))
  else decide (last ≤ bufSlots)

/-- A move body that runs; any other completes with 0x02. -/
def Mv.ok (t : Mv) : Bool :=
  decide (t.slots ≠ 0) && decide (t.rows ≠ 0) && decide (t.cmode < 2) && !(t.cmode == 1 && !t.dspace)
    && sideOk false t.sspace t.saddr t.slots t.rows t.sstride && sideOk true t.dspace t.daddr t.slots t.rows t.dstride

/-- Copy one slot with its code; `comp`: raw slots are compressed on the way to bonded memory (R110). -/
def moveSlot (comp : Bool) (t : Mv) (now r c src dst : Nat) (m : Module) : Module × Nat :=
  let rc := 16 * r + c
  let got : Module × Option (Nat × List Byte) :=
    if t.sspace then readStored now r 1 src m
    else
      let x := m.cl r c
      if x.badLine (256 * src) (32 * sectorsOf (x.tag src)) ∨ 8 < x.tag src then (m, none)
      else (m, some (x.tag src, x.storedSlot rc src))
  match got with
  | (m, none) => (m, 1)
  | (m, some (code, st)) =>
    if t.dspace then
      let (code, st) := if comp && code == 0 then encodeSlot st else (code, st)
      let (m, ok) := writeStored now r 1 dst code st (noteAlloc r (256 * dst) 256 m)
      (m, if ok then 0 else 1)
    else (m.modCl r c (fun x => x.putSlot dst code st), 0)

/-- Run a move row by row; it stops at an uncorrectable source (R75). A destination slot whose metadata sector is
uncorrectable is left unchanged, the others are written, and the move reports 0x01 (R105). -/
def runMove (comp : Bool) (t : Mv) (now r c : Nat) (m : Module) : Module × Nat :=
  let m := if t.sspace || t.dspace then memRequest now r m else m
  let s := (List.range (t.rows * t.slots)).foldl (fun (a : Module × Nat × Bool) i =>
    if a.2.2 then a
    else
      let row := i / t.slots
      let k := i % t.slots
      let src := firstSlot t.sspace t.saddr + row * t.sstride + k
      let dst := firstSlot t.dspace t.daddr + row * t.dstride + k
      let srcBad := if t.sspace then (readStored now r 1 src a.1).2.isNone
        else ((a.1.cl r c).badLine (256 * src) (32 * sectorsOf ((a.1.cl r c).tag src)) || decide (8 < (a.1.cl r c).tag src))
      let (m, st) := moveSlot comp t now r c src dst a.1
      (m, max a.2.1 st, srcBad)) (m, 0, false)
  (s.1, s.2.1)

end Sys2Proof.Machine
end

