-- ==== Sys2Proof/Machine/Work.lean ====
section
/-! DEFINITION. Descriptor queues, dispatch, completions, contexts and cluster fences (R76–R85, R95–R100). -/

namespace Sys2Proof.Machine

/-! ### Time of work -/

/-- The issue gate in force (R327, R328, R342). -/
def Module.gate (m : Module) (r : Nat) : Nat :=
  if (m.rg r).power.hotGate then 0 else min (m.rg r).power.gate (m.num kHOST_GATE)

/-- Whole nanoseconds of a number of region clock cycles: V–F point (R319), stretched clock (R329). -/
def Module.cyclesNs (m : Module) (r cycles : Nat) : Nat :=
  let p := (m.rg r).power
  cycles * 10 * (if p.stretch then 2 else 1) / (8 - p.fpoint)

/-- The voltage of a V–F point of the calibration set, in mV (R319). -/
def vfMv (m : Module) (r k : Nat) : Nat := leAt (m.blob (kVF_TABLE + r)) (2 * k) 2

/-- The rail setpoint of a region: the voltage of its point, to which a fall goes at 10 mV/µs (R319). -/
def railMv (m : Module) (now r : Nat) : Nat :=
  let p := (m.rg r).power
  let v := vfMv m r p.vpoint
  match p.railFall with
  | none => v
  | some (from_, since) => max v (from_ - (now - since) / 100)

/-- Region clock cycles that begin in a number of nanoseconds. -/
def Module.nsCycles (m : Module) (r ns : Nat) : Nat :=
  let p := (m.rg r).power
  ns * (8 - p.fpoint) / (10 * (if p.stretch then 2 else 1))

/-- Cycles under the issue gate (R49, R327). -/
def Module.gated (m : Module) (r cycles : Nat) : Nat := ceilDiv (cycles * 64) (m.gate r)

/-! ### Queues and flights -/

def Work.queue (w : Work) (q : Nat) : QueueSt := Tab.get {} w.queues q
def Work.modQueue (w : Work) (q : Nat) (f : QueueSt → QueueSt) : Work :=
  { w with queues := Tab.put w.queues q (f (w.queue q)) }
def Work.flight? (w : Work) (id : Nat) : Option Flight := w.flights.find? (fun x => x.id == id)
def Work.modFlight (w : Work) (id : Nat) (f : Flight → Flight) : Work :=
  { w with flights := w.flights.map (fun x => if x.id = id then f x else x) }
def Work.dropFlight (w : Work) (id : Nat) : Work := { w with flights := w.flights.filter (fun x => x.id ≠ id) }
def Module.modFlight (m : Module) (r id : Nat) (f : Flight → Flight) : Module := m.modWork r (fun w => w.modFlight id f)

/-- Dispatched and not completed. -/
def Flight.live (x : Flight) : Bool := x.phase == 1 || x.phase == 2 || x.phase == 4

/-- Completed for SIG_ID, ORDER and FENCE although its record is held (R85). -/
def Flight.done (x : Flight) : Bool := x.phase == 3

def Work.live (w : Work) : List Flight := w.flights.filter Flight.live

/-- Clusters that a descriptor targets: a conversion's are those of CSPAN, and its CLUSTER. -/
def descClusters (d : Desc) : List Nat :=
  if d.cls = 3 then (if (convOf d).clusters.contains d.cluster then (convOf d).clusters else d.cluster :: (convOf d).clusters) else if d.cls = 1 ∨ d.cls = 2 ∨ d.cls = 4 then [d.cluster] else []

/-- Has the cluster dispatched work? -/
def Module.clusterBusy (m : Module) (r c : Nat) : Bool := (m.work r).live.any (fun x => (descClusters x.d).contains c)

/-! ### Completion records (R84, R85) -/

def ringSize (x : QueueSt) : Nat := 2 ^ max 4 x.log2
def ringFull (x : QueueSt) : Bool := decide ((x.tail + 2 ^ 20 - x.head) % 2 ^ 20 = ringSize x)

/-- The 32 B record of R84. -/
def completionRecord (d : Desc) (status gen flags aux : Nat) (unit : Option Nat) (start wake run : Nat) : List Byte :=
  leBytes 8 (place d.tag 63 32 + place status 31 24 + place gen 23 16 + place d.cls 15 12 + place flags 11 8 + place d.queue 7 2)
    ++ leBytes 8 (place aux 63 32 + place d.ctx 31 29 + place (b2n unit.isSome) 28 27 + place (unit.getD 0) 26 24)
    ++ leBytes 8 start ++ leBytes 8 (place (sat32 wake) 63 32 + place (sat32 run) 31 0)

/-- Write a record at index TAIL and advance TAIL. -/
def ringPut (now r q : Nat) (rec_ : List Byte) (m : Module) : Module :=
  let x := (m.work r).queue q
  let m := (writeGlobal now r 1 (x.cplBase + 32 * (x.tail % ringSize x)) rec_ m).1
  m.modWork r (fun w => w.modQueue q (fun x => { x with tail := (x.tail + 1) % 2 ^ 20 }))

/-- A descriptor leaves flight. -/
def leave (r id : Nat) (m : Module) : Module :=
  m.modWork r (fun w => { w.dropFlight id with completed := w.completed + 1 })

/-- Write the records that wait for queue q, oldest first, while its ring has room (R78, R85). -/
def releaseRing (now r q : Nat) (m : Module) : Module :=
  forL ((m.work r).ringWait.filter (fun x => x.1 == q)) m (fun x m =>
    if ringFull ((m.work r).queue q) then m
    else
      let m := ringPut now r q x.2.2 (m.modWork r (fun w => { w with ringWait := w.ringWait.erase x }))
      if x.2.1 = 0 then m else leave r (x.2.1 - 1) m)

/-- Refuse a descriptor (R78): its record goes to the ring of its queue, to the refusal store, or is lost. -/
def refuse (now r : Nat) (d : Desc) (st : Nat) (m : Module) : Module :=
  let m := m.modWork r (fun w => { w with refused := sat32 (w.refused + 1) })
  let x := (m.work r).queue d.queue
  let rec_ := completionRecord d st (m.gen r) 0 0 none 0 0 0
  if x.log2 = 0 then m
  else if ringFull x then
    if 64 ≤ ((m.work r).ringWait.filter (fun y => y.2.1 == 0)).length then
      m.modWork r (fun w => { w with refusalLost := sat32 (w.refusalLost + 1) })
    else m.modWork r (fun w => { w with ringWait := w.ringWait ++ [(d.queue, 0, rec_)] })
  else ringPut now r d.queue rec_ m

/-! ### Submission (R78) -/

/-- Does the region refuse work with 0x08: not in RUN, disabled or being disabled, in reset, or its context fenced
(R78, R375, R396, R398)? -/
def Module.refusesWork (m : Module) (r : Nat) : Bool := !m.inRun || m.fstate r != 0 || m.inReset r

def Module.ctxFenced (m : Module) (r c : Nat) : Bool := (m.num (kCTX_DISABLE + r)).testBit c || m.cycling (.context r c)

/-- The checks of R78 in their order; 0 accepts. -/
def submitStatus (m : Module) (r : Nat) (d : Desc) : Nat :=
  let w := m.work r
  let x := w.queue d.queue
  if m.refusesWork r ∨ m.ctxFenced r d.ctx then 8
  else if d.gen ≠ m.gen r then 3
  else if d.cls = 0 ∨ 8 ≤ d.cls ∨ ((d.cls = 1 ∨ d.cls = 2) ∧ 8 ≤ d.unit ∧ d.unit < 14) ∨ x.enable = false ∨ d.ctx ≠ x.ctx then 2
  else if 4096 ≤ w.flights.length then 7
  else 0

/-- Submit one descriptor: accepted, or refused with its status. -/
def submit (now r : Nat) (d : Desc) (m : Module) : Module :=
  let st := submitStatus m r d
  if st = 0 then
    ((wakePll now r m).modWork r (fun w => { w with flights := w.flights ++ [{ id := w.nextId, d := d }], nextId := w.nextId + 1, accepted := w.accepted + 1 })).status 0
  else (refuse now r d st m).status st

/-- Submit the DESC requests that are held for a place (R268), oldest first, while there is one. -/
def admitHeld (now r : Nat) (m : Module) : Module :=
  forL (m.rg r).heldDesc m (fun x m =>
    let d := Desc.ofBytes x.1.body
    if submitStatus m r d = 7 then m
    else
      let m := submit now r d (m.modR r (fun g => { g with heldDesc := g.heldDesc.erase x }))
      respond now x.1 m.lastStatus 0 [] (m.bump kDESC_HELD_NS (now - x.2)))

/-! ### Dispatch (R79–R81) -/

/-- What a dispatch would take: the unit, the resources, whether the body is refused with 0x02. -/
structure Plan where
  fl : Flight
  unit : Option Nat
  res : List Nat
  bad : Bool
  deriving DecidableEq, Repr

/-- Ranges of tile rows that a matrix or vector descriptor touches. -/
def tileRanges (d : Desc) : List (Nat × Nat) :=
  if d.cls = 1 then [((matOf d).accbase, (matOf d).rows)]
  else if d.cls = 2 then
    let t := vecOf d
    let rows := fun (o : VecOp) => if o.buf then [] else [(o.index, (t.rows - 1) * o.stride + ceilDiv t.len 64)]
    rows t.a ++ (if vopUsesB t.vop ∧ !t.bcast then rows t.b else [])
      ++ (if vopUsesC t.vop then (if packedC t.vop then (if t.c.buf then [] else [(t.c.index, ceilDiv (2 * t.rows) 64)]) else rows t.c) else [])
      ++ (if t.d.buf then [] else [t.destRows])
  else []

def overlap (a b : Nat × Nat) : Bool := decide (a.1 < b.1 + b.2) && decide (b.1 < a.1 + a.2)

/-- The order of R32: does the later descriptor wait for the earlier one on the same unit? -/
def rowsWait (later earlier : Desc) : Bool :=
  if later.cls = 1 ∧ earlier.cls = 1 ∧ (matOf later).acc then false
  else (tileRanges later).any (fun a => (tileRanges earlier).any (fun b => overlap a b))

/-- Live descriptors of a class on a unit of a cluster. -/
def Work.onUnit (w : Work) (cls c u : Nat) : List Flight :=
  w.live.filter (fun x => x.d.cls == cls && x.d.cluster == c && x.unit == some u)

/-- Can the unit's array or vector lane take the descriptor? A matrix descriptor with ACC = 1 follows one that writes
the same rows into the array without waiting (R32). -/
def Work.engineFree (w : Work) (d : Desc) (u : Nat) : Bool :=
  (w.onUnit d.cls d.cluster u).all (fun x => d.cls == 1 && (matOf d).acc && tileRanges x.d == tileRanges d)

def Work.unitTakes (w : Work) (d : Desc) (u : Nat) : Bool :=
  w.engineFree d u && (w.onUnit 1 d.cluster u ++ w.onUnit 2 d.cluster u).all (fun x => !rowsWait d x.d)

/-- Placement by UNIT (R81): refused with 0x02, no free unit, or a unit. -/
inductive Placed where
  | bad
  | wait
  | at_ (u : Nat)
  deriving DecidableEq, Repr

def place81 (w : Work) (d : Desc) (tiles : Bool) : Placed :=
  if d.unit < 8 then (if w.unitTakes d d.unit then .at_ d.unit else .wait)
  else if d.unit = 14 then
    match (w.queue d.queue).lastUnit with
    | none => .bad
    | some u => if w.unitTakes d u then .at_ u else .wait
  else if tiles then .bad
  else
    match (List.range 8).find? (fun u => w.engineFree d u) with
    | none => .wait
    | some u => if w.unitTakes d u then .at_ u else .wait

/-- Resource numbers, as competition compares them (R80). -/
def resUnit (cls c u : Nat) : Nat := cls * 4096 + 8 * c + u
def resConv (c : Nat) : Nat := 3 * 4096 + c
def resLanes : Nat := 5 * 4096

/-- Where the queue last served is kept: by unit, for the update lanes, and once for all conversion stages of a region, since one
descriptor may take several of them (log entry 16). -/
def rrKey (res : Nat) : Nat := if res / 4096 = 3 then 3 * 4096 else res

/-- Do two conversion descriptors name one history record (R61)? -/
def sameRecord (x y : Desc) : Bool :=
  let a := convOf x
  let b := convOf y
  x.cls == 3 && y.cls == 3 && a.smode == 2 && b.smode == 2 && a.xspace == b.xspace && a.xaddr == b.xaddr && (a.xspace || x.cluster == y.cluster)

/-- Is a conversion accepted before x, that names the record of x, still to complete (R61)? -/
def Work.recordBusy (w : Work) (x : Flight) : Bool :=
  w.flights.any (fun y => decide (y.id < x.id) && !y.done && sameRecord x.d y.d)

/-- The conversion stages of some clusters are free. -/
def Work.stagesFree (w : Work) (cs : List Nat) : Bool :=
  !w.live.any (fun y => y.d.cls == 3 && (descClusters y.d).any (fun c => cs.contains c))

/-- The plan for a unit's descriptor: it waits for its unit, also where its body is refused (R79). -/
def planUnit (w : Work) (x : Flight) (ok tiles : Bool) : Option Plan :=
  match place81 w x.d tiles with
  | .bad => some { fl := x, unit := none, res := [], bad := true }
  | .wait => none
  | .at_ u => some { fl := x, unit := some u, res := [resUnit x.d.cls x.d.cluster u], bad := !ok }

/-- Body and resource of a descriptor of queue head x: a plan, or none when its resource is not free (R79). A body that is
refused with 0x02 waits for its resource too. -/
def planBody (m : Module) (r : Nat) (x : Flight) : Option Plan :=
  let w := m.work r
  let d := x.d
  let ok := fun (good : Bool) (res : List Nat) => some ({ fl := x, unit := none, res := res, bad := !good } : Plan)
  match d.cls with
  | 1 => planUnit w x (matOf d).ok (matOf d).acc
  | 2 => planUnit w x ((vecOf d).ok (m.cl r d.cluster)) (vecOf d).usesTiles
  | 3 => if w.stagesFree (descClusters d) ∧ !w.recordBusy x then ok ((convOf d).ok d.cluster) ((descClusters d).map resConv) else none
  | 4 => ok (mvOf d).ok []
  | 5 => if w.live.any (fun y => y.d.cls == 5) then none else ok true [resLanes]
  | 6 =>
    let fop := fld d.w2 63 59
    ok ([opREAD, opWRITE, opACCUM, opGATHER, opREFETCH, opRELEASE, opSTAGE, opCOLL].contains fop && !(fop == opSTAGE && decide (32 ≤ fld d.w5 63 48))) []
  | _ => ok (decide (1 ≤ fld d.w2 63 56) && decide (fld d.w2 63 56 ≤ 7)) []

/-- The region's clocks and memory let it dispatch: it holds work back while its PLL is stopped (R339), while its stack
is being retrained (R417) and while it is in reset, disabled or not in RUN. -/
def Module.dispatches (m : Module) (r : Nat) : Bool :=
  m.inRun && (m.fstate r == 0 || m.fstate r == 1) && !m.inReset r && !(m.rg r).power.pllOff
    && Tab.get 0 m.test.dramRecal r == 0

/-- Conditions of R79 but for waits and stage credits: the plan for the head of queue q. -/
def planBase (m : Module) (r q : Nat) (anyCtx : Bool) : Option Plan :=
  let w := m.work r
  let mine := w.flights.filter (fun x => x.d.queue == q)
  match mine.find? (fun x => x.phase == 0) with
  | none => none
  | some x =>
    if !m.dispatches r ∨ (w.queue q).halted = true ∨ m.ctxFenced r x.d.ctx then none
    else if anyCtx = false ∧ (x.d.ctx ≠ w.active ∨ w.switching) then none
    else if x.d.order ∧ mine.any (fun y => decide (y.id < x.id) && !y.done) then none
    else if (descClusters x.d).any (fun c => w.fence.testBit c) then none
    else planBody m r x

def waitsMet (m : Module) (r : Nat) (d : Desc) : Bool :=
  (m.work r).waitOk d.waitA d.waitAVal && (m.work r).waitOk d.waitB d.waitBVal

/-- Does the descriptor send a stage entry, and of which record? -/
def stageOf (d : Desc) : Option Nat := if d.cls = 6 ∧ fld d.w2 63 59 = opSTAGE then some (fld d.w5 63 48) else none

/-- Does record i's queue take new sends: enabled, not draining, in its region's present generation (R194, R395)? -/
def queueSends (m : Module) (i : Nat) : Bool := (m.sqRec i).enable && !m.cycling (.stageQueue i) && queueLive m i

def creditMet (m : Module) (p : Plan) : Bool :=
  p.bad || match stageOf p.fl.d with
    | none => true
    | some i => queueSends m i && decide (0 < (m.sq i).credits)

/-- A dispatchable head (R79). -/
def plan (m : Module) (r q : Nat) : Option Plan :=
  match planBase m r q false with
  | none => none
  | some p => if waitsMet m r p.fl.d && creditMet m p then some p else none

/-- Round-robin distance of queue q from the queue last served. -/
def rrDist (w : Work) (key q : Nat) : Nat := (q + 127 - Tab.get 63 w.rr key) % 64

/-- Does another dispatchable head go first for a resource of p (R80)? PRIO and then the round-robin put all heads that compete into
one order, so that one of them is beaten by none. -/
def beaten (m : Module) (r q : Nat) (p : Plan) : Bool :=
  (List.range 64).any (fun q' =>
    q' != q && match plan m r q' with
      | none => false
      | some p' => p.res.any (fun key => p'.res.contains key
          && (decide (p.fl.d.prio < p'.fl.d.prio)
              || (p.fl.d.prio == p'.fl.d.prio && decide (rrDist (m.work r) (rrKey key) q' < rrDist (m.work r) (rrKey key) q)))))

/-- Are the waits of d met but for those on counter k? -/
def waitsBut (m : Module) (r : Nat) (d : Desc) (k : Nat) : Bool :=
  (d.waitA == k || (m.work r).waitOk d.waitA d.waitAVal) && (d.waitB == k || (m.work r).waitOk d.waitB d.waitBVal)

/-- Does some stage send of record i meet every dispatch condition except a credit (R195)? -/
def sendLacks (m : Module) (i : Nat) : Bool :=
  (List.range 16).any (fun r => (List.range 64).any (fun q => match planBase m r q false with
    | some p => !p.bad && stageOf p.fl.d == some i && queueSends m i && waitsMet m r p.fl.d && !creditMet m p
    | none => false))

/-- Does some descriptor meet every dispatch condition except a wait on the SIG of record i (R195)? -/
def arrivalLacks (m : Module) (i : Nat) : Bool :=
  let s := m.sqRec i
  let r := s.region
  s.enable && !s.out && decide (s.sig < 255) && (List.range 64).any (fun q => match planBase m r q false with
    | some p => !waitsMet m r p.fl.d && waitsBut m r p.fl.d s.sig && creditMet m p
    | none => false)

/-- A stall that lasts, begins or ends: since when it runs, and the time that it adds as it ends. -/
def stallMark (now : Nat) (since : Option Nat) (on : Bool) : Option Nat × Nat :=
  match since with
  | some t => if on then (some t, 0) else (none, now - t)
  | none => (if on then some now else none, 0)

/-- Note of record i whether its two stall times run from now on. -/
def markStalls (now i : Nat) (out in_ : Bool) (m : Module) : Module :=
  let s := m.sq i
  let a := stallMark now s.stallSince out
  let b := stallMark now s.waitSince in_
  if a.1 = s.stallSince ∧ b.1 = s.waitSince then m
  else ((m.bump (kOUT_STALL_NS + i) a.2).bump (kIN_WAIT_NS + i) b.2).modSq i (fun q => { q with stallSince := a.1, waitSince := b.1 })

/-- Look at the stall times of every stage queue again, after what may start or end one: work that comes or goes, a halt, a counter, a credit,
a switch (R195). -/
def restall (now : Nat) (m : Module) : Module :=
  forL (m.stageqs.map (·.1)) m (fun i m => markStalls now i (sendLacks m i) (arrivalLacks m i) m)

/-- The stall times of a stage queue that restarts or stops end. -/
def settleStalls (now i : Nat) (m : Module) : Module := markStalls now i false false m

/-- Time that stack traffic takes at the rate in force, of its time at full rate (R343). -/
def Module.paced (m : Module) (r n : Nat) : Nat := n * 2 ^ (m.rg r).power.dramLimit

/-- Under a rate limit a fabric request moves the moment from which the stack takes the next one (R343). -/
def pace (now r : Nat) (m : Module) : Module :=
  if (m.rg r).power.dramLimit = 0 then m
  else (m.modPower r (fun p => { p with paceUntil := now + (m.paced r (Config.delayNs m.free) - Config.delayNs m.free) })).useFree

/-- Account for the time spent in the present state (RESIDENCY_NS). -/
def endStay (now r c : Nat) (m : Module) : Module :=
  let x := m.cl r c
  (m.bump (kRESIDENCY_NS + x.sleep) (now - x.since)).modCl r c (fun x => { x with since := now })

/-- Request a start of a sleeping cluster; C1 is left at once (R336, R340). -/
def requestStart (now r c prio : Nat) (m : Module) : Module :=
  let m := wakePll now r m
  if (m.cl r c).sleep ≤ 1 then (if (m.cl r c).sleep = 0 then m else (endStay now r c m).modCl r c (fun x => { x with sleep := 0 }))
  else m.modCl r c (fun x =>
    if x.waking.isSome then x
    else if x.waiting.isSome then { x with waitPrio := max x.waitPrio prio }
    else { x with waiting := some now, waitPrio := prio })

/-- A dispatch that targets a cluster before the time of an IDLE_HINT that names it cancels the hint (R98). -/
def cancelHints (now r : Nat) (d : Desc) (m : Module) : Module :=
  m.modWork r (fun w =>
    let hit := fun (h : Nat × Nat × Nat) => (descClusters d).any (fun c => h.1.testBit c) && decide (now < h.2.1)
    { w with hints := w.hints.filter (fun h => !hit h)
             hintMiss := sat32 (w.hintMiss + (w.hints.filter hit).length) })

/-- The program slot that an update descriptor copies at dispatch (R166, R182). -/
def updSlot (d : Desc) : Nat := fld d.w2 59 56

/-- Carry out the dispatch of a plan. A descriptor whose body is refused cancels no hint and wakes no cluster (DESIGN CHOICE, log entry 164). -/
def startFlight (now r q : Nat) (p : Plan) (m : Module) : Module :=
  let d := p.fl.d
  let cs := if p.bad then [] else descClusters d
  let m := if p.bad then m else cancelHints now r d m
  let leave1 := if cs.any (fun c => (m.cl r c).sleep == 1) then 20 else 0
  let awake := cs.all (fun c => decide ((m.cl r c).sleep ≤ 1))
  let m := forL cs m (fun c m => requestStart now r c d.prio m)
  let m := match stageOf d with
    | some i => if p.bad then m else m.modSq i (fun s => { s with credits := s.credits - 1 })
    | none => m
  let prog := if d.cls = 5 then Tab.get [] (m.rg r).train.progs (updSlot d) else []
  m.modWork r (fun w =>
    let w := { w with dispatched := w.dispatched + 1
                      rr := p.res.foldl (fun t k => Tab.put t (rrKey k) q) w.rr }
    let w := match p.unit with
      | some u => w.modQueue q (fun x => { x with lastUnit := some u })
      | none => w
    w.modFlight p.fl.id (fun x =>
      { x with phase := if p.bad then 2 else 1
               start := now
               ready := if awake then some (now + leave1) else none
               disp := w.dispatched
               unit := if p.bad then none else p.unit
               prog := prog
               status := if p.bad then 2 else 0
               endAt := now }))

/-- Dispatch the head of queue q, if it may go (R79, R80). -/
def dispatch (now r q : Nat) (m : Module) : Module :=
  match plan m r q with
  | none => m
  | some p => if beaten m r q p then m else startFlight now r q p m

/-! ### Completion (R82–R85) -/

/-- HOLD of a matrix or vector descriptor (R33). -/
def descHold (d : Desc) : Bool := if d.cls = 1 then (matOf d).hold else if d.cls = 2 then (vecOf d).hold else false

/-- The unit's and the clusters' notes of a completion (R33, R48, R336). -/
def noteUnit (now r : Nat) (x : Flight) (m : Module) : Module :=
  let m := forL (descClusters x.d) m (fun c m => m.modCl r c (fun k => { k with idleSince := now }))
  match x.unit with
  | none => m
  | some u => m.modCl r x.d.cluster (fun k =>
      { k.setUn u { k.un u with hold := descHold x.d } with lastHold := descHold x.d })

/-- Complete a descriptor whose work has ended: its counter, its queue's halt, its record. -/
def complete (now r : Nat) (x : Flight) (m : Module) : Module :=
  let d := x.d
  let m := noteUnit now r x m
  let m := if x.status = 0 then incCounter now r d.sig 1 m
    else m.modWork r (fun w => w.modQueue d.queue (fun q => { q with halted := true }))
  let m := m.modWork r (fun w => { w with lastCpl := now })
  let m := if d.cls = 5 ∧ fldB d.w2 54 = true then m.modTrain r (fun t => { t with closing := t.closing ++ [(d.w4.toNat, x.id)] })
    else m
  let rdy := x.ready.getD now
  let rec_ := completionRecord d x.status (m.gen r) x.flags x.aux x.unit x.start (rdy - x.start) (now - rdy)
  let q := (m.work r).queue d.queue
  if !d.cpl ∧ x.status = 0 then leave r x.id m
  else if q.log2 = 0 then
    leave r x.id (if x.status = 0 then m else m.modWork r (fun w => { w with refused := sat32 (w.refused + 1) }))
  else if ringFull q then
    m.modWork r (fun w => { w.modFlight x.id (fun y => { y with phase := 3 }) with ringWait := w.ringWait ++ [(d.queue, x.id + 1, rec_)] })
  else leave r x.id (ringPut now r d.queue rec_ m)

/-- A descriptor's work ends with a status: DESCRIPTOR_COMPLETE follows. -/
def endFlight (r id status flags aux endAt : Nat) (m : Module) : Module :=
  m.modFlight r id (fun x => { x with phase := 2, status := status, flags := flags, aux := aux, endAt := max x.endAt endAt })

/-! ### Contexts (R96) -/

/-- A request to switch to a context. -/
def requestSwitch (target : Nat) (w : Work) : Work :=
  if w.switching then { w with kept := some target }
  else if target = w.active then w
  else { w with switching := true, target := target, drainedAt := none }

/-- Has the context dispatchable work, were it active? -/
def ctxReady (m : Module) (r c : Nat) : Bool :=
  (List.range 64).any (fun q => match planBase m r q true with
    | none => false
    | some p => p.fl.d.ctx == c && waitsMet m r p.fl.d && creditMet m p)

/-- The next context in ascending order, wrapping, that has dispatchable work. -/
def nextCtx (m : Module) (r : Nat) : Option Nat :=
  ((List.range 7).map (fun i => ((m.work r).active + 1 + i) % 8)).find? (fun c => ctxReady m r c)

/-! ### Next events (R98) -/

def noEvent : Nat := 0xFFFFFFFFFFFFFFFF

def minOf (xs : List Nat) (d : Nat) : Nat := xs.foldl min d

/-- Times that hints and pending WAIT_UNTILs, dispatched or not, name for a cluster, with their PRIO. -/
def Work.eventTimes (w : Work) (now c : Nat) : List (Nat × Nat) :=
  (w.hints.filter (fun h => h.1.testBit c && decide (now < h.2.1))).map (fun h => h.2)
    ++ (w.flights.filter (fun x => (x.phase == 0 || x.phase == 1 || x.phase == 4) && x.d.cls == 7 && fld x.d.w2 63 56 == 4 && (fld x.d.w2 31 16).testBit c)).map
        (fun x => (x.d.w3.toNat, x.d.prio))

/-- NEXT_EVENT of a cluster (R98): 0 where a dispatchable descriptor targets it (one whose body is refused does not: DESIGN CHOICE, log entry
164), else the earliest time that is known, and all ones where none is, or where the cluster is fenced. -/
def Module.nextEvent (m : Module) (now r c : Nat) : Nat :=
  let w := m.work r
  if w.fence.testBit c then noEvent
  else if (List.range 64).any (fun q => match plan m r q with
      | some p => !p.bad && (descClusters p.fl.d).contains c
      | none => false) then 0
  else minOf ((w.eventTimes now c).map (·.1)) noEvent

/-! ### Fences (R97, R414) -/

/-- A write of the FENCE bits. A cluster under self-test keeps its fence until the test ends. -/
def setFence (r mask : Nat) (m : Module) : Module :=
  let keepBits := maskOf ((m.test.reqs.filter (fun b => b.kind == 1 && b.region == r)).filterMap (fun b => b.running))
  let m := m.modTest (fun t => { t with reqs := t.reqs.map (fun b =>
    if b.kind = 1 ∧ b.region = r then match b.running with
      | some c => { b with clearAfter := !mask.testBit c }
      | none => b
    else b) })
  let f := (mask % 65536) ||| keepBits
  m.modWork r (fun w => { w with fence := f, fenced := w.fenced &&& f })

/-! ### The commands -/

/-- SUBMIT_DESCRIPTOR (R78). -/
def execSubmitDescriptor (r : Nat) (d : Desc) (s : State) : Host.Outcome State Fault Refusal :=
  guarded (okR r) (s.does (fun now m => restall now (submit now r d m)))

/-- DISPATCH_DESCRIPTOR (R79). -/
def execDispatchDescriptor (r q : Nat) (s : State) : Host.Outcome State Fault Refusal :=
  guarded (okR r && okQ q) (s.does (fun now m => restall now (dispatch now r q m)))

/-- When the work of a descriptor ended, for DESCRIPTOR_COMPLETE. -/
def endedAt (m : Module) (r id : Nat) : Option Nat :=
  match (m.work r).flight? id with
  | some x => if x.phase = 2 then some x.endAt else none
  | none => none

/-- DESCRIPTOR_COMPLETE (R82–R85): it is the moment at which the descriptor's work has ended. -/
def execDescriptorComplete (r id : Nat) (s : State) : Host.Outcome State Fault Refusal :=
  guarded (okR r) (s.doesAt ((endedAt s.mod r id).getD 0) (fun now m =>
    match (m.work r).flight? id with
    | some x => if x.phase = 2 then restall now (admitHeld now r (complete now r x m)) else m
    | none => m))

/-- Discard the accepted descriptors of queue q that are not dispatched (R83). -/
def flushQueue (q : Nat) (w : Work) : Work :=
  let gone := fun (x : Flight) => x.d.queue == q && x.phase == 0
  ({ w with flights := w.flights.filter (fun x => !gone x), flushed := w.flushed + (w.flights.filter gone).length }).modQueue q
    (fun x => { x with halted := false })

/-- QUANTUM_EXPIRY (R96): the end of the running quantum. -/
def execQuantumExpiry (r : Nat) (s : State) : Host.Outcome State Fault Refusal :=
  let w := s.mod.work r
  guarded (okR r) (s.doesWhen (decide (w.quantum ≠ 0)) (w.quantumStart + w.quantum * ms) (fun now m =>
    let to_ := nextCtx m r
    restall now (m.modWork r (fun w =>
      let w := { w with quantumStart := now }
      match to_ with
      | some c => requestSwitch c w
      | none => w))))

/-- Has the outgoing context no dispatched work left? -/
def drained (w : Work) : Bool := w.switching && w.drainedAt.isNone && !(w.live.any (fun x => x.d.ctx == w.active))

/-- SWITCH_DRAINED (R96): program store and generator states of the outgoing context are saved, those of the incoming
one are loaded. -/
def execSwitchDrained (r : Nat) (s : State) : Host.Outcome State Fault Refusal :=
  guarded (okR r) (s.does (fun now m =>
    m.modR r (fun g =>
      if drained g.work then
        let into := Tab.get {} g.work.saved g.work.target
        { g with work := { g.work with drainedAt := some now, gens := into.gens
                                       saved := Tab.put g.work.saved g.work.active { gens := g.work.gens, progs := g.train.progs } }
                 train := { g.train with progs := into.progs } }
      else g)))

/-- The end of a switch: 25 µs after the drain. The quantum runs from here (DESIGN CHOICE, log entry 163). -/
def endSwitch (now : Nat) (w : Work) : Work :=
  let w' := { w with switching := false, active := w.target, drainedAt := none, kept := none, quantumStart := now }
  match w.kept with
  | some c => requestSwitch c w'
  | none => w'

/-- SWITCH_COMPLETE (R96). -/
def execSwitchComplete (r : Nat) (s : State) : Host.Outcome State Fault Refusal :=
  let w := s.mod.work r
  guarded (okR r) (s.doesWhen (w.switching && w.drainedAt.isSome) (w.drainedAt.getD 0 + 25 * us) (fun now m =>
    restall now (m.modWork r (endSwitch now))))

/-- A fenced cluster whose dispatched work has completed is idle: its FENCED bit is set (R97). -/
def clusterFenced (r c : Nat) (m : Module) : Module :=
  if (m.work r).fence.testBit c ∧ !m.clusterBusy r c then m.modWork r (fun w => { w with fenced := setBit w.fenced c }) else m

end Sys2Proof.Machine
end

