-- ==== Sys2Proof/Machine/Bellows.lean ====
section
/-! DEFINITION. Bellows: estimates and limits (R318–R328), control modes (R323–R325), throttle reasons (R331), droop (R329), sleep
states and wake admission (R334–R340), heat (R341–R343), clocks (R332). Powers in mW, energies in nJ, temperatures in millidegrees. -/

namespace Sys2Proof.Machine

/-! ### Timers of Bellows and Drone -/

def tFAST : Nat := 10
def tSLOW : Nat := 11
def tREFIT : Nat := 12
def tBEAT : Nat := 13
def tSLEEP (r : Nat) : Nat := 100 + r
def tLOGIC (r : Nat) : Nat := 120 + r
def tDRAM (r : Nat) : Nat := 140 + r

/-- A periodic command: its moment is the next multiple of its period in module time, as R318 aligns periods. One that comes
late stays on this grid, and the periods that it missed are left out. -/
def State.every (s : State) (key period : Nat) (f : Nat → Module → Module) : Host.Outcome State Fault Refusal :=
  s.doesAt (s.mod.timer key + period) (fun now m => f now (m.setTimer key (now - now % period)))

/-! ### Limits (R320, R321) -/

/-- The sustained limit S: the cap, or 75 A × V. -/
def sustained (m : Module) : Nat := min (1000 * m.num kPOWER_CAP_W) (75 * m.bellows.inputMv)

/-- Does the current limit bind? -/
def currentBinds (m : Module) : Bool := decide (75 * m.bellows.inputMv < 1000 * m.num kPOWER_CAP_W)

/-- B_max: S/6 for 20 ms. -/
def bucketMax (s : Nat) : Nat := s * 20000 / 6

/-! ### Estimates (R322) -/

/-- Energy in mW of counts of one microsecond: `n` counters from place `at_` of the counts, whose coefficients begin at place `k`. -/
def energyMw (m : Module) (counts : List Nat) (at_ n k : Nat) : Nat :=
  ((List.range n).map (fun i => counts.getD (at_ + i) 0 * m.cal.energy.getD (k + i) 0)).sum / 1000

/-- The part of a region's estimate that its gate reduces: array issue cycles by operand width (4, 6, 8 and 16 bits, the wider operand's)
and vector-lane cycles, as they would be at 64/64. -/
def gatedMw (m : Module) (issued : List Nat) (r : Nat) : Nat := energyMw m issued (5 * r) 5 0

/-- The rest: buffer bank accesses, stack sectors moved, update-lane cycles and cluster starts, and leakage by the hottest logic
sensor and the rail setpoint. -/
def restMw (m : Module) (now : Nat) (moved : List Nat) (r : Nat) : Nat :=
  energyMw m moved (4 * r) 4 5 + Config.leakMw m.cal.image r (m.rg r).power.logicMilliC (railMv m now r)

/-- The gain (millionths) and offset of a region's estimate. -/
def gainOf (m : Module) (r : Nat) : Nat × Int := Tab.get (1000000, 0) m.bellows.gains r

/-- A corrected estimate. -/
def corrected (m : Module) (r raw : Nat) : Nat :=
  let g := gainOf m r
  (((raw * g.1 / 1000000 : Nat) : Int) + g.2).toNat

/-- Uncorrected estimate at a gate, of the gated part at 64/64 and the rest. -/
def rawAt (gated rest gate : Nat) : Nat := gated * gate / 64 + rest

/-- The module estimate E from the regions' and the dies' (R322). -/
def moduleEstimate (regions dies : Nat) : Nat := (regions + dies + 30000) * 100 / 92

/-- P by control mode (R323). -/
def usedPower (m : Module) (e : Nat) : Nat :=
  match m.num kCTRL_MODE with
  | 0 => e
  | 1 => if m.bellows.estMean = 0 then e else e * 105 * m.bellows.measMw / (100 * m.bellows.estMean)
  | _ => e * 110 / 100

/-! ### Gates (R327, R328) -/

/-- The rail setpoint of the V–F point in force, in mV (R319). -/
def railSetpoint (m : Module) (r : Nat) : Nat := vfMv m r (m.rg r).power.fpoint

/-- The largest gate at which the region's estimated rail current stays within 230 A; without a V–F table, no bound. -/
def railGate (m : Module) (r gated rest : Nat) : Nat :=
  let v := railSetpoint m r
  if v = 0 then 64
  else (((List.range 64).map (fun i => 64 - i)).find? (fun g => decide (corrected m r (rawAt gated rest g) ≤ 230 * v))).getD 1

/-- Gate levels by CAP_PRIO, from the highest to the lowest: the lowest class falls to 16 first, then the next; then all to 1. -/
def gateLevels : List (Nat → Nat) :=
  ((List.range 4).flatMap (fun k => (List.range 49).map (fun i => fun (p : Nat) => if p < k then 16 else if p = k then 64 - i else 64)))
    ++ ((List.range 15).map (fun i => fun (_ : Nat) => 15 - i))

/-- The gates of a level. -/
def gatesAt (m : Module) (bounds : List Nat) (level : Nat → Nat) : List Nat :=
  (List.range 16).map (fun r => min (bounds.getD r 64) (level (m.num (kCAP_PRIO + r))))

/-- The module estimate under gates. -/
def estimateAt (m : Module) (gated rest : List Nat) (dies : Nat) (gates : List Nat) : Nat :=
  moduleEstimate (((List.range 16).map (fun r => corrected m r (rawAt (gated.getD r 0) (rest.getD r 0) (gates.getD r 0)))).sum) dies

/-- The largest gates that keep P at or below a target, and whether the target lowers one. -/
def chooseGates (m : Module) (gated rest : List Nat) (dies target : Nat) (bounds : List Nat) : List Nat × Bool :=
  let ok := fun gs => decide (usedPower m (estimateAt m gated rest dies gs) ≤ target)
  let top := gatesAt m bounds (fun _ => 64)
  if ok top then (top, false)
  else (((gateLevels.map (gatesAt m bounds)).find? ok).getD (gatesAt m bounds (fun _ => 1)), true)

/-! ### Throttle reasons (R331) -/

/-- THROTTLE_NOW: bit n is set while reason n is in force. -/
def throttleNow (m : Module) : Nat :=
  let any := fun (p : Region → Bool) => (List.range 16).any (fun r => p (m.rg r))
  let below := any (fun g => decide (g.power.gate < 64))
  maskOf ((if m.bellows.capped || (m.num kCTRL_MODE == 1 && below) then [1] else [])
    ++ (if any (fun g => g.power.railHeld) then [2] else [])
    ++ (if any (fun g => g.power.stretch) then [3] else [])
    ++ (if any (fun g => decide (0 < g.power.fpoint) || g.power.hotGate) then [4] else [])
    ++ (if any (fun g => decide (0 < g.power.dramLimit)) then [5] else [])
    ++ (if currentBinds m && decide (0 < m.bellows.inputMv) then [6] else [])
    ++ (if any (fun g => g.clusters.any (fun c => c.2.waiting.isSome)) then [7] else [])
    ++ (if m.num kHOST_GATE < 64 then [8] else [])
    ++ (if m.num kCTRL_MODE = 1 && below then [9] else []))

/-- One microsecond of every reason in force (R7): the reasons are looked at once per FAST_LOOP, and each one in force then counts
1 µs (DESIGN CHOICE, log entry 140). -/
def accrueReasons (m : Module) : Module :=
  forL (bitList (throttleNow m) 10) m (fun n m => m.bump (kTHROTTLE_US + (n - 1)) 1)

/-! ### The fast loop (R320–R322, R327) -/

/-- Does a flight wait on its unit for the issue gate? -/
def Flight.onUnit (x : Flight) : Bool := x.phase == 1 && x.ready.isSome && (x.d.cls == 1 || x.d.cls == 2)

/-- The unit that a flight has, and by its class the array or the vector lane of it. -/
def Flight.engine (x : Flight) : Nat × Nat × Nat := (x.d.cls, x.d.cluster, x.unit.getD 0)

/-- Has a flight's work on its unit begun, and not ended when the microsecond before now began? -/
def Flight.running (now : Nat) (x : Flight) : Bool :=
  x.phase == 2 && x.unit.isSome && (x.d.cls == 1 || x.d.cls == 2) && decide (now < x.endAt + us) && decide (x.start < x.endAt)

/-- One microsecond behind an issue gate of 0: the cycles of an array or a vector lane with a descriptor in flight count as
busy, and the descriptor's work begins or goes on later (R49). -/
def withheld (now r : Nat) (m : Module) : Module :=
  if m.gate r ≠ 0 then m
  else
    let p := (m.rg r).power
    let n := 100 * (8 - p.fpoint) / (if p.stretch then 2 else 1)
    let late := fun (t : Nat) => if now < t + us then t + us else t
    let xs := ((m.work r).flights.filter (fun x => x.onUnit || x.running now)).map Flight.engine
    let m := forL xs.eraseDups m (fun k m => m.modUn r k.2.1 k.2.2 (fun u =>
      if k.1 = 1 then { u with arrayCycles := u.arrayCycles + n, lastChunk := late u.lastChunk, arrayFree := late u.arrayFree }
      else { u with vectorCycles := u.vectorCycles + n }))
    m.modWork r (fun w => { w with flights := w.flights.map (fun x =>
      if x.onUnit then { x with held := x.held + us } else if x.running now then { x with endAt := x.endAt + us } else x) })

/-- Note a region's estimate of the microsecond that has passed. -/
def noteEstimate (r raw : Nat) (m : Module) : Module :=
  let e := corrected m r raw
  m.modPower r (fun p => { p with estMw := e, rawSum := p.rawSum + raw, rawCount := p.rawCount + 1 })

/-- The clusters under logic test: each draws 18 W, which no gate reduces and which Bellows adds to E (R413). -/
def testsRunning (m : Module) : Nat := (m.test.reqs.filter (fun b => b.kind == 1 && b.running.isSome)).length

/-- One microsecond: estimates under the gates in force, the bucket, and the gates of the next microsecond. -/
def fastLoop (now : Nat) (issued moved : List Nat) (dieCounts inputMv : Nat) (m : Module) : Module :=
  let gated := (List.range 16).map (gatedMw m issued)
  let rest := (List.range 16).map (restMw m now moved)
  let dies := energyMw m [dieCounts] 0 1 9 + 18000 * testsRunning m
  let m := (m.modEnv (fun e => { e with inputMv := inputMv })).modBel (fun b => { b with testsSeen := testsRunning m })
  let gates := (List.range 16).map (fun r => (m.rg r).power.gate)
  let m := forN 16 (accrueReasons m) (withheld now)
  let m := forN 16 m (fun r m => noteEstimate r (rawAt (gated.getD r 0) (rest.getD r 0) (gates.getD r 0)) m)
  let e := estimateAt m gated rest dies gates
  let p := usedPower m e
  let s := sustained m
  let bucket := min (bucketMax s) (if s ≤ p then m.bellows.bucketNj + (p - s) else m.bellows.bucketNj - (s - p))
  let m := m.modBel (fun b => { b with bucketNj := bucket, estMw := e, estSum := b.estSum + e, estCount := b.estCount + 1 })
  let target := if bucket < bucketMax s then s * 7 / 6 else s
  let rail := (List.range 16).map (fun r => railGate m r (gated.getD r 0) (rest.getD r 0))
  let bounds := (List.range 16).map (fun r =>
    if (m.rg r).power.hotGate then 0 else min (m.num kHOST_GATE) (rail.getD r 64))
  let (gates, low) := if m.bellows.failing then (List.replicate 16 0, false) else chooseGates m gated rest dies target bounds
  let m := forN 16 m (fun r m => m.modPower r (fun p => { p with gate := gates.getD r 0, railHeld := decide (rail.getD r 64 < 64) }))
  m.modBel (fun b => { b with capped := low })

/-! ### The slow loop (R318, R323–R325) -/

def railMw (x : RailReading) : Nat := x.mv * x.ma / 1000
def railAt (xs : List RailReading) (i : Nat) : RailReading := xs.getD i ⟨0, 0⟩

/-- The reading at fault and its case (R324): rails are numbered as in R392. Readings that stand still are looked for only while the
rails are in regulation. -/
def implausible (m : Module) (rails : List RailReading) : Option (Nat × Nat) :=
  if 5000000 < railMw (railAt rails 0) then some (0, 1)
  else
    match (List.range 16).find? (fun r => decide (280000 < (railAt rails (1 + r)).ma)) with
    | some r => some (1 + r, 2)
    | none =>
      let past := m.bellows.lastRails
      if m.bellows.failing ∨ !m.env.pwrgood ∨ past.length < 39 then none
      else ((List.range 30).find? (fun i => past.all (fun old => railAt old i == railAt rails i))).map (fun i => (i, 3))

/-- |Ē − M| > 0.12 × M. -/
def differs (e mw : Nat) : Bool := decide (12 * mw < 100 * (if e ≤ mw then mw - e else e - mw))

/-- The end of the divergence mode is posted (R325). -/
def postDivergenceEnd (now : Nat) (m : Module) : Module := post now 7 3 srcBellows (leBytes 8 ((now - m.bellows.divergedAt) / us)) m

/-- Mode 2 (R324). -/
def estimateOnly (now : Nat) (rails : List RailReading) (x : Nat × Nat) (m : Module) : Module :=
  let m := if m.num kCTRL_MODE = 1 then postDivergenceEnd now m else m
  let m := ((m.setNum kCTRL_MODE 2).bump kSENSOR_FAULTS 1).modBel (fun b => { b with badPeriods := 0, goodPeriods := 0 })
  let y := railAt rails x.1
  advise now 2 (post now 7 1 srcBellows ([BitVec.ofNat 8 x.1, BitVec.ofNat 8 x.2, 0, 0] ++ leBytes 4 (f32Milli (y.mv : Int)) ++ leBytes 4 (f32Milli (y.ma : Int))) m)

/-- Note a region's rail in this period. The frequency of a higher point follows once the rail reports its voltage (R319;
DEDUCED, log entry 157). -/
def noteRail (r : Nat) (x : RailReading) (m : Module) : Module :=
  m.modPower r (fun p =>
    { p with measMw := railMw x, railMa := x.ma, rawSum := 0, rawCount := 0
             fpoint := if p.vpoint < p.fpoint ∧ vfMv m r p.vpoint ≤ x.mv then p.vpoint else p.fpoint
             fit := ((if p.rawCount = 0 then 0 else p.rawSum / p.rawCount, railMw x) :: p.fit).take 2000 })

/-- One measurement period. -/
def slowLoop (now : Nat) (rails : List RailReading) (m : Module) : Module :=
  let b := m.bellows
  let e := if b.estCount = 0 then 0 else b.estSum / b.estCount
  let mw := railMw (railAt rails 0)
  let bad := implausible m rails
  let m := forN 16 m (fun r m => noteRail r (railAt rails (1 + r)) m)
  let m := m.modDrone (fun d => { d with powerSum := d.powerSum + mw, powerCount := d.powerCount + 1 })
  let m := m.modBel (fun b =>
    { b with estSum := 0, estCount := 0, estMean := e, estWindow := (e :: b.estWindow).take 20
             measMw := mw, measWindow := (mw :: b.measWindow).take 20
             inputMv := (railAt rails 0).mv, lastRails := (rails :: b.lastRails).take 39 })
  match bad with
  | some x =>
    if m.num kCTRL_MODE = 2 then m.modBel (fun b => { b with goodPeriods := 0 }) else estimateOnly now rails x m
  | none =>
    match m.num kCTRL_MODE with
    | 0 => m.modBel (fun b => { b with badPeriods := if differs e mw then b.badPeriods + 1 else 0 })
    | 1 => m.modBel (fun b => { b with goodPeriods := if differs e mw then 0 else b.goodPeriods + 1 })
    | _ => m.modBel (fun b => { b with goodPeriods := b.goodPeriods + 1 })

/-- SLOW_LOOP (R322–R324). -/
def execSlowLoop (rails : List RailReading) (s : State) : Host.Outcome State Fault Refusal :=
  s.every tSLOW (50 * us) (fun now m => slowLoop now rails m)

/-- DIVERGENCE_ENTER (R323, R325): after 20 periods in a row that differ. -/
def execDivergenceEnter (s : State) : Host.Outcome State Fault Refusal :=
  s.does (fun now m =>
    if m.num kCTRL_MODE = 0 ∧ 20 ≤ m.bellows.badPeriods then
      let m := ((m.setNum kCTRL_MODE 1).bump kDIVERGENCES 1).modBel (fun b => { b with goodPeriods := 0, divergedAt := now })
      post now 7 2 srcBellows (leBytes 4 (f32Milli (m.bellows.estMean : Int)) ++ leBytes 4 (f32Milli (m.bellows.measMw : Int))) m
    else m)

/-- DIVERGENCE_EXIT (R323, R325): after 200 periods in a row that agree. -/
def execDivergenceExit (s : State) : Host.Outcome State Fault Refusal :=
  s.does (fun now m =>
    if m.num kCTRL_MODE = 1 ∧ 200 ≤ m.bellows.goodPeriods then
      postDivergenceEnd now ((m.setNum kCTRL_MODE 0).modBel (fun b => { b with badPeriods := 0, goodPeriods := 0 }))
    else m)

/-- ESTIMATE_ONLY_EXIT (R323): after 2,000 plausible periods in a row. -/
def execEstimateOnlyExit (s : State) : Host.Outcome State Fault Refusal :=
  s.does (fun _ m =>
    if m.num kCTRL_MODE = 2 ∧ 2000 ≤ m.bellows.goodPeriods then
      (m.setNum kCTRL_MODE 0).modBel (fun b => { b with badPeriods := 0, goodPeriods := 0 })
    else m)

/-- Least squares of measured rail power over uncorrected estimate; gain in millionths, before its clamp. -/
def leastSquares (xs : List (Nat × Nat)) : Option Int :=
  let n : Int := xs.length
  let sx : Int := ((xs.map (·.1)).sum : Nat)
  let sy : Int := ((xs.map (·.2)).sum : Nat)
  let sxx : Int := ((xs.map (fun p => p.1 * p.1)).sum : Nat)
  let sxy : Int := ((xs.map (fun p => p.1 * p.2)).sum : Nat)
  let den := n * sxx - sx * sx
  if den = 0 then none else some ((n * sxy - sx * sy) * 1000000 / den)

/-- Refit one region (R322): the gain is clamped to 0.80–1.25; the offset is the mean of what the gain leaves. -/
def refit (r : Nat) (m : Module) : Module :=
  let xs := (m.rg r).power.fit
  match leastSquares xs with
  | none => m
  | some g =>
    let c := min 1250000 (max 800000 g)
    let m := if c = g then m else m.bump kCAL_CLAMPS 1
    let n : Int := xs.length
    let off := (((xs.map (·.2)).sum : Nat) - c * ((xs.map (·.1)).sum : Nat) / 1000000) / n
    m.modBel (fun b => { b with gains := Tab.put b.gains r (c.toNat, off) })

/-- ESTIMATE_REFIT (R322): every 100 ms, in mode 0. -/
def execEstimateRefit (s : State) : Host.Outcome State Fault Refusal :=
  s.every tREFIT (100 * ms) (fun _ m => if m.num kCTRL_MODE = 0 then forN 16 m refit else m)

/-! ### Droop and input (R329, R330) -/

/-- DROOP_DETECT (R329). -/
def execDroopDetect (r : Nat) (s : State) : Host.Outcome State Fault Refusal :=
  guarded (okR r) (s.does (fun _ m =>
    if (m.rg r).power.stretch then m else (m.bump kDROOP_EVENTS 1).modPower r (fun p => { p with stretch := true })))

/-- DROOP_RECOVER (R329). -/
def execDroopRecover (r : Nat) (s : State) : Host.Outcome State Fault Refusal :=
  guarded (okR r) (s.does (fun _ m => m.modPower r (fun p => { p with stretch := false })))

/-- INPUT_VOLTAGE_HIGH (R330). -/
def execInputVoltageHigh (mv : Nat) (s : State) : Host.Outcome State Fault Refusal :=
  s.does (fun now m => if 64000 < mv then post now 7 4 srcBellows (leBytes 4 mv) m else m)

/-! ### Sleep (R334–R340) -/

/-- Wake latency and break-even of a state, in ns (R334). -/
def wakeNs : Nat → Nat
  | 1 => 20
  | 2 => 1000
  | 3 => 15000
  | 4 => 80000
  | _ => 0

def breakEven : Nat → Nat
  | 1 => 200
  | 2 => 8000
  | 3 => 150000
  | 4 => 2000000
  | _ => 0

/-- The deepest state that a cluster may enter (R335). -/
def sleepLimit (m : Module) (r c : Nat) : Nat :=
  min (m.num kSLEEP_DEEPEST) (min (if (m.cl r c).lastHold then 2 else 4) (if (m.work r).keep.testBit c then 3 else 4))

/-- Time of the stays in a state that still run, summed over the clusters. -/
def staysRunning (m : Module) (now n : Nat) : Nat :=
  ((List.range 256).map (fun i => let x := m.cl (i / 16) (i % 16); if x.sleep = n then now - x.since else 0)).sum

/-- What C3 and C4 lose (R337). -/
def loseRows (r c : Nat) (m : Module) : Module :=
  m.modCl r c (fun x => { x with units := (List.range 8).map (fun u => (u, { x.un u with rows := [], epoch := (x.un u).epoch + 1, ueRows := [] })) })

def loseBuffer (r c : Nat) (m : Module) : Module :=
  m.modCl r c (fun x => { x with buf := [], tags := [], epoch := x.epoch + 1, ueLines := [] })

/-- A cluster after a region reset: its buffer keeps its contents and its uncorrectable lines, with tags 0x0; its work is lost (R34, R75,
R100, R103). Its sleep state and its start stay as they are: the reset leaves the Bellows group (R344). -/
def Cluster.restarted (x : Cluster) : Cluster :=
  { buf := x.buf, epoch := x.epoch, ueLines := x.ueLines
    units := (List.range 8).map (fun u => (u, { epoch := (x.un u).epoch + 1 }))
    sleep := x.sleep, since := x.since, idleSince := x.idleSince, waking := x.waking, waiting := x.waiting, waitPrio := x.waitPrio }

/-- A cluster whose state is lost: contents undefined, tags 0x0, taints cleared, registers and flags at their reset values (R34, R100, R103,
R407). -/
def Cluster.lost (now : Nat) (x : Cluster) : Cluster :=
  { epoch := x.epoch + 1, units := (List.range 8).map (fun u => (u, { epoch := (x.un u).epoch + 1 })), since := now, idleSince := now }

/-- A cluster enters a deeper state. -/
def enterSleep (now r c n : Nat) (m : Module) : Module :=
  let m := (endStay now r c m).modCl r c (fun x => { x with sleep := n })
  let m := if 3 ≤ n then loseRows r c m else m
  if n = 4 then loseBuffer r c m else m

/-- The PRIO of a planned wake: the highest of those that name the next event (R340). -/
def plannedPrio (m : Module) (now r c t : Nat) : Nat :=
  (((m.work r).eventTimes now c).filter (fun x => x.1 == t)).foldl (fun a x => max a x.2) 0

/-- Clusters in C2 or deeper with a known event: cluster, event, PRIO, state. -/
def plannedSleepers (m : Module) (now r : Nat) : List (Nat × Nat × Nat × Nat) :=
  (List.range 16).filterMap (fun c =>
    let x := m.cl r c
    let t := m.nextEvent now r c
    if 2 ≤ x.sleep ∧ x.waking.isNone ∧ t ≠ noEvent ∧ t ≠ 0 then some (c, t, plannedPrio m now r c t, x.sleep) else none)

/-- Is a start admitted before another (R340): PRIO, then the earlier event, then the lower cluster? -/
def startsBefore (a b : Nat × Nat × Nat) : Bool :=
  decide (b.2.2 < a.2.2) || (a.2.2 == b.2.2 && (decide (a.2.1 < b.2.1) || (a.2.1 == b.2.1 && decide (a.1 < b.1))))

/-- Put into the reverse of the admission order. -/
def insertLast (x : Nat × Nat × Nat × Nat) : List (Nat × Nat × Nat × Nat) → List (Nat × Nat × Nat × Nat)
  | [] => [x]
  | y :: ys => if startsBefore (x.1, x.2.1, x.2.2.1) (y.1, y.2.1, y.2.2.1) then y :: insertLast x ys else x :: y :: ys

/-- The latest slot of two places per 0.5 µs, at or before a grid point. -/
def latestSlot (taken : List (Nat × Nat)) : Nat → Nat → Nat
  | 0, k => k
  | n + 1, k => if (taken.filter (fun x => x.2 == k)).length < 2 then k else latestSlot taken n (k - 1)

/-- The slots of sleeping clusters, from the latest backwards (R336): cluster, grid point of 500 ns. -/
def planSlots (xs : List (Nat × Nat × Nat × Nat)) : List (Nat × Nat) :=
  (xs.foldl (fun a x => insertLast x a) []).foldl (fun taken x => (x.1, latestSlot taken 16 ((x.2.1 - wakeNs x.2.2.2) / 500)) :: taken) []

def slotOfCluster (slots : List (Nat × Nat)) (c : Nat) : Nat := (((slots.find? (fun x => x.1 == c)).map (·.2)).getD 0) * 500

/-- The deepest state up to a limit that a test takes; C1 where none does. -/
def deepest (limit : Nat) (ok : Nat → Bool) : Nat :=
  ((((List.range limit).map (fun i => limit - i)).find? ok).getD 1)

/-- The state that R336 chooses for a cluster, and whether a planned wake is due. -/
def sleepTarget (m : Module) (now r c : Nat) : Nat × Bool :=
  let x := m.cl r c
  let t := m.nextEvent now r c
  let limit := sleepLimit m r c
  if m.clusterBusy r c ∨ t = 0 ∨ m.heldAccess.any (fun h => h.frame.addr / 65536 % 4096 == 0x100 + 16 * r + c) then (0, false)
  else if t = noEvent then (deepest limit (fun n => decide (breakEven n ≤ now - x.idleSince)), false)
  else
    let others := plannedSleepers m now r
    let prio := plannedPrio m now r c t
    let queue := fun n =>
      let own := if 2 ≤ x.sleep then planSlots others else planSlots (others ++ [(c, t, prio, n)])
      let w := if 2 ≤ x.sleep then wakeNs x.sleep else wakeNs n
      t - w - slotOfCluster own c
    let target := deepest limit (fun n => decide (breakEven n + wakeNs n + queue n ≤ t - now))
    (target, decide (2 ≤ x.sleep) && decide (slotOfCluster (planSlots others) c ≤ now))

/-- PRIO with which work that is ready to dispatch wakes a cluster; a register access has PRIO 3. -/
def workPrio (m : Module) (r c : Nat) : Nat :=
  (List.range 64).foldl (fun a q => match plan m r q with
    | some p => if (descClusters p.fl.d).contains c then max a p.fl.d.prio else a
    | none => a) (if m.heldAccess.any (fun h => h.frame.addr / 65536 % 4096 == 0x100 + 16 * r + c) then 3 else 0)

/-- One cluster's decision. Self-test takes the state of the cluster that it runs on (R412). -/
def decideSleep (now r c : Nat) (m : Module) : Module :=
  let x := m.cl r c
  if x.waking.isSome ∨ m.test.reqs.any (fun b => b.kind == 1 && b.region == r && b.running == some c) then m
  else
    let (target, due) := sleepTarget m now r c
    let m := if due ∧ target ≠ 0 then requestStart now r c (plannedPrio m now r c (m.nextEvent now r c)) m else m
    if (m.cl r c).waiting.isSome then m
    else if x.sleep < target then enterSleep now r c target m
    else if target = 0 ∧ 1 ≤ x.sleep then requestStart now r c (workPrio m r c) m
    else m

/-- SLEEP_DECISION (R336): once per microsecond. -/
def execSleepDecision (r : Nat) (s : State) : Host.Outcome State Fault Refusal :=
  guarded (okR r) (s.every (tSLEEP r) us (fun now m => forN 16 m (fun c m => decideSleep now r c m)))

/-- Admission key of a waiting start. -/
def startKey (m : Module) (now r c : Nat) : Nat × Nat × Nat := (c, m.nextEvent now r c, (m.cl r c).waitPrio)

/-- The waiting start that is admitted next. -/
def nextStart (m : Module) (now r : Nat) : Option Nat :=
  ((List.range 16).filter (fun c => (m.cl r c).waiting.isSome)).foldl (fun (a : Option Nat) c =>
    match a with
    | none => some c
    | some b => if startsBefore (startKey m now r c) (startKey m now r b) then some c else some b) none

/-- Admit the next waiting start, if a place is free. -/
def admitStart (now r : Nat) (m : Module) : Module :=
  let m := m.modPower r (fun p => { p with ramp := p.ramp.filter (fun x => decide (now < x.2)) })
  if m.bellows.failing ∨ (m.rg r).power.pllOff ∨ 2 ≤ (m.rg r).power.ramp.length then m
  else
    match nextStart m now r with
    | none => m
    | some c =>
      let x := m.cl r c
      let m := (m.bump kSTARTS 1).bump kSTART_WAIT_NS (now - x.waiting.getD now)
      (m.modPower r (fun p => { p with ramp := (c, now + 500) :: p.ramp })).modCl r c (fun x =>
        { x with waiting := none, waking := some (now + wakeNs x.sleep) })

/-- START_ADMIT (R340): two starts ramp at once in a region. -/
def execStartAdmit (r : Nat) (s : State) : Host.Outcome State Fault Refusal :=
  guarded (okR r) (s.does (fun now m => admitStart now r (admitStart now r m)))

/-- Generators of a cluster's units start from their seeds (R28). -/
def reseed (c : Nat) (w : Work) : Work := { w with gens := w.gens.filter (fun x => x.1 / 512 ≠ c) }

/-- A cluster is awake: what waits for it may run (R84, R334). Its idle time still runs from its last completion (R336). -/
def clusterReady (now r c : Nat) (m : Module) : Module :=
  let was := (m.cl r c).sleep
  let m := (endStay now r c m).modCl r c (fun x => { x with sleep := 0, waking := none })
  let m := if 3 ≤ was then m.modWork r (reseed c) else m
  let m := if was = 4 then m.modCl r c (fun x => { x with lastHold := false, units := x.units.map (fun u => (u.1, { u.2 with hold := false })) }) else m
  m.modWork r (fun w => { w with flights := w.flights.map (fun x =>
    if x.phase = 1 ∧ x.ready.isNone ∧ (descClusters x.d).all (fun k => (m.cl r k).sleep == 0) then { x with ready := some now } else x) })

/-- May the region's PLL stop (R339)? -/
def pllMayStop (m : Module) (now r : Nat) : Bool :=
  decide (m.num kPLL_STOP = 1) && !(m.rg r).power.pllOff && (m.rg r).stack.selfRefresh &&
    (List.range 16).all (fun c =>
      let x := m.cl r c
      let t := m.nextEvent now r c
      decide (3 ≤ x.sleep) && x.waking.isNone && x.waiting.isNone
        && (if t = noEvent then decide (2 * ms ≤ now - x.idleSince) else decide (now + 400 * us ≤ t)))

/-- PLL_STOP (R339). -/
def execPllStop (r : Nat) (s : State) : Host.Outcome State Fault Refusal :=
  guarded (okR r) (s.does (fun now m =>
    if pllMayStop m now r then restall now ((m.bump kPLL_STOPS 1).modPower r (fun p => { p with pllOff := true, pllWake := none })) else m))

/-- PLL_RESTART (R339): 40 µs after the first request that needs the PLL. -/
def execPllRestart (r : Nat) (s : State) : Host.Outcome State Fault Refusal :=
  let p := (s.mod.rg r).power
  guarded (okR r) (s.doesWhen (p.pllOff && p.pllWake.isSome) (p.pllWake.getD 0) (fun now m =>
    restall now (m.modPower r (fun p => { p with pllOff := false, pllWake := none }))))

/-! ### Heat (R341–R343) -/

def hottest (xs : List Int) : Int := xs.foldl max (xs.headD 0)

/-- An inlet above 40 °C posts "coolant warm" (R341). -/
def noteInlet (now : Nat) (inlet : Int) (m : Module) : Module :=
  let m := m.setNum kCOOLANT_INLET_C (f32Milli inlet)
  if 40000 < inlet then post now 7 5 srcBellows (leBytes 4 (f32Milli inlet)) m else m

/-- LOGIC_SENSOR_READ (R341, R342): every 100 µs. -/
def execLogicSensorRead (r : Nat) (milliC : List Int) (inletMilliC : Int) (s : State) : Host.Outcome State Fault Refusal :=
  guarded (okR r) (s.every (tLOGIC r) (100 * us) (fun now m =>
    let h := hottest milliC
    let m := (noteInlet now inletMilliC m).setNum (kLOGIC_TEMP_C + r) (f32Milli h)
    m.modPower r (fun p =>
      { p with logicMilliC := h
               hotGate := decide (105000 ≤ h) || (p.hotGate && decide (103000 ≤ h))
               gate := if 105000 ≤ h then 0 else p.gate
               logicTripSince := if 110000 ≤ h then some (p.logicTripSince.getD now) else none })))

/-- One V–F point down: the frequency first, then the voltage, from where it stands, at 10 mV/µs (R319). -/
def vfDown (now : Nat) (m : Module) (r : Nat) (p : Power) : Power :=
  { p with fpoint := p.fpoint + 1, vpoint := p.fpoint + 1, railFall := some (railMv m now r, now), vfDownAt := now }

/-- One V–F point up: the voltage first; the frequency follows the rail's report (R319). -/
def vfUp (now : Nat) (p : Power) : Power := { p with vpoint := p.fpoint - 1, railFall := none, vfUpAt := now }

/-- VF_STEP (R342): a point down each 1 ms while H ≥ L, a point up each 10 ms while H < L − 3 °C. -/
def execVfStep (r : Nat) (down : Bool) (s : State) : Host.Outcome State Fault Refusal :=
  let p := (s.mod.rg r).power
  let l := s.mod.num kLOGIC_THROTTLE_C
  let ok := if down then milliGe p.logicMilliC l && decide (p.fpoint < 7)
    else !milliGe (p.logicMilliC + 3000) l && decide (0 < p.fpoint) && p.vpoint == p.fpoint
  guarded (okR r) (s.doesWhen ok (if down then p.vfDownAt + ms else max p.vfDownAt p.vfUpAt + 10 * ms) (fun now m =>
    m.modPower r (fun p => if down then vfDown now m r p else vfUp now p)))

/-- The stack access rate under heat, in halvings (R343): halved each 1 ms, doubled each 10 ms. -/
def dramRate (m : Module) (now : Nat) (d : Int) (p : Power) : Power :=
  let l := m.num kDRAM_THROTTLE_C
  if 95000 ≤ d then { p with dramLimit := 3, dramDownAt := now }
  else if milliGe d l then (if p.dramLimit < 3 then { p with dramLimit := p.dramLimit + 1, dramDownAt := now } else p)
  else if !milliGe (d + 2000) l ∧ 0 < p.dramLimit ∧ max p.dramDownAt p.dramUpAt + 10 * ms ≤ now then
    { p with dramLimit := p.dramLimit - 1, dramUpAt := now }
  else p

/-- What the sensors of a region's DRAM dies show: the hottest, and whether a die reads 10 °C or more from its own temperature at the last
training (R417); where none was known then, the first reading stands for it (DESIGN CHOICE, log entry 185). -/
def dramSensors (now r : Nat) (milliC : List Int) (inletMilliC : Int) (m : Module) : Module :=
  let d := hottest milliC
  let m := (noteInlet now inletMilliC m).setNum (kDRAM_TEMP_C + r) (f32Milli d)
  let base := if (m.rg r).stack.trainTemps = [] then milliC else (m.rg r).stack.trainTemps
  let far := (milliC.zip base).any (fun t => decide (10000 ≤ (t.1 - t.2).natAbs))
  let m := m.modStack r (fun k => { k with trainTemps := base })
  let m := if far then m.setNum kDRAM_RECAL_DUE (setBit (m.num kDRAM_RECAL_DUE) r) else m
  let m := m.modStack r (fun k => { k with coolSince := if d ≤ 82000 then some (k.coolSince.getD now) else none })
  m.modPower r (fun p =>
    { dramRate m now d p with dramMilliC := d, dramDies := milliC, dramTripSince := if 100000 ≤ d then some (p.dramTripSince.getD now) else none })

/-- DRAM_SENSOR_READ (R341, R343): every 1 ms. -/
def execDramSensorRead (r : Nat) (milliC : List Int) (inletMilliC : Int) (s : State) : Host.Outcome State Fault Refusal :=
  guarded (okR r) (s.every (tDRAM r) ms (fun now m => dramSensors now r milliC inletMilliC m))

/-! ### Heartbeats (R287, R99) -/

/-- Drone's and the regions' beats; a region's pauses during its recovery. Drone refreshes FLAGS_OR in step (R65). -/
def heartbeat (m : Module) : Module :=
  let m := forN 16 m (fun r m =>
    if m.inReset r ∨ m.fstate r = 2 ∨ !m.env.rails then m
    else m.modWork r (fun w => { w with heartbeat := (w.heartbeat + 1) % 2 ^ 32 }))
  if m.env.droneUp then refreshFlags (m.setNum kDRONE_HEARTBEAT ((m.num kDRONE_HEARTBEAT + 1) % 2 ^ 32)) else m

end Sys2Proof.Machine
end

