-- ==== Sys2Proof/Machine/Blocks.lean ====
section
/-! DEFINITION. State blocks in memory: shard table (R161), part arrays (R157, R158), headers (R160), tier records and
tiered places (R145, R146), norm record (R164). -/

namespace Sys2Proof.Machine

/-! ### Parts (R157) -/

/-- Part numbers. -/
def pHDR : Nat := 0
def pWC : Nat := 1
def pW : Nat := 2
def pM1 : Nat := 3
def pM2 : Nat := 4
def pBASIS : Nat := 5
def pRES : Nat := 6
def pMOM : Nat := 7
def pHRES : Nat := 8

def partSize (p : Nat) : Nat := [64, 512, 1024, 1024, 1024, 1024, 512, 1024, 512].getD p 0

/-- One extent of a shard table (R161). -/
structure Extent where
  idx : Nat
  form : Nat
  wfmt : Nat
  expect : Nat
  base : Nat
  blocks : Nat
  acc : Nat
  deriving DecidableEq, Repr

/-- The extents that the bytes of a shard table list. -/
def extentsOf (t : List Byte) : List Extent :=
  (List.range (bits (leAt t 0 8) 63 51)).map (fun i =>
    let e0 := leAt t (64 + 32 * i) 8
    let e1 := leAt t (72 + 32 * i) 8
    { idx := i, form := bits e0 63 60, wfmt := bits e0 59 56, expect := bits e0 55 48, base := bits e0 36 0,
      blocks := bits e1 63 40, acc := bits e1 36 0 })

/-- The extents of region r's shard table in force (R162): the table stays as its commit took it (log entry 149). -/
def Module.extents (m : Module) (r : Nat) : List Extent := if m.num (kSHARD_CFG + r) = 0 then [] else extentsOf (m.rg r).train.table

/-- Take region r's shard table from memory, as a commit of SHARD_CFG does (R162): its header says how long it is. -/
def takeShard (r : Nat) (m : Module) : Module :=
  let cfg := m.num (kSHARD_CFG + r)
  m.modTrain r (fun t => { t with table := if cfg = 0 then [] else m.peekB r cfg (64 + 32 * bits (m.peek r cfg 8) 63 51) })
def Module.extent? (m : Module) (r i : Nat) : Option Extent := (m.extents r)[i]?

/-! ### Tier records (R145, R146) -/

structure TierHdr where
  entries : Nat
  frameBase : Nat
  frames : Nat
  stageBase : Nat
  stages : Nat
  frameBytes : Nat
  pool : Nat
  deriving DecidableEq, Repr

def tierHdrAt (m : Module) (r cfg : Nat) : TierHdr :=
  let w := fun i => m.peek r (cfg + 8 * i) 8
  { entries := bits (w 0) 63 50, frameBase := bits (w 0) 36 0, frames := bits (w 1) 63 48, stageBase := bits (w 1) 36 0,
    stages := bits (w 2) 63 48, frameBytes := bits (w 2) 30 0, pool := bits (w 3) 48 34 }

def Module.tierHdr (m : Module) (r : Nat) : TierHdr := tierHdrAt m r (m.num (kTIER_CFG + r))

structure TierEnt where
  state : Nat
  home : Bool
  blocks : Nat
  compact : Nat
  key : List Byte
  frame : Nat
  stage : Nat
  lastStep : Nat
  deriving DecidableEq, Repr

def tierAddr (cfg i : Nat) : Nat := cfg + 64 + 32 * i

def tierEntAt (m : Module) (r cfg i : Nat) : TierEnt :=
  let a := tierAddr cfg i
  let w0 := m.peek r a 8
  let w3 := m.peek r (a + 24) 8
  { state := bits w0 63 61, home := bit w0 60, blocks := bits w0 59 47, compact := bits w0 36 0, key := m.peekB r (a + 8) 16,
    frame := bits w3 63 48, stage := bits w3 47 32, lastStep := bits w3 31 0 }

def Module.tierEnt (m : Module) (r i : Nat) : TierEnt := tierEntAt m r (m.num (kTIER_CFG + r)) i

/-- The region's own write of bytes into its memory. -/
def poke (now r off : Nat) (bs : List Byte) (m : Module) : Module := (memWrite now r 3 off bs m).1

/-- Write STATE, FRAME, STAGE and LAST_STEP of a tier entry. -/
def setTier (now r i : Nat) (e : TierEnt) (m : Module) : Module :=
  let a := tierAddr (m.num (kTIER_CFG + r)) i
  let w0 := m.peek r a 8
  poke now r (a + 24) (leBytes 8 (place e.frame 63 48 + place e.stage 47 32 + place e.lastStep 31 0))
    (poke now r a (leBytes 8 (place e.state 63 61 + bits w0 60 0) ++ fitB 16 e.key) m)

/-- Bytes of a tiered block's cold part. -/
def coldSize (home : Bool) : Nat := if home then 6144 else 4608

/-! ### Where parts lie (R146, R158) -/

def Extent.hasPart (e : Extent) (home : Bool) (p : Nat) : Bool :=
  decide (p ≤ 6) || (decide (p ≤ 8) && (e.form == 1 || (e.form == 2 && home)))

/-- Start of part p's array in a resident extent of n blocks. -/
def arrayBase (base n p : Nat) : Nat := base + 256 * (((List.range p).map (fun q => ceilDiv (n * partSize q) 256)).sum)

/-- Region offset of part p of block b. -/
def partAddr (m : Module) (r : Nat) (e : Extent) (b p : Nat) : Nat :=
  if e.form = 2 then
    let t := m.tierEnt r e.base
    if p = pHDR then t.compact + 576 * b
    else if p = pWC then t.compact + 576 * b + 64
    else
      let h := m.tierHdr r
      h.frameBase + t.frame * h.frameBytes + coldSize t.home * b + ((List.range (p - 2)).map (fun i => partSize (i + 2))).sum
  else arrayBase e.base e.blocks p + partSize p * b

/-- Region offset of block b's gradient accumulator. -/
def accAddr (m : Module) (r : Nat) (e : Extent) (b : Nat) : Nat :=
  if e.form = 2 then
    let h := m.tierHdr r
    h.stageBase + (m.tierEnt r e.base).stage * 4194304 + 1024 * b
  else e.acc + 1024 * b

/-- The byte ranges of an extent's part arrays: start, length. -/
def extentRanges (m : Module) (r : Nat) (e : Extent) : List (Nat × Nat) :=
  if e.form = 2 then
    let t := m.tierEnt r e.base
    let h := m.tierHdr r
    (t.compact, 576 * e.blocks) :: (if 1 ≤ t.state ∧ t.state ≤ 4 then [(h.frameBase + t.frame * h.frameBytes, coldSize t.home * e.blocks)] else [])
  else
    let parts := if e.form = 1 then 9 else 7
    [(e.base, arrayBase e.base e.blocks parts - e.base)]

/-- Does a range touch a part array of a listed block (R156)? -/
def touchesState (m : Module) (r off len : Nat) : Bool :=
  (m.extents r).any (fun e => (extentRanges m r e).any (fun x => decide (off < x.1 + x.2) && decide (x.1 < off + len)))

/-! ### Finding blocks -/

/-- The block whose header lies at an offset. -/
def blockOfHdr (m : Module) (r off : Nat) : Option (Extent × Nat) :=
  (m.extents r).findSome? (fun e =>
    let base := if e.form = 2 then (m.tierEnt r e.base).compact else e.base
    let step := if e.form = 2 then 576 else 64
    if base ≤ off ∧ off < base + step * e.blocks ∧ (off - base) % step = 0 then some (e, (off - base) / step) else none)

/-- The block whose working copy lies at an offset (R179). -/
def blockOfWc (m : Module) (r off : Nat) : Option (Extent × Nat) :=
  (m.extents r).findSome? (fun e =>
    let base := if e.form = 2 then (m.tierEnt r e.base).compact + 64 else arrayBase e.base e.blocks pWC
    let step := if e.form = 2 then 576 else 512
    if base ≤ off ∧ off < base + step * e.blocks ∧ (off - base) % step = 0 then some (e, (off - base) / step) else none)

/-- A block's position in shard-table order (R348). -/
def posOf (m : Module) (r : Nat) (e : Extent) (b : Nat) : Nat :=
  (((m.extents r).filter (fun x => decide (x.idx < e.idx))).map Extent.blocks).sum + b

/-- The block after (e, b) in shard-table order, as an ACCUM of several blocks names them. -/
def nextHdr (e : Extent) (off : Nat) : Nat := off + (if e.form = 2 then 576 else 64)

/-! ### Headers (R160) -/

structure Hdr where
  version : Nat
  kind : Nat
  pending : Bool
  retained : Bool
  shadow : Nat
  step : Nat
  deltaRnd : Nat
  adoptRnd : Nat
  relcount : Nat
  retrel : Nat
  retain : Nat
  arrived : Nat
  astep : Nat
  layer : Nat
  outerRnd : Nat
  deriving DecidableEq, Repr

def hdrOf (b : List Byte) : Hdr :=
  let h := fun i => leAt b (8 * i) 8
  { version := bits (h 0) 63 32, kind := bits (h 0) 31 28, pending := bit (h 0) 27, retained := bit (h 0) 26, shadow := bits (h 0) 15 0,
    step := h 1, deltaRnd := bits (h 2) 63 32, adoptRnd := bits (h 2) 31 0, relcount := bits (h 3) 63 48, retrel := bits (h 3) 47 32,
    retain := bits (h 3) 31 8, arrived := bits (h 3) 7 0, astep := bits (h 4) 63 32, layer := bits (h 4) 31 16, outerRnd := bits (h 5) 63 32 }

/-- The 64 bytes of a header; `old` gives the reserved fields. -/
def hdrBytes (x : Hdr) (old : List Byte) : List Byte :=
  let o := fun i => leAt old (8 * i) 8
  leBytes 8 (place x.version 63 32 + place x.kind 31 28 + place (b2n x.pending) 27 27 + place (b2n x.retained) 26 26
      + place (bits (o 0) 25 16) 25 16 + place x.shadow 15 0)
    ++ leBytes 8 x.step ++ leBytes 8 (place x.deltaRnd 63 32 + place x.adoptRnd 31 0)
    ++ leBytes 8 (place x.relcount 63 48 + place x.retrel 47 32 + place x.retain 31 8 + place x.arrived 7 0)
    ++ leBytes 8 (place x.astep 63 32 + place x.layer 31 16 + bits (o 4) 15 0)
    ++ leBytes 8 (place x.outerRnd 63 32 + bits (o 5) 31 0) ++ sliceB old 48 16

def Module.hdr (m : Module) (r : Nat) (e : Extent) (b : Nat) : Hdr := hdrOf (m.peekB r (partAddr m r e b pHDR) 64)

def setHdr (now r : Nat) (e : Extent) (b : Nat) (x : Hdr) (m : Module) : Module :=
  let a := partAddr m r e b pHDR
  poke now r a (hdrBytes x (m.peekB r a 64)) m

/-- A block is open while DELTA_RND > ADOPT_RND (R206). -/
def Hdr.isOpen (x : Hdr) : Bool := decide (x.adoptRnd < x.deltaRnd)

/-! ### Values of parts -/

/-- 256 FP32 patterns of bytes. -/
def words256 (b : List Byte) : List Nat := (List.range 256).map (fun i => leAt b (4 * i) 4)

def fvs32 (b : List Byte) : List FV := (words256 b).map f32
def bytes32 (xs : List FV) : List Byte := xs.flatMap (fun x => leBytes 4 (toF32 x))
def fvs16 (b : List Byte) : List FV := (List.range 256).map (fun i => decodeFmt bf16 (leAt b (2 * i) 2))
def bytes16 (xs : List FV) : List Byte := xs.flatMap (fun x => leBytes 2 (convertCode bf16 none x).1)

/-- The values of a working copy (R159). -/
def wcValues (wfmt : Nat) (b : List Byte) : List FV :=
  if wfmt = 3 then (List.range 256).map (fun i => scaled (leAt b (256 + i / 32) 1) (decodeFmt e4m3 (leAt b i 1)))
  else fvs16 b

/-- A part's values, widened to FP32 (R167). -/
def partValues (wfmt p : Nat) (b : List Byte) : List FV :=
  if p = pWC then wcValues wfmt b else if p = pRES ∨ p = pHRES then fvs16 b else fvs32 b

/-- Set the four slot codes of an accumulator to 0x8 (R101, R172). -/
def clearAcc (now r requester a : Nat) (m : Module) : Module := clearCodes now r requester (a / 256) 4 m

/-! ### The norm record (R164) -/

structure NormRec where
  step : Nat
  expected : Nat
  clipmax : Nat
  sumsq : Nat
  norm : Nat
  clipf : Nat
  state : Nat
  deriving DecidableEq, Repr

def Module.normRec (m : Module) (r : Nat) : NormRec :=
  let a := m.num (kNORM_BASE + r)
  let w := fun i => m.peek r (a + 4 * i) 4
  { step := m.peek r a 8, expected := w 2, clipmax := w 3, sumsq := w 4, norm := w 5, clipf := w 6, state := w 7 % 256 }

end Sys2Proof.Machine
end

