-- ==== Sys2Proof/Machine/Compute.lean ====
section
/-! DEFINITION. Matrix, vector, conversion and move descriptors at work: one command runs a dispatched descriptor of its
kind and sets its result; DESCRIPTOR_COMPLETE follows at the end of its cycles. -/

namespace Sys2Proof.Machine

/-! ### Running a descriptor -/

/-- The dispatched descriptor `id` of region r, ready to run, of the kind asked for. Arrays and vector lanes do not issue at gate 0. -/
def runnable (m : Module) (r id : Nat) (kind : Desc → Bool) : Option Flight :=
  match (m.work r).flight? id with
  | none => none
  | some x => if x.phase = 1 ∧ x.ready.isSome ∧ kind x.d ∧ !((x.d.cls == 1 || x.d.cls == 2) && m.gate r == 0) then some x else none

/-- Has every earlier descriptor on the unit that the rows order before this one run (R32)? -/
def inRowOrder (m : Module) (r : Nat) (x : Flight) : Bool :=
  (m.work r).live.all (fun y =>
    !(y.phase == 1 && decide (y.disp < x.disp) && y.d.cluster == x.d.cluster && y.unit == x.unit && (y.d.cls == 1 || y.d.cls == 2)
      && (tileRanges x.d).any (fun a => (tileRanges y.d).any (fun b => overlap a b))))

/-- The working state of a unit. -/
def vmOf (m : Module) (r c u : Nat) : Vm :=
  { x := m.cl r c, un := m.un r c u, gens := (m.work r).gens, rc := 16 * r + c, u := 8 * c + u, free := m.free }

/-- Put a unit's working state back, with its flags (R47) and what `f` notes on the unit. -/
def putVm (r c u : Nat) (v : Vm) (f : UnitSt → UnitSt) (m : Module) : Module :=
  let un := f { v.un with flags := v.un.flags ||| v.flags.toNat }
  ((m.modCl r c (fun _ => v.x.setUn u un)).modWork r (fun w => { w with gens := v.gens })).useFree

/-- Cycles of a descriptor with its waiting cycles (R31, R42, R74, R93). -/
def Module.waits (m : Module) (cycles : Nat) : Nat := cycles + Config.waitCycles m.free

/-- Does a vector descriptor use its cluster's buffer? -/
def Vec.buffered (t : Vec) : Bool :=
  t.a.buf || t.d.buf || (vopUsesB t.vop && !t.bcast && t.b.buf) || (vopUsesC t.vop && t.c.buf)

/-- The clusters whose buffers a conversion uses: each of its own where it stages its source (R92), else the lead where an operand or a
record lies there. -/
def Conv.buffers (t : Conv) (lead : Nat) : List Nat :=
  if (t.smode = 1 ∨ t.smode = 2) ∧ t.stagelen ≠ 0 then t.clusters
  else if !t.sspace || !t.dspace || !t.stspace || ((t.smode == 2 || t.dmx) && !t.xspace) then [lead] else []

/-- Does a conversion read or write region memory? -/
def Conv.inStack (t : Conv) : Bool := t.sspace || t.dspace || t.stspace || ((t.smode == 2 || t.dmx) && t.xspace)

/-- BUF_WAIT counts the cycles that a descriptor's work loses to arbitration in a cluster's buffer (R74). -/
def bufWaits (r c : Nat) (m : Module) : Module := m.modCl r c (fun x => { x with bufWait := x.bufWait + Config.bankWaits m.free })

/-- When a dispatched descriptor's work may begin: its target ready, and the time behind an issue gate of 0 past (R49, R84). -/
def Flight.from_ (x : Flight) : Nat := x.ready.getD 0 + x.held

/-- The times of a matrix descriptor on its unit (R23): its work follows the array's earlier work, without a start of its own
where it was dispatched before that work's last K-chunk. `work` is its array cycles, `tail` what follows them, both 0 where it does
not run. What still follows the earlier work of the array in these cycles has been counted as busy (R49). Answers the unit with its
busy cycles, when the last K-chunk begins and when the array is free; and the end. -/
def Module.arrayTimes (m : Module) (r : Nat) (x : Flight) (un : UnitSt) (work tail : Nat) : UnitSt × Nat :=
  let t := matOf x.d
  let base := max x.from_ un.arrayFree
  let lead := m.waits ((if x.start < un.lastChunk then 0 else t.startCycles) + work)
  let counted := un.tail - m.nsCycles r (base - un.arrayFree)
  let at_ := fun cycles => base + m.cyclesNs r (m.gated r cycles)
  let all := m.gated r (lead + tail)
  let first := m.gated r lead
  ({ un with arrayCycles := un.arrayCycles + (all - counted), lastChunk := at_ (lead - t.chunkCycles), arrayFree := at_ lead
             tail := max (all - first) (counted - first) }, at_ (lead + tail))

/-- Does a matrix descriptor end at once because it would read a tainted row (R35)? -/
def Mat.shut (t : Mat) (u : UnitSt) : Bool := t.acc && u.tainted t.accbase t.rows

/-- Run a matrix descriptor on its unit. One that ends with 0x01 before its epilogue is done reports AUX 0 (DESIGN CHOICE, log
entry 137). Its compressed slots under a COMP field of 0 are counted where it runs (R111). -/
def runMatrixOn (now r : Nat) (x : Flight) (u : Nat) (m : Module) : Module :=
  let t := matOf x.d
  let c := x.d.cluster
  let un := m.un r c u
  let (v, st) := runMatrix t (vmOf m r c u)
  if t.shut un then endFlight r x.id st 0 0 x.from_ m
  else
    let n := t.unexpected (m.cl r c)
    let k := m.arrayTimes r x un (if st = 0 then t.arrayCycles else v.issued) (if st = 0 then t.tailCycles else 0)
    let m := if n = 0 then m else m.bump kCOMP_UNEXPECTED n
    endFlight r x.id st v.flags.toNat (if t.epi ∧ st = 0 then toF32 v.amax else 0) k.2
      (noteBufMalformed now r c 0 v.malformed (bufWaits r c (putVm r c u v (fun un =>
        { un with arrayCycles := k.1.arrayCycles, lastChunk := k.1.lastChunk, arrayFree := k.1.arrayFree, tail := k.1.tail }) m)))

/-- Run a vector descriptor on its unit. One that stops early is busy for the rows it has done; one that a tainted row ends
before it runs is not (R35, R49). -/
def runVectorOn (r : Nat) (x : Flight) (u : Nat) (m : Module) : Module :=
  let t := vecOf x.d
  let c := x.d.cluster
  let (v, st) := runVector t (vmOf m r c u)
  if t.readsTaint (m.un r c u) then endFlight r x.id st 0 0 x.from_ m
  else
    let cycles := m.gated r (m.waits (t.cyclesOf v.issued))
    endFlight r x.id st v.flags.toNat 0 (x.from_ + m.cyclesNs r cycles)
      ((if t.buffered then bufWaits r c else id) (putVm r c u v (fun un => { un with vectorCycles := un.vectorCycles + cycles }) m))

/-- MATRIX_DESCRIPTOR (R23). While the region's gate is 0 nothing issues. -/
def execMatrixDescriptor (r id : Nat) (s : State) : Host.Outcome State Fault Refusal :=
  guarded (okR r) (s.does (fun now m =>
    match runnable m r id (fun d => d.cls == 1) with
    | some x => if m.gate r = 0 ∨ !inRowOrder m r x then m else runMatrixOn now r x (x.unit.getD 0) m
    | none => m))

/-- A vector descriptor of one operation. -/
def vectorEff (vop r id : Nat) (m : Module) : Module :=
  match runnable m r id (fun d => d.cls == 2 && (vecOf d).vop == vop) with
  | some x => if m.gate r = 0 ∨ !inRowOrder m r x then m else runVectorOn r x (x.unit.getD 0) m
  | none => m

/-- MOV (R40). -/
def execMov (r id : Nat) (s : State) : Host.Outcome State Fault Refusal :=
  guarded (okR r) (s.does (fun _ m => vectorEff 0x00 r id m))

/-- ADD (R40). -/
def execAdd (r id : Nat) (s : State) : Host.Outcome State Fault Refusal :=
  guarded (okR r) (s.does (fun _ m => vectorEff 0x01 r id m))

/-- SUB (R40). -/
def execSub (r id : Nat) (s : State) : Host.Outcome State Fault Refusal :=
  guarded (okR r) (s.does (fun _ m => vectorEff 0x02 r id m))

/-- MUL (R40). -/
def execMul (r id : Nat) (s : State) : Host.Outcome State Fault Refusal :=
  guarded (okR r) (s.does (fun _ m => vectorEff 0x03 r id m))

/-- FMA (R40). -/
def execFma (r id : Nat) (s : State) : Host.Outcome State Fault Refusal :=
  guarded (okR r) (s.does (fun _ m => vectorEff 0x04 r id m))

/-- MAX (R40). -/
def execMax (r id : Nat) (s : State) : Host.Outcome State Fault Refusal :=
  guarded (okR r) (s.does (fun _ m => vectorEff 0x05 r id m))

/-- MIN (R40). -/
def execMin (r id : Nat) (s : State) : Host.Outcome State Fault Refusal :=
  guarded (okR r) (s.does (fun _ m => vectorEff 0x06 r id m))

/-- ABS (R40). -/
def execAbs (r id : Nat) (s : State) : Host.Outcome State Fault Refusal :=
  guarded (okR r) (s.does (fun _ m => vectorEff 0x07 r id m))

/-- NEG (R40). -/
def execNeg (r id : Nat) (s : State) : Host.Outcome State Fault Refusal :=
  guarded (okR r) (s.does (fun _ m => vectorEff 0x08 r id m))

/-- CMPGT (R40). -/
def execCmpgt (r id : Nat) (s : State) : Host.Outcome State Fault Refusal :=
  guarded (okR r) (s.does (fun _ m => vectorEff 0x09 r id m))

/-- SELECT (R40). -/
def execSelect (r id : Nat) (s : State) : Host.Outcome State Fault Refusal :=
  guarded (okR r) (s.does (fun _ m => vectorEff 0x0A r id m))

/-- EXP2 (R40). -/
def execExp2 (r id : Nat) (s : State) : Host.Outcome State Fault Refusal :=
  guarded (okR r) (s.does (fun _ m => vectorEff 0x10 r id m))

/-- LOG2 (R40). -/
def execLog2 (r id : Nat) (s : State) : Host.Outcome State Fault Refusal :=
  guarded (okR r) (s.does (fun _ m => vectorEff 0x11 r id m))

/-- RCP (R40). -/
def execRcp (r id : Nat) (s : State) : Host.Outcome State Fault Refusal :=
  guarded (okR r) (s.does (fun _ m => vectorEff 0x12 r id m))

/-- RSQRT (R40). -/
def execRsqrt (r id : Nat) (s : State) : Host.Outcome State Fault Refusal :=
  guarded (okR r) (s.does (fun _ m => vectorEff 0x13 r id m))

/-- EXP (R40). -/
def execExp (r id : Nat) (s : State) : Host.Outcome State Fault Refusal :=
  guarded (okR r) (s.does (fun _ m => vectorEff 0x14 r id m))

/-- SILU_MUL (R40). -/
def execSiluMul (r id : Nat) (s : State) : Host.Outcome State Fault Refusal :=
  guarded (okR r) (s.does (fun _ m => vectorEff 0x15 r id m))

/-- RSUM (R41). -/
def execRsum (r id : Nat) (s : State) : Host.Outcome State Fault Refusal :=
  guarded (okR r) (s.does (fun _ m => vectorEff 0x20 r id m))

/-- RSUMSQ (R41). -/
def execRsumsq (r id : Nat) (s : State) : Host.Outcome State Fault Refusal :=
  guarded (okR r) (s.does (fun _ m => vectorEff 0x21 r id m))

/-- RMAX_IDX (R41). -/
def execRmaxIdx (r id : Nat) (s : State) : Host.Outcome State Fault Refusal :=
  guarded (okR r) (s.does (fun _ m => vectorEff 0x22 r id m))

/-- RMIN_IDX (R41). -/
def execRminIdx (r id : Nat) (s : State) : Host.Outcome State Fault Refusal :=
  guarded (okR r) (s.does (fun _ m => vectorEff 0x23 r id m))

/-- SMAX_STEP (R40). -/
def execSmaxStep (r id : Nat) (s : State) : Host.Outcome State Fault Refusal :=
  guarded (okR r) (s.does (fun _ m => vectorEff 0x24 r id m))

/-- SMAX_NORM (R40). -/
def execSmaxNorm (r id : Nat) (s : State) : Host.Outcome State Fault Refusal :=
  guarded (okR r) (s.does (fun _ m => vectorEff 0x25 r id m))

/-! ### Part arrays of state blocks (R156) -/

/-- End a descriptor that would write a part array: 0x02, nothing written, STATE_WRITE_REFUSED counted. -/
def stateRefused (r : Nat) (x : Flight) (m : Module) : Module :=
  endFlight r x.id 2 0 0 (x.ready.getD 0) (m.bump kSTATE_WRITE_REFUSED 1)

/-- Does a conversion write a part array: with its result, its statistics record or its scales and history? -/
def Conv.touches (t : Conv) (m : Module) (r : Nat) : Bool :=
  (t.dspace && touchesState m r t.daddr t.dstBytes) || (t.stspace && touchesState m r t.staddr 32)
    || (t.xspace && t.smode == 2 && touchesState m r t.xaddr 64) || (t.xspace && t.dmx && touchesState m r t.xaddr t.blocks)

/-- Does a move write a part array with one of its rows? -/
def Mv.touches (t : Mv) (m : Module) (r : Nat) : Bool :=
  t.dspace && (List.range t.rows).any (fun i => touchesState m r (t.daddr + 256 * (i * t.dstride)) (256 * t.slots))

/-- A conversion of one scaling mode. -/
def conversionEff (smode : Nat) (run : Conv → Nat → Nat → Nat → Module → ConvOut) (two : Conv → Nat → Module → Bool)
    (now r id : Nat) (m : Module) : Module :=
  match runnable m r id (fun d => d.cls == 3 && (convOf d).smode == smode) with
  | none => m
  | some x =>
    let t := convOf x.d
    if t.touches m r then stateRefused r x m
    else
    let lead := x.d.cluster
    let slow := if t.inStack then m.paced r (Config.delayNs m.free) - Config.delayNs m.free else 0
    let end_ := x.ready.getD 0 + m.cyclesNs r (m.waits (t.cycles (two t lead m))) + slow
    let n := t.unexpected r lead m
    let (m, st, fl, aux) := run t now r lead m
    let m := if n = 0 ∨ st = 2 then m else m.bump kCOMP_UNEXPECTED n
    endFlight r x.id st fl.toNat aux end_ (forL (t.buffers lead) m (fun c m => bufWaits r c m.useFree))

/-- CONVERSION_UNSCALED (R92). -/
def execConversionUnscaled (r id : Nat) (s : State) : Host.Outcome State Fault Refusal :=
  guarded (okR r) (s.does (fun now m => conversionEff 0 convUnscaled (fun _ _ _ => false) now r id m))

/-- CONVERSION_CURRENT (R92). -/
def execConversionCurrent (r id : Nat) (s : State) : Host.Outcome State Fault Refusal :=
  guarded (okR r) (s.does (fun now m => conversionEff 1 (fun t now r lead m => convCurrent t now r lead none m) (fun _ _ _ => true) now r id m))

/-- CONVERSION_DELAYED (R60): two passes while the history record holds no entry (R92). -/
def execConversionDelayed (r id : Nat) (s : State) : Host.Outcome State Fault Refusal :=
  guarded (okR r) (s.does (fun now m => conversionEff 2 convDelayed
    (fun t lead m => (histOf (if t.xspace then m.peekB r t.xaddr 64 else
      ((m.cl r lead).read (16 * r + lead) (256 * t.xaddr) 64).1)).filled == 0) now r id m))

/-- CONVERSION_FIXED (R90). -/
def execConversionFixed (r id : Nat) (s : State) : Host.Outcome State Fault Refusal :=
  guarded (okR r) (s.does (fun now m => conversionEff 3 convFixed (fun _ _ _ => false) now r id m))

/-- A move with a compression mode. -/
def moveEff (cmode now r id : Nat) (m : Module) : Module :=
  match runnable m r id (fun d => d.cls == 4 && (mvOf d).cmode == cmode) with
  | none => m
  | some x =>
    let t := mvOf x.d
    if t.touches m r then stateRefused r x m
    else
    let end_ := x.ready.getD 0 + (if t.sspace || t.dspace then m.paced r (Config.delayNs m.free) else Config.delayNs m.free)
    let (m, st) := runMove (cmode == 1) t now r x.d.cluster m
    endFlight r x.id st 0 0 end_ (if t.sspace && t.dspace then m.useFree else bufWaits r x.d.cluster m.useFree)

/-- MOVE (R89). -/
def execMove (r id : Nat) (s : State) : Host.Outcome State Fault Refusal :=
  guarded (okR r) (s.does (fun now m => moveEff 0 now r id m))

/-- MOVE_COMPRESS (R110). -/
def execMoveCompress (r id : Nat) (s : State) : Host.Outcome State Fault Refusal :=
  guarded (okR r) (s.does (fun now m => moveEff 1 now r id m))

end Sys2Proof.Machine
end

