-- ==== Sys2Proof/Machine/EventDesc.lean ====
section
/-! DEFINITION. Event descriptors (R86–R88, R96, R98). -/

namespace Sys2Proof.Machine

/-! ### Body fields (R86) -/

def evOp (d : Desc) : Nat := fld d.w2 63 56
def evCnt (d : Desc) : Nat := fld d.w2 55 48
def evValue (d : Desc) : Nat := fld d.w2 47 32
def evMask (d : Desc) : Nat := fld d.w2 31 16
def evTime (d : Desc) : Nat := d.w3.toNat
def evTarget (d : Desc) : Nat := fld d.w4 55 0
def evCount (d : Desc) : Nat := fld d.w5 47 32

def isEvent (eop : Nat) (d : Desc) : Bool := d.cls == 7 && evOp d == eop

/-- An event descriptor under way, waiting for its own end. -/
def waitingEvent (m : Module) (r id eop : Nat) : Option Flight :=
  match (m.work r).flight? id with
  | none => none
  | some x => if x.phase = 4 ∧ isEvent eop x.d then some x else none

/-- End an event at once with a status. -/
def endNow (now r id st : Nat) (m : Module) : Module := endFlight r id st 0 0 now m

/-- Complete a descriptor whose own event has come. -/
def completeNow (now r : Nat) (x : Flight) (st : Nat) (m : Module) : Module :=
  restall now (admitHeld now r (complete now r { x with status := st, endAt := now } m))

/-- FENCE (R86): under way until every earlier descriptor of its context has completed. -/
def execFence (r id : Nat) (s : State) : Host.Outcome State Fault Refusal :=
  guarded (okR r) (s.does (fun _ m =>
    match runnable m r id (isEvent 1) with
    | some x => m.modFlight r x.id (fun x => { x with phase := 4 })
    | none => m))

/-- Has every descriptor of the context accepted before x completed? -/
def fenceMet (w : Work) (x : Flight) : Bool :=
  w.flights.all (fun y => decide (x.id ≤ y.id) || y.d.ctx != x.d.ctx || y.done)

/-- FENCE_COMPLETE (R86). -/
def execFenceComplete (r id : Nat) (s : State) : Host.Outcome State Fault Refusal :=
  guarded (okR r) (s.does (fun now m =>
    match waitingEvent m r id 1 with
    | some x => if fenceMet (m.work r) x then completeNow now r x 0 m else m
    | none => m))

/-- The effect of a SIGNAL: the local counter, or a SIGNAL frame (R86, R87). Answers the status. -/
def signalEff (now r : Nat) (d : Desc) (m : Module) : Module × Nat :=
  let t := evTarget d
  if t = 0 then (if evCnt d = 255 then (m, 2) else (incCounter now r (evCnt d) (evValue d) m, 0))
  else if bits t 36 8 ≠ 0 ∨ bits t 7 0 = 255 ∨ m.kindOf (addrNode t) ≠ 0 then (m, 2)
  else
    let (m, st) := issue now r .none d.ctx (m.mkReq opSIGNAL r (m.gen r) t (evValue d) []) m
    (m, if st = 0x100 then 0 else st)

/-- SIGNAL (R87). -/
def execSignal (r id : Nat) (s : State) : Host.Outcome State Fault Refusal :=
  guarded (okR r) (s.does (fun now m =>
    match runnable m r id (isEvent 2) with
    | some x => let (m, st) := signalEff now r x.d m; restall now (endNow now r x.id st m)
    | none => m))

/-- SET (R86). -/
def execSet (r id : Nat) (s : State) : Host.Outcome State Fault Refusal :=
  guarded (okR r) (s.does (fun now m =>
    match runnable m r id (isEvent 3) with
    | some x =>
      if evCnt x.d = 255 then endNow now r x.id 2 m
      else restall now (endNow now r x.id 0 (m.modWork r (fun w => w.setCounter (evCnt x.d) (evValue x.d))))
    | none => m))

/-- WAIT_UNTIL (R86). -/
def execWaitUntil (r id : Nat) (s : State) : Host.Outcome State Fault Refusal :=
  guarded (okR r) (s.does (fun now m =>
    match runnable m r id (isEvent 4) with
    | some x => if evTime x.d ≤ now then endNow now r x.id 0 m else m.modFlight r x.id (fun x => { x with phase := 4 })
    | none => m))

/-- WAIT_UNTIL_EXPIRY (R86): the moment TIME. -/
def execWaitUntilExpiry (r id : Nat) (s : State) : Host.Outcome State Fault Refusal :=
  let w := waitingEvent s.mod r id 4
  guarded (okR r) (s.doesWhen w.isSome ((w.map (fun x => evTime x.d)).getD 0) (fun now m =>
    match waitingEvent m r id 4 with
    | some x => completeNow now r x 0 m
    | none => m))

/-- IDLE_HINT (R98). -/
def execIdleHint (r id : Nat) (s : State) : Host.Outcome State Fault Refusal :=
  guarded (okR r) (s.does (fun now m =>
    match runnable m r id (isEvent 5) with
    | some x =>
      let hs := if now < evTime x.d then [(evMask x.d, evTime x.d, x.d.prio)] else []
      endNow now r x.id 0 (m.modWork r (fun w => { w with hints := w.hints ++ hs }))
    | none => m))

/-- Fetch and submit the descriptors of a LAUNCH from its progress on, while the region has places and is not being
disabled (R88, R396). Answers the progress and the status of the fetch. -/
def launchFetch (now r : Nat) (x : Flight) (m : Module) : Module × Nat × Nat :=
  (List.range (evCount x.d - x.fetched)).foldl (fun (a : Module × Nat × Nat) _ =>
    let (m, k, st) := a
    if st ≠ 0 ∨ 4096 ≤ (m.work r).flights.length ∨ m.refusesWork r then a
    else
      let (m, st, bs) := memRead now r 0x0A (evTarget x.d + 64 * k) 64 m
      if st ≠ 0 then (m, k, st) else (submit now r (Desc.ofBytes bs) m, k + 1, 0)) (m, x.fetched, 0)

/-- Go on with a LAUNCH: it ends with its last descriptor, or at an uncorrectable sector, and pauses otherwise. -/
def launchEff (now r : Nat) (x : Flight) (m : Module) : Module :=
  let (m, k, st) := launchFetch now r x m
  if st ≠ 0 then endNow now r x.id st m
  else if k = evCount x.d then endNow now r x.id 0 m
  else m.modFlight r x.id (fun y => { y with phase := 4, fetched := k })

/-- LAUNCH (R88). -/
def execLaunch (r id : Nat) (s : State) : Host.Outcome State Fault Refusal :=
  guarded (okR r) (s.does (fun now m =>
    match runnable m r id (isEvent 6) with
    | some x =>
      if evCount x.d = 0 ∨ evTarget x.d % 64 ≠ 0 ∨ !readable (evTarget x.d) (64 * evCount x.d) then endNow now r x.id 2 m
      else restall now (launchEff now r x m)
    | none => m))

/-- LAUNCH_RESUME (R88). -/
def execLaunchResume (r id : Nat) (s : State) : Host.Outcome State Fault Refusal :=
  guarded (okR r) (s.does (fun now m =>
    match waitingEvent m r id 6 with
    | some x => restall now (launchEff now r x m)
    | none => m))

/-- YIELD (R96). -/
def execYield (r id : Nat) (s : State) : Host.Outcome State Fault Refusal :=
  guarded (okR r) (s.does (fun now m =>
    match runnable m r id (isEvent 7) with
    | some x => restall now (endNow now r x.id 0 (m.modWork r (requestSwitch (evValue x.d % 8))))
    | none => m))

end Sys2Proof.Machine
end

