-- ==== Sys2Proof/Machine/FabricDesc.lean ====
section
/-! DEFINITION. Fabric descriptors (R251, R252), their responses, tags and timeouts (R241, R242), and the collective
engine (R248–R250). -/

namespace Sys2Proof.Machine

/-! ### The body (R251) -/

structure Fd where
  fop : Nat
  stored : Bool
  raddr : Nat
  laddr : Nat
  len : Nat
  aux : Nat
  group : Nat
  cop : Nat
  fmt : Nat
  cseq : Nat
  xaddr : Nat
  deriving DecidableEq, Repr

def fdOf (d : Desc) : Fd :=
  { fop := fld d.w2 63 59, stored := fldB d.w2 58, raddr := fld d.w2 55 0, laddr := fld d.w3 36 0, len := fld d.w4 63 32,
    aux := fld d.w4 31 0, group := fld d.w5 63 48, cop := fld d.w5 47 44, fmt := fld d.w5 43 40, cseq := fld d.w5 39 16,
    xaddr := fld d.w6 36 0 }

def isFabric (fop : Nat) (d : Desc) : Bool := d.cls == 6 && (fdOf d).fop == fop

/-- Bytes of one accumulate block by format (R163). -/
def accBytes (fmt : Nat) : Nat := if fmt = 1 then 512 else 1024

/-- Bytes of one collective element (R249). -/
def collElem (cop fmt : Nat) : Nat := if cop % 4 = 0 ∨ cop / 4 = 3 then (if fmt = 1 then 2 else 4) else 8

/-- Modes of a collective (R249); ALLGATHER ignores the operation. -/
def collMode (cop : Nat) : Nat := cop / 4

/-! ### Groups (R248) -/

/-- The members of group g in a table that starts at an offset of region 0, in rank order. -/
def groupIn (m : Module) (g : Nat) : Nat → Nat → List (Nat × Nat)
  | 0, _ => []
  | n + 1, off =>
    let id := m.peek 0 off 2
    let cnt := m.peek 0 (off + 2) 2
    if cnt = 0 ∨ 32768 < cnt then []
    else if id = g then
      (List.range cnt).map (fun i => let w := m.peek 0 (off + 16 + 4 * i) 4; (bits w 18 4, bits w 3 0))
    else groupIn m g n (off + 16 + 4 * cnt)

def Module.members (m : Module) (g : Nat) : List (Nat × Nat) := groupIn m g 1024 (addrOff (m.num kCOLL_BASE))

/-- The rank of a member. -/
def rankOf (ms : List (Nat × Nat)) (node r : Nat) : Option Nat := ms.findIdx? (fun x => x == (node, r))

/-- The byte range of chunk c of n members (R249, R250): equal chunks of elements, the last ones short where the count
does not divide (log entry 13). -/
def chunkRange (len elem n c : Nat) : Nat × Nat :=
  let s := ceilDiv (len / elem) n * elem
  (min len (c * s), min len ((c + 1) * s))

/-! ### Checks (R252) -/

def Fd.ok (t : Fd) (m : Module) (r : Nat) : Bool :=
  let blocks := t.len / 512
  decide (t.len ≠ 0) &&
    (if t.fop = opREAD then writable t.laddr t.len && (!t.stored || (t.raddr % 256 == 0 && t.laddr % 256 == 0 && t.len % 256 == 0))
     else if t.fop = opWRITE then readable t.laddr t.len
     else if t.fop = opACCUM then decide (t.fmt ≤ 1) && t.len % accBytes t.fmt == 0 && readable t.laddr t.len
     else if t.fop = opGATHER then t.len % 512 == 0 && writable t.laddr t.len && writable t.xaddr (4 * blocks) && (!t.stored || t.laddr % 256 == 0)
     else if t.fop = opREFETCH then t.len % 512 == 0 && writable t.laddr t.len && readable t.xaddr (4 * blocks) && (!t.stored || t.laddr % 256 == 0)
     else if t.fop = opRELEASE then t.len % 512 == 0 && readable t.xaddr (4 * blocks)
     else if t.fop = opSTAGE then readable t.laddr t.len
     else if t.fop = opCOLL then
       let ms := m.members t.group
       let out := if collMode t.cop = 3 then t.len * ms.length else t.len
       (rankOf ms m.node r).isSome && (collMode t.cop == 3 || decide (t.cop % 4 < 3)) && decide (t.fmt ≤ 1)
         && (collMode t.cop == 3 || t.cop % 4 == 0 || t.fmt == 0) && t.len % collElem t.cop t.fmt == 0 && readable t.laddr t.len && writable t.xaddr out
     else false)

/-- Does the descriptor write a part array of its own region (R156)? -/
def Fd.touches (t : Fd) (m : Module) (r : Nat) : Bool :=
  let blocks := t.len / 512
  ((t.fop == opREAD || t.fop == opGATHER || t.fop == opREFETCH) && touchesState m r t.laddr t.len)
    || (t.fop == opGATHER && touchesState m r t.xaddr (4 * blocks))
    || (t.fop == opCOLL && touchesState m r t.xaddr (if collMode t.cop = 3 then t.len * (m.members t.group).length else t.len))

/-! ### Cutting into frames (R252, R254) -/

def perFrame (cap each limit : Nat) : Nat := max 1 (min cap (limit / each))

/-- Bytes of a descriptor's data that one frame covers. -/
def Fd.unit (t : Fd) (m : Module) : Nat :=
  let lim := m.bodyLimit (addrNode t.raddr)
  if t.fop = opREAD ∧ t.stored then perFrame 15 256 (lim - 8) * 256
  else if t.fop = opACCUM then perFrame (if t.fmt = 1 then 8 else 4) (accBytes t.fmt) lim * accBytes t.fmt
  else if t.fop = opGATHER ∨ t.fop = opREFETCH ∨ t.fop = opRELEASE then perFrame 7 524 lim * 512
  else if t.fop = opSTAGE then m.bodyLimit (addrNode (m.sqRec t.group).ring)
  else lim

/-- Frame idx of a descriptor, with the status of the local read that its body needs. -/
def Fd.frame (t : Fd) (now r i : Nat) (m : Module) : Module × Nat × Frame :=
  let u := t.unit m
  let off := u * i
  let n := min u (t.len - off)
  let gen := m.gen r
  let mk := fun (addr aux : Nat) (body : List Byte) => m.mkReq t.fop r gen addr aux body
  if t.fop = opREAD then (m, 0, { mk (t.raddr + off) n [] with stored := t.stored })
  else if t.fop = opGATHER then (m, 0, { mk (t.raddr + off) (n / 512) [] with stored := t.stored })
  else if t.fop = opREFETCH ∨ t.fop = opRELEASE then
    let (m, st, vs) := memRead now r 5 (t.xaddr + 4 * (off / 512)) (4 * (n / 512)) m
    (m, st, { mk (t.raddr + off) (n / 512) vs with stored := t.stored && t.fop == opREFETCH })
  else if t.fop = opSTAGE then
    let q := m.sqRec t.group
    let e := (m.sq t.group).nextOut
    let (m, st, bs) := memRead now r 5 (t.laddr + off) n m
    (m, st, { mk (q.ring + e % q.slots * (q.entry * 256) + off) off bs with group := q.peerq, cseq := e % 2 ^ 24 })
  else
    let (m, st, bs) := memRead now r 5 (t.laddr + off) n m
    if t.fop = opACCUM then (m, st, { mk (t.raddr + off / accBytes t.fmt * 64) t.aux bs with fmt := t.fmt })
    else (m, st, mk (t.raddr + off) 0 bs)

/-! ### Results of frames (R252) -/

/-- Note the result of frame idx: the first in address order that is not 0x00 gives status and AUX. -/
def noteResult (r id idx st aux : Nat) (m : Module) : Module :=
  if st = 0 then m
  else m.modFlight r id (fun x => if x.fetched = 0 ∨ idx + 1 < x.fetched then { x with fetched := idx + 1, status := st, aux := aux } else x)

/-- Does a frame of the descriptor still wait for a tag or a response? -/
def outstanding (m : Module) (r id : Nat) : Bool :=
  let mine := fun (h : Nat) (o : Owner) => h == r && match o with | .flight i _ => i == id | _ => false
  m.fabric.reqs.any (fun q => mine q.holder q.owner) || m.fabric.waiting.any (fun w => mine w.holder w.owner)

/-- Result bytes that a collective descriptor waits for. -/
def collExpected (t : Fd) (m : Module) (r : Nat) : Nat :=
  let ms := m.members t.group
  let c := (rankOf ms m.node r).getD 0
  match collMode t.cop with
  | 0 => t.len
  | 1 => let x := chunkRange t.len (collElem t.cop t.fmt) ms.length c; x.2 - x.1
  | 2 => if c = 0 then t.len else 0
  | _ => t.len * ms.length

/-- End a fabric descriptor whose frames all have their response, or whose collective result is written (R252). -/
def fabricDone (now r id : Nat) (m : Module) : Module :=
  match (m.work r).flight? id with
  | none => m
  | some x =>
    if x.phase ≠ 4 ∨ x.d.cls ≠ 6 then m
    else
      let t := fdOf x.d
      let out := outstanding m r id
      let e := collExpected t m r
      if t.fop = opCOLL then
        if x.status ≠ 0 ∧ !out then endFlight r id x.status 0 x.aux now m
        else if x.status = 0 ∧ ((e = 0 ∧ !out) ∨ (e ≠ 0 ∧ e ≤ x.got)) then endFlight r id 0 0 0 now m
        else m
      else if out then m
      else endFlight r id x.status 0 x.aux now m

/-- Issue frame idx of a descriptor: a failed local read, or no route, is that frame's result (R245). -/
def issueFrame (now r : Nat) (x : Flight) (idx st : Nat) (f : Frame) (m : Module) : Module :=
  if st ≠ 0 then noteResult r x.id idx st 0 m
  else
    let (m, st) := issue now r (.flight x.id idx) x.d.ctx f m
    if st = 0x100 then m else noteResult r x.id idx st 0 m

/-- Run a fabric descriptor other than COLL. -/
def fabricRun (now r : Nat) (x : Flight) (m : Module) : Module :=
  let t := fdOf x.d
  if !t.ok m r then endNow now r x.id 2 m
  else if t.touches m r then endNow now r x.id 2 (m.bump kSTATE_WRITE_REFUSED 1)
  else
    let m := m.modFlight r x.id (fun y => { y with phase := 4 })
    let m := forN (ceilDiv t.len (t.unit m)) m (fun i m =>
      let (m, st, f) := t.frame now r i m
      issueFrame now r x i st f m)
    fabricDone now r x.id m

/-- A fabric descriptor of one FOP. -/
def fabricEff (fop now r id : Nat) (m : Module) : Module :=
  match runnable m r id (isFabric fop) with
  | some x => fabricRun now r x m
  | none => m

/-- FABRIC_READ (R252). -/
def execFabricRead (r id : Nat) (s : State) : Host.Outcome State Fault Refusal :=
  guarded (okR r) (s.does (fun now m => fabricEff opREAD now r id m))

/-- FABRIC_WRITE (R252). -/
def execFabricWrite (r id : Nat) (s : State) : Host.Outcome State Fault Refusal :=
  guarded (okR r) (s.does (fun now m => fabricEff opWRITE now r id m))

/-- FABRIC_ACCUM (R252). -/
def execFabricAccum (r id : Nat) (s : State) : Host.Outcome State Fault Refusal :=
  guarded (okR r) (s.does (fun now m => fabricEff opACCUM now r id m))

/-- FABRIC_GATHER (R252). -/
def execFabricGather (r id : Nat) (s : State) : Host.Outcome State Fault Refusal :=
  guarded (okR r) (s.does (fun now m => fabricEff opGATHER now r id m))

/-- FABRIC_REFETCH (R252): the blocks asked for count in REFETCHES (R197). -/
def execFabricRefetch (r id : Nat) (s : State) : Host.Outcome State Fault Refusal :=
  guarded (okR r) (s.does (fun now m =>
    match runnable m r id (isFabric opREFETCH) with
    | some x =>
      let t := fdOf x.d
      fabricRun now r x (if t.ok m r && !t.touches m r then m.bump kREFETCHES (t.len / 512) else m)
    | none => m))

/-- FABRIC_RELEASE (R252). -/
def execFabricRelease (r id : Nat) (s : State) : Host.Outcome State Fault Refusal :=
  guarded (okR r) (s.does (fun now m => fabricEff opRELEASE now r id m))

/-- FABRIC_STAGE (R193, R252): one whole entry; its credit was taken at dispatch. -/
def execFabricStage (r id : Nat) (s : State) : Host.Outcome State Fault Refusal :=
  guarded (okR r) (s.does (fun now m =>
    match runnable m r id (isFabric opSTAGE) with
    | some x =>
      let t := fdOf x.d
      let good := t.ok m r
      let m := fabricRun now r x m
      if good then (m.modSq t.group (fun q => { q with nextOut := q.nextOut + 1, owed := q.owed + 1 })).bump (kENTRIES + t.group) 1 else m
    | none => m))

/-! ### The collective engine (R249, R250) -/

/-- One level of the tree: (0, 1), (2, 3) and so on. -/
def pairUp {σ : Type} (f : σ → σ → σ) : List σ → List σ
  | a :: b :: t => f a b :: pairUp f t
  | xs => xs

/-- The tree over ranks. -/
def treeOver {σ : Type} (f : σ → σ → σ) : Nat → List σ → Option σ
  | 0, xs => xs.head?
  | n + 1, xs => treeOver f n (pairUp f xs)

/-- One member's element of MAX_IDX or MIN_IDX against the one of a later rank: the lower index of equal values, a NaN
takes the result (R41, R249). -/
def idxCombine (isMax : Bool) (a b : FV × Nat) : FV × Nat :=
  if a.1.isNan ∨ b.1.isNan then (if a.1.isNan ∧ (!b.1.isNan ∨ a.2 ≤ b.2) then a else b)
  else
    let bBetter := if isMax then b.1.gt a.1 else a.1.gt b.1
    let aBetter := if isMax then a.1.gt b.1 else b.1.gt a.1
    if bBetter then b else if aBetter then a else if a.2 ≤ b.2 then a else b

/-- Reduce the members' frames of one byte range, in rank order; answers bytes and flags. -/
def reduceParts (cop fmt : Nat) (xs : List (List Byte)) : List Byte × Flags :=
  let e := collElem cop fmt
  let n := (xs.headD []).length / e
  (List.range n).foldl (fun (a : List Byte × Flags) i =>
    if cop % 4 = 0 then
      let f := if fmt = 1 then bf16 else fp32
      let vs := xs.map (fun x => ((decodeFmt f (leAt x (i * e) e), 0) : FR))
      let s := (treeOver frAdd 16 vs).getD (fvZero, 0)
      let s := if vs.length = 1 ∧ s.1.isNan then invalidNan else s
      let (c, fl) := convertCode f none s.1
      (a.1 ++ leBytes e c, a.2 ||| s.2 ||| fl)
    else
      let vs := xs.map (fun x => (f32 (leAt x (i * 8) 4), leAt x (i * 8 + 4) 4))
      let s := (treeOver (idxCombine (cop % 4 == 1)) 16 vs).getD (fvZero, 0)
      (a.1 ++ leBytes 4 (toF32 s.1) ++ leBytes 4 s.2, if s.1.isNan then a.2 ||| fINVALID else a.2)) ([], 0)

/-- The collective descriptor of a region that takes part in (group, CSEQ). -/
def collFlight (m : Module) (r group cseq : Nat) : Option Flight :=
  (m.work r).flights.find? (fun x => x.phase == 4 && isFabric opCOLL x.d && (fdOf x.d).group == group && (fdOf x.d).cseq == cseq)

/-- Write result bytes at the descriptor's XADDR. -/
def collWrite (now r : Nat) (x : Flight) (pos : Nat) (bs : List Byte) (m : Module) : Module :=
  let (m, st) := memWrite now r 5 ((fdOf x.d).xaddr + pos) bs m
  let m := noteResult r x.id 0 st 0 m
  fabricDone now r x.id (m.modFlight r x.id (fun y => { y with got := y.got + bs.length }))

/-- A result for a member: the descriptor's result, or the norm sum of region 0 (R165), kept for NORM_FENCE. -/
def collResult (now r group cseq off : Nat) (bs : List Byte) (m : Module) : Module :=
  match collFlight m r group cseq with
  | some x =>
    let t := fdOf x.d
    let ms := m.members group
    let base := if collMode t.cop = 1 then
      (chunkRange t.len (collElem t.cop t.fmt) ms.length ((rankOf ms m.node r).getD 0)).1 else 0
    collWrite now r x (off - base) bs m
  | none => if r = 0 ∧ group = m.num kNORM_GROUP then { m with norm := Tab.put m.norm 32 (leAt bs 0 4) } else m

/-- A COLL frame of this module's region r to a member. -/
def collFrame (m : Module) (r : Nat) (to_ : Nat × Nat) (group cseq cop fmt off aux : Nat) (bs : List Byte) : Frame :=
  { m.mkReq opCOLL r (m.gen r) (mkAddr to_.1 to_.2 off) aux bs with group := group, cseq := cseq, cop := cop, fmt := fmt }

/-- Reduce a range once every rank's contribution to it is there, and pass the result on (R250). -/
def collReduce (now r group cseq off : Nat) (m : Module) : Module :=
  let same := fun (p : CollPart) => p.region == r && p.group == group && p.cseq == cseq && p.off == off
  let ps := m.fabric.colls.filter same
  let ms := m.members group
  let data := (List.range ms.length).map (fun k => (ps.find? (fun p => p.rank == k)).map (·.data))
  if ms = [] ∨ data.any Option.isNone then m
  else
    let cop := (ps.headD ⟨0, 0, 0, 0, 0, 0, 0, []⟩).cop
    let fmt := (ps.headD ⟨0, 0, 0, 0, 0, 0, 0, []⟩).fmt
    let (bs, fl) := reduceParts cop fmt (data.map (·.getD []))
    let m := m.modFab (fun x => { x with colls := x.colls.filter (fun p => !same p)
                                         collFlags := Tab.put x.collFlags (r / 4) (Tab.get 0 x.collFlags (r / 4) ||| fl.toNat) })
    if collMode cop = 0 then
      (issueAll now r 0 (ms.map (fun to_ => collFrame m r to_ group cseq cop fmt off 1 bs)) m).1
    else collResult now r group cseq off bs m

/-- Take the gathered contributions that wait for the member's own descriptor (ALLGATHER). -/
def collGathered (now r group cseq : Nat) (m : Module) : Module :=
  match collFlight m r group cseq with
  | none => m
  | some x =>
    let mine := fun (p : CollPart) => p.region == r && p.group == group && p.cseq == cseq && collMode p.cop == 3
    let ps := m.fabric.colls.filter mine
    forL ps (m.modFab (fun y => { y with colls := y.colls.filter (fun p => !mine p) })) (fun p m =>
      collWrite now r x (p.rank * (fdOf x.d).len + p.off) p.data m)

/-- Keep a contribution, and reduce what it completes. -/
def collTake (now : Nat) (p : CollPart) (m : Module) : Module :=
  let m := m.modFab (fun x => { x with colls := x.colls ++ [p] })
  if collMode p.cop = 3 then collGathered now p.region p.group p.cseq m else collReduce now p.region p.group p.cseq p.off m

/-- The longest body that every member of a group can be sent, as ranges are combined frame by frame (R254). -/
def Module.collUnit (m : Module) (ms : List (Nat × Nat)) : Nat := ms.foldl (fun a x => min a (m.bodyLimit x.1)) 4096

/-- Frames of a member's contribution, of at most u bytes: chunk c to rank c, all of it to rank 0 or to every rank (R250). -/
def collSends (u : Nat) (t : Fd) (ms : List (Nat × Nat)) : List ((Nat × Nat) × Nat × Nat) :=
  let cut := fun (to_ : Nat × Nat) (lo hi : Nat) =>
    (List.range (ceilDiv (hi - lo) u)).map (fun i => (to_, lo + u * i, min u (hi - lo - u * i)))
  match collMode t.cop with
  | 2 => cut (ms.headD (0, 0)) 0 t.len
  | 3 => ms.flatMap (fun to_ => cut to_ 0 t.len)
  | _ => (List.range ms.length).flatMap (fun c =>
      let x := chunkRange t.len (collElem t.cop t.fmt) ms.length c
      cut (ms.getD c (0, 0)) x.1 x.2)

/-- Run a collective descriptor: send the contribution. -/
def collRun (now r : Nat) (x : Flight) (m : Module) : Module :=
  let t := fdOf x.d
  if !t.ok m r then endNow now r x.id 2 m
  else if t.touches m r then endNow now r x.id 2 (m.bump kSTATE_WRITE_REFUSED 1)
  else
    let ms := m.members t.group
    let sends := collSends (m.collUnit ms) t ms
    let m := m.modFlight r x.id (fun y => { y with phase := 4 })
    let m := forN sends.length m (fun i m =>
      let s := sends.getD i ((0, 0), 0, 0)
      let (m, st, bs) := memRead now r 5 (t.laddr + s.2.1) s.2.2 m
      issueFrame now r x i st (collFrame m r s.1 t.group t.cseq t.cop t.fmt s.2.1 0 bs) m)
    fabricDone now r x.id (collGathered now r t.group t.cseq m)

/-! ### Responses of a descriptor's frames (R235, R252) -/

/-- Slots in stored form from a code word and the sectors after it: code, sectors; for n slots. -/
def cutStored (codes n : Nat) (bs : List Byte) : List (Nat × List Byte) :=
  cutStoredGo n codes bs
where
  cutStoredGo : Nat → Nat → List Byte → List (Nat × List Byte)
    | 0, _, _ => []
    | n + 1, codes, bs =>
      let c := codes % 16
      let len := 32 * sectorsOf c
      (c, bs.take len) :: cutStoredGo n (codes / 16) (bs.drop len)

/-- Write slots in stored form from an offset. -/
def writeSlots (now r off : Nat) (xs : List (Nat × List Byte)) (m : Module) : Module × Nat :=
  (List.range xs.length).foldl (fun (a : Module × Nat) i =>
    let x := xs.getD i (0, [])
    let (m, ok) := writeStored now r 5 (off / 256 + i) x.1 x.2 (noteAlloc r (off + 256 * i) 256 a.1)
    (m, if ok then a.2 else 1)) (m, 0)

/-- Working copies of a GATHER or REFETCH response: per block its version and its bytes, stored slots or expanded. -/
def cutCopies (stored : Bool) (n : Nat) (body : List Byte) : List (Nat × Sum (List Byte) (List (Nat × List Byte))) :=
  let head := ceilDiv n 2 * 8
  let vs := (List.range n).map (fun i => leAt body (4 * i) 4)
  (vs.foldl (fun (a : List (Nat × Sum (List Byte) (List (Nat × List Byte))) × List Byte) v =>
    if stored then
      let slots := cutStored (leAt a.2 0 1) 2 (a.2.drop 8)
      let used := 8 + ((slots.map (fun s => 32 * sectorsOf s.1)).sum)
      (a.1 ++ [(v, .inr slots)], a.2.drop used)
    else (a.1 ++ [(v, .inl (a.2.take 512))], a.2.drop 512)) ([], body.drop head)).1

/-- Is block i of the response one that the owner did not serve (R235)? Under 0x01 the block at AUX, and a later one
whose version word is 0 and which has no stored sector; a refused version brings another word than the one asked for.
Of its own answers the module knows which they are (log entry 23). -/
def notServed (t : Fd) (req f : Frame) (told : Option (List Nat)) (i : Nat) (x : Nat × Sum (List Byte) (List (Nat × List Byte))) : Bool :=
  match told with
  | some l => l.contains i
  | none =>
    f.status ≠ 0 && ((f.status == 1 && (i == f.aux || (decide (f.aux < i) && x.1 == 0
        && (match x.2 with | .inl _ => true | .inr ss => ss.all (fun s => sectorsOf s.1 == 0)))))
      || (t.fop == opREFETCH && x.1 ≠ leAt req.body (4 * i) 4))

/-- Write the served blocks of a GATHER or REFETCH response; blocks not served are left (R235). Answers the served
blocks and their stored bytes. -/
def takeCopies (now r : Nat) (t : Fd) (first : Nat) (req f : Frame) (told : Option (List Nat)) (m : Module) : Module × Nat × Nat :=
  let n := req.aux
  let xs := cutCopies f.stored n f.body
  (List.range n).foldl (fun (a : Module × Nat × Nat) i =>
    let x := xs.getD i (0, .inl [])
    if notServed t req f told i x then a
    else
      let b := first + i
      let m := a.1
      let m := if t.fop = opGATHER then (memWrite now r 5 (t.xaddr + 4 * b) (leBytes 4 x.1) m).1 else m
      match x.2 with
      | .inl bs => ((memWrite now r 5 (t.laddr + 512 * b) bs m).1, a.2.1 + 1, a.2.2 + 512)
      | .inr ss => ((writeSlots now r (t.laddr + 512 * b) ss m).1, a.2.1 + 1, a.2.2 + ((ss.map (fun s => 32 * sectorsOf s.1)).sum))) (m, 0, 0)

/-- What the module knows of the blocks that its own answer left out; taken once (log entry 23). -/
def takeTold (req : Frame) (m : Module) : Module × Option (List Nat) :=
  if addrNode req.addr ≠ m.node then (m, none)
  else
    let mine := fun (u : Nat × Nat × List Nat) => (u.1, u.2.1) = (req.tag, req.srcRegion)
    match m.fabric.unserved.find? (fun u => mine u) with
    | some u => ({ m with fabric := { m.fabric with unserved := m.fabric.unserved.filter (fun v => !mine v) } }, some u.2.2)
    | none => (m, some [])

/-- Take the response to frame idx of descriptor x. -/
def flightResponse (now r : Nat) (x : Flight) (idx : Nat) (req f : Frame) (m : Module) : Module :=
  let t := fdOf x.d
  let u := t.unit m
  let (m, st, aux) : Module × Nat × Nat :=
    if t.fop = opREAD then
      if f.status ≠ 0 then (m, f.status, f.aux)
      else if f.stored then
        let n := req.aux / 256
        let (m, st) := writeSlots now r (t.laddr + u * idx) (cutStored (leAt f.body 0 8) n (f.body.drop 8)) m
        (m, st, 0)
      else let (m, st) := memWrite now r 5 (t.laddr + u * idx) f.body m; (m, st, 0)
    else if t.fop = opGATHER ∨ t.fop = opREFETCH then
      if f.status = 0 ∨ f.status = 1 ∨ f.status = 5 then
        let first := u / 512 * idx
        let (m, told) := takeTold req m
        let (m, served, bytes) := takeCopies now r t first req f told m
        let m := if t.fop = opGATHER then m.bump kLEASES served else m.bump kREFETCH_BYTES bytes
        (m, f.status, if f.status = 1 then first + f.aux else f.aux)
      else (m, f.status, f.aux)
    else (m, f.status, f.aux)
  fabricDone now r x.id (noteResult r x.id idx st aux m)

end Sys2Proof.Machine
end

