-- ==== Sys2Proof/Machine/UpdProg.lean ====
section
/-! DEFINITION. Update programs (R167–R169), sums over a block (R69), and working-copy stores (R159, R168). -/

namespace Sys2Proof.Machine

/-! ### Instructions (R167) -/

structure Ins where
  op : Nat
  dst : Nat
  a : Nat
  b : Nat
  c : Nat
  scal : Nat
  store : Nat
  rnd : Bool
  deriving DecidableEq, Repr

def insOf (w : Nat) : Ins :=
  { op := bits w 63 58, dst := bits w 57 53, a := bits w 52 48, b := bits w 47 43, c := bits w 42 38, scal := bits w 37 33,
    store := bits w 32 29, rnd := bit w 28 }

/-- The instruction count of a slot, and its instructions (R166). -/
def progCount (p : List Byte) : Nat := leAt p 0 8 % 128
def progIns (p : List Byte) : List Ins := (List.range (progCount p)).map (fun i => insOf (leAt p (8 + 8 * i) 8))

/-- The operands that an operation reads. -/
def Ins.uses (x : Ins) : List Nat :=
  if x.op = 0x05 ∨ x.op = 0x0C then [x.a, x.b, x.c]
  else if [0x02, 0x03, 0x04, 0x06, 0x07, 0x0B, 0x0E].contains x.op then [x.a, x.b]
  else [x.a]

def Ins.reduces (x : Ins) : Bool := decide (0x20 ≤ x.op)
def opKnown (o : Nat) : Bool := (decide (1 ≤ o) && decide (o ≤ 0x10)) || (decide (0x20 ≤ o) && decide (o ≤ 0x22))

/-- The part that an operand code reads; none for G, D, registers and scalars. -/
def srcPart (code : Nat) : Option Nat :=
  match code with
  | 17 => some pW | 18 => some pM1 | 19 => some pM2 | 20 => some pBASIS | 21 => some pRES | 22 => some pWC | 23 => some pMOM
  | 24 => some pHRES | _ => none

/-- The part that a STORE code writes; OUT (6) is no part. -/
def storePart (code : Nat) : Option Nat :=
  match code with
  | 1 => some pW | 2 => some pM1 | 3 => some pM2 | 4 => some pWC | 5 => some pMOM | _ => none

/-- Operand codes that a program kind may read beside registers, and parts it may store (R169). -/
def mayRead (outer : Bool) : List Nat := if outer then [17, 20, 23, 25, 26, 31] else [16, 17, 18, 19, 20, 21, 22, 26, 31]
def mayStore (outer : Bool) : List Nat := if outer then [5, 6] else [1, 2, 3, 4]

/-- One instruction's fields (R167, R169). -/
def Ins.fieldsOk (x : Ins) (outer : Bool) (has : Nat → Bool) : Bool :=
  opKnown x.op && [x.a, x.b, x.c].all (fun o => decide (o ≤ 26) || o == 31) && x.scal != 27
    && decide (x.dst ≤ (if x.reduces then 3 else 15)) && decide (x.store ≤ 6)
    && x.uses.all (fun o => decide (o ≤ 15) || ((mayRead outer).contains o && match srcPart o with
        | some p => has p
        | none => true))
    && (x.reduces || x.store == 0 || ((mayStore outer).contains x.store && match storePart x.store with
        | some p => has p
        | none => true))

/-- Is every block scalar read after its reduction? -/
def scalarOrder (xs : List Ins) : Bool :=
  (xs.foldl (fun (a : Bool × List Nat) x =>
    let reads := x.uses.contains 26 && decide (28 ≤ x.scal) && !(a.2.contains (x.scal - 28))
    (a.1 && !reads, if x.reduces then x.dst :: a.2 else a.2)) (true, [])).1

/-- A program that runs (R169). -/
def progOk (outer : Bool) (has : Nat → Bool) (p : List Byte) : Bool :=
  let n := progCount p
  let xs := progIns p
  let stores := ((xs.filter (fun x => !x.reduces && x.store != 0)).map Ins.store)
  decide (1 ≤ n) && decide (n ≤ 68) && decide ((xs.filter (fun x => !x.reduces)).length ≤ 64)
    && decide ((xs.filter Ins.reduces).length ≤ 4) && xs.all (fun x => x.fieldsOk outer has) && scalarOrder xs
    && decide stores.Nodup

/-! ### Block sums (R69) -/

/-- Sum over a block: 16 positions take their elements in ascending order, a tree of 16 combines them. -/
def blockReduce (xs : List FV) (first : FV → FR) (step : FR → FV → FR) (comb : FR → FR → FR) : FR :=
  let lane := fun i => ((List.range 15).foldl (fun v j => step v (xs.getD (16 * (j + 1) + i) fvZero)) (first (xs.getD i fvZero)))
  let up := fun (ls : List FR) => (List.range (ls.length / 2)).map (fun i => comb (ls.getD (2 * i) (fvZero, 0)) (ls.getD (2 * i + 1) (fvZero, 0)))
  ((List.range 4).foldl (fun ls _ => up ls) ((List.range 16).map lane)).headD (fvZero, 0)

/-- Sum of squares; each square is fused into its sum. -/
def blockSumSq (xs : List FV) : FR :=
  blockReduce xs (fun x => fFma x x fvZero) (fun v x => let s := fFma x x v.1; (s.1, v.2 ||| s.2)) frAdd

def blockSum (xs : List FV) : FR :=
  blockReduce xs (fun x => if x.isNan then invalidNan else (x, 0)) (fun v x => frAdd v (x, 0)) frAdd

/-- Largest magnitude. -/
def blockMaxAbs (xs : List FV) : FR :=
  let j := fun (a b : FR) => let s := fMax a.1 b.1; ((s.1, a.2 ||| b.2 ||| s.2) : FR)
  blockReduce xs (fun x => if x.isNan then invalidNan else (x.abs, 0)) (fun v x => j v (x.abs, 0)) j

/-! ### Running (R168) -/

/-- One element-wise operation. -/
def updOp (op : Nat) (a b c : FV) : FR :=
  match op with
  | 0x01 => elementOp 0x00 a b c
  | 0x02 => fAdd a b
  | 0x03 => fSub a b
  | 0x04 => fMul a b
  | 0x05 => fFma a b c
  | 0x06 => fMax a b
  | 0x07 => fMin a b
  | 0x08 => elementOp 0x07 a b c
  | 0x09 => elementOp 0x08 a b c
  | 0x0A => if a.isNan then invalidNan else if a.isZero then (fvZero, 0) else if a.neg? then (fvOne.negate, 0) else (fvOne, 0)
  | 0x0B => elementOp 0x09 a b c
  | 0x0C => elementOp 0x0A a b c
  | 0x0D => fSqrt a
  | 0x0E => fDiv a b
  | 0x0F => fRsqrt 0x0F 1 a
  | _ => fRcp 0x10 1 a

/-- What a program reads and has computed. -/
structure Prog where
  regs : Tab (List FV) := []
  bs : Tab FV := []
  stores : List (Nat × List FV × Bool) := []
  flags : Flags := 0

/-- A value as FP32: an element times its block scale may fall outside the range (R52, R54). -/
def wide (x : FV) : FR := if x.isNan then (x, 0) else convert fp32 none x

/-- An operand's 256 values. -/
def Prog.operand (p : Prog) (src : Nat → List FV) (scal : Nat → FV) (x : Ins) (o : Nat) : List FV :=
  if o ≤ 15 then Tab.get (List.replicate 256 fvZero) p.regs o
  else if o = 22 then (src o).map (fun v => (wide v).1)
  else if o ≤ 25 then src o
  else if o = 26 then List.replicate 256 (if 28 ≤ x.scal then Tab.get fvZero p.bs (x.scal - 28) else scal x.scal)
  else List.replicate 256 fvZero

/-- Flags that reading an instruction's operands raises: a working copy in FP8 is scaled in FP32 (R52). -/
def Ins.readFlags (x : Ins) (src : Nat → List FV) : Flags :=
  if x.uses.contains 22 then (src 22).foldl (fun f v => f ||| (wide v).2) 0 else 0

/-- One instruction. -/
def Prog.exec (p : Prog) (src : Nat → List FV) (scal : Nat → FV) (x : Ins) : Prog :=
  let p := { p with flags := p.flags ||| x.readFlags src }
  let a := p.operand src scal x x.a
  if x.reduces then
    let s := if x.op = 0x20 then blockSum a else if x.op = 0x21 then blockSumSq a else blockMaxAbs a
    { p with bs := Tab.put p.bs x.dst s.1, flags := p.flags ||| s.2 }
  else
    let b := p.operand src scal x x.b
    let c := p.operand src scal x x.c
    let ys := (List.range 256).map (fun i => updOp x.op (a.getD i fvZero) (b.getD i fvZero) (c.getD i fvZero))
    let vs := ys.map Prod.fst
    { p with regs := Tab.put p.regs x.dst vs
             stores := if x.store = 0 then p.stores else p.stores ++ [(x.store, vs, x.rnd)]
             flags := ys.foldl (fun f y => f ||| y.2) p.flags }

def runProg (prog : List Byte) (src : Nat → List FV) (scal : Nat → FV) : Prog :=
  (progIns prog).foldl (fun p x => p.exec src scal x) {}

/-- The bytes of a working copy (R159): BF16, or FP8 codes and block scales; and the flags of the conversion. -/
def wcBytes (wfmt : Nat) (rs : List (Option Nat)) (xs : List FV) : List Byte × Flags :=
  if wfmt = 3 then
    let (cs, sc, s) := castMx 3 rs xs {}
    (cs.map (BitVec.ofNat 8) ++ sc.map (BitVec.ofNat 8) ++ zeros 248, s.flags)
  else
    (List.range 256).foldl (fun (a : List Byte × Flags) i =>
      let (c, fl) := convertCode bf16 (rs.getD i none) (xs.getD i fvZero)
      (a.1 ++ leBytes 2 c, a.2 ||| fl)) ([], 0)

/-- Seed of a stochastic WC store (R168). -/
def wcSeed (seed blk step : Nat) : Nat := seedOf (seed ^^^ blk ^^^ (step % 2 ^ 24))

end Sys2Proof.Machine
end

