-- ==== Sys2Proof/Machine/Exchange.lean ====
section
/-! DEFINITION. Names of blocks across sites (R200–R204), exchange buffers (R214, R217), fragments and streams
(R208, R209, R120). -/

namespace Sys2Proof.Machine

/-! ### Tables -/

/-- An entry of an exchange table (R203). -/
structure XchEnt where
  gfirst : Nat
  stride : Nat
  snap : Nat
  macc : Nat
  deriving DecidableEq, Repr

/-- Entry i of an exchange table's bytes. -/
def xchEntOf (t : List Byte) (i : Nat) : XchEnt :=
  let w := fun j => leAt t (32 * i + 8 * j) 8
  { gfirst := bits (w 0) 63 24, stride := bits (w 1) 63 32, snap := bits (w 2) 36 0, macc := bits (w 3) 36 0 }

/-- Entry i of region r's exchange table in force (R204), as its commit took it (log entry 149). -/
def Module.xchEnt (m : Module) (r i : Nat) : XchEnt := xchEntOf (m.rg r).xch.table i

/-- Take region r's exchange table from memory: one entry for each extent of the shard table (R203). -/
def takeXch (r : Nat) (m : Module) : Module :=
  let cfg := m.num (kXCH_CFG + r)
  m.modXch r (fun x => { x with table := if cfg = 0 then [] else m.peekB r cfg (32 * (m.extents r).length) })

/-- The global index of a block (R200, R203). -/
def Module.gidx (m : Module) (r : Nat) (e : Extent) (b : Nat) : Nat := let x := m.xchEnt r e.idx; x.gfirst + b * x.stride

/-- The range of the home table that holds a global index (R201). -/
def Module.homeRange (m : Module) (g : Nat) : Option Nat :=
  let b := m.blob kHOME_TABLE
  (List.range (leAt b 0 2)).find? (fun e =>
    let first := leAt b (16 + 16 * e) 8
    decide (first ≤ g) && decide (g < first + leAt b (24 + 16 * e) 4))

/-- The home site of a global index (R201). -/
def Module.homeSite (m : Module) (g : Nat) : Option Nat :=
  let b := m.blob kHOME_TABLE
  (m.homeRange g).map (fun e => leAt b (28 + 16 * e) 1)

/-- LAYOUT of a manifest: the digest of the shard and exchange tables in force, in region order (R357). -/
def layoutDigest (m : Module) : List Byte :=
  shake256 32 ((List.range 16).flatMap (fun r =>
    (if m.num (kSHARD_CFG + r) = 0 then [] else (m.rg r).train.table) ++ (if m.num (kXCH_CFG + r) = 0 then [] else (m.rg r).xch.table)))

/-- The owner of a global index at a site: node, region, and the segment's Q (R202). -/
def Module.ownerAt (m : Module) (site g : Nat) : Option (Nat × Nat × Nat) :=
  let b := m.blob (kSITE_LAYOUT + site)
  let segs := leAt b 0 2
  (List.range segs).findSome? (fun j =>
    let first := leAt b (8 + 16 * j) 8
    let q := leAt b (20 + 16 * j) 2
    if first ≤ g ∧ g < first + leAt b (16 + 16 * j) 4 ∧ q ≠ 0 then
      some (leAt b (8 + 16 * segs + 2 * (leAt b (22 + 16 * j) 2 + (g - first) % q)) 2 % 32768, (g - first) / q % 16, q)
    else none)

/-- Sites with a layout. -/
def Module.sites (m : Module) : List Nat := (List.range 64).filter (fun s => m.blob (kSITE_LAYOUT + s) ≠ [])

/-- The block of region r with a global index. -/
def blockOfG (m : Module) (r g : Nat) : Option (Extent × Nat) :=
  if m.num (kXCH_CFG + r) = 0 then none
  else (m.extents r).findSome? (fun e =>
    let x := m.xchEnt r e.idx
    if x.stride ≠ 0 ∧ x.gfirst ≤ g ∧ (g - x.gfirst) % x.stride = 0 ∧ (g - x.gfirst) / x.stride < e.blocks
    then some (e, (g - x.gfirst) / x.stride) else none)

/-- Regions that own blocks. -/
def Module.owners (m : Module) : List Nat := (List.range 16).filter (fun r => m.extents r ≠ [])

/-- Home blocks of the module: region, extent, block, in shard-table order. -/
def Module.homeBlocks (m : Module) : List (Nat × Extent × Nat) :=
  m.owners.flatMap (fun r => if m.num (kXCH_CFG + r) = 0 then [] else
    ((m.extents r).filter (fun e => e.form = 1)).flatMap (fun e => (List.range e.blocks).map (fun b => (r, e, b))))

/-! ### Exchange buffers (R214) -/

def Module.modPays (m : Module) (r : Nat) (f : List Payload → List Payload) : Module :=
  m.modXch r (fun x => { x with payloads := f x.payloads })

def paySum (ps : List Payload) : Nat := (ps.map Payload.len).sum

/-- The result reserve: 512 B for each home block. -/
def resultReserve (es : List Extent) : Nat := 512 * ((es.filter (fun e => e.form = 1)).map Extent.blocks).sum

/-- Is there room for a delta payload of n bytes, beside the deltas that are being formed? -/
def deltaRoom (m : Module) (r n : Nat) : Bool :=
  let x := (m.rg r).xch
  let results := paySum (x.payloads.filter (fun p => p.isResult))
  let deltas := paySum (x.payloads.filter (fun p => !p.isResult))
  let forming := n * ((m.rg r).train.commits.filter (fun c => c.kind == 4)).length
  let reserve := resultReserve (m.extents r)
  decide (deltas + forming + (results - reserve) + reserve + n ≤ m.num (kXBUF_BYTES + r))

/-- The lowest place for n bytes in a region's exchange buffer: at its start or behind a payload (DESIGN CHOICE, log entry 75). -/
def payPlace (m : Module) (r n : Nat) : Option Nat :=
  let ps := (m.rg r).xch.payloads
  let base := m.num (kXBUF_BASE + r)
  let fits := fun (a : Nat) => decide (a + n ≤ base + m.num (kXBUF_BYTES + r)) && ps.all (fun p => decide (a + n ≤ p.at_) || decide (p.at_ + p.len ≤ a))
  ((base :: ps.map (fun p => p.at_ + p.len)).filter fits).foldl (fun (a : Option Nat) x => match a with
    | none => some x
    | some y => some (min x y)) none

/-- Read payloads from the buffer, each with its bytes: one that cannot be read is left out (log entry 169). -/
def readPays (now r : Nat) (ps : List Payload) (m : Module) : Module × List (Payload × List Byte) :=
  ps.foldl (fun (a : Module × List (Payload × List Byte)) p =>
    match memRead now r 4 p.at_ p.len a.1 with
    | (m, st, bs) => (m, if st = 0 then a.2 ++ [(p, bs)] else a.2)) (m, [])

/-- Move the payloads of a region together, so that the free bytes of its buffer lie in one piece. -/
def packPays (now r : Nat) (m : Module) : Module :=
  let (m, xs) := readPays now r (m.rg r).xch.payloads m
  let (_, qs) := xs.foldl (fun (a : Nat × List (Payload × List Byte)) x =>
    (a.1 + x.1.len, a.2 ++ [({ x.1 with at_ := a.1 }, x.2)])) (m.num (kXBUF_BASE + r), [])
  forL qs (m.modPays r (fun _ => qs.map Prod.fst)) (fun q m => (memWrite now r 4 q.1.at_ q.2 m).1)

/-- Put a payload into the exchange buffer. -/
def putPay (now r : Nat) (p : Payload) (bs : List Byte) (m : Module) : Module :=
  let m := if (payPlace m r bs.length).isSome then m else packPays now r m
  let a := (payPlace m r bs.length).getD (m.num (kXBUF_BASE + r))
  (memWrite now r 4 a bs (m.modPays r (fun ps => ps ++ [{ p with at_ := a, len := bs.length }]))).1

/-- A delta payload is freed once it is acknowledged and its block has adopted its round (R214). -/
def freeDeltas (r : Nat) (m : Module) : Module :=
  m.modPays r (fun ps => ps.filter (fun p =>
    p.isResult || p.acked = [] || match m.extent? r p.ext with
      | some e => decide ((m.hdr r e p.blk).adoptRnd < p.round)
      | none => true))

/-! ### Fragments (R208, R209) -/

/-- Blocks that a fragment holds; 5 stands for a RESYNC, which has no payload. -/
def fragCap (codec k : Nat) : Nat := if codec = 5 then 65535 else if codec = 0xF then 64 else if codec = 1 then 481 else if codec = 0 then 128 else 65536 / (1 + 2 * k)

/-- Bytes of one block in a message's decoded body. -/
def msgUnit (codec k : Nat) : Nat := if codec = 0xF then 1024 else payloadLen codec k

/-- A coded section of payload bytes: form 0x01 where it is smaller, else form 0x00 (R120). -/
def sectionOf (p : List Byte) : List Byte :=
  let c := Config.rangeCoded p
  if c.length < 8 + p.length ∧ sectionDecode c = some p then c else leBytes 4 p.length ++ zeros 4 ++ p

/-- A block of a message to be: global index, round, origin, codec, k, bytes. -/
structure Piece where
  g : Nat
  round : Nat
  origin : Nat
  codec : Nat
  k : Nat
  bytes : List Byte
  deriving DecidableEq, Repr

/-- Cut pieces into arithmetic runs of one round, origin and codec. -/
def cutPieces (stride : Nat) (ps : List Piece) : List (List Piece) :=
  ps.foldl (fun (a : List (List Piece)) p =>
    match a.reverse with
    | [] => [[p]]
    | run :: rest =>
      let l := run.getLast?.getD p
      if l.g + stride = p.g ∧ l.round = p.round ∧ l.origin = p.origin ∧ l.codec = p.codec ∧ l.k = p.k ∧ run.length < fragCap p.codec p.k
      then (rest.reverse ++ [run ++ [p]]) else a ++ [[p]]) []

/-- The message of a run; number, LAST, TOTAL and OUTER are set when it is sent. -/
def runMsg (m : Module) (type flags : Nat) (ent : Bool) (region stride : Nat) (run : List Piece) : ChMsg :=
  let p := run.headD ⟨0, 0, 0, 0, 0, []⟩
  let raw := run.flatMap Piece.bytes
  let body := if ent then sectionOf raw else raw
  { type := type, codec := p.codec, flags := flags + (if ent then 2 else 0), srcSite := m.num kSITE_ID, dstRegion := region, stream := 0,
    seq := 0, round := p.round, origin := p.origin, w2 := place p.g 63 24, gstride := stride, count := run.length, k := p.k, outer := 0,
    len := body.length, body := body }

/-! ### Streams (R208, R211) -/

/-- What names a stream at its two ends: the other node, TYPE, ROUND and region (R208). -/
def streamKey (node type round region : Nat) : Nat := ((node * 16 + type) * 2 ^ 32 + round) * 16 + region
def msgKey (node : Nat) (x : ChMsg) : Nat := streamKey node x.type x.round x.dstRegion

/-- Number fragments of a stream from the first; the last carries LAST and TOTAL. -/
def numbered (stream first : Nat) (ms : List ChMsg) : List Frag :=
  (List.range ms.length).map (fun i =>
    let x := ms.getD i ⟨0, 0, 0, 0, 0, 0, 0, 0, 0, 0, 0, 0, 0, 0, 0, []⟩
    let last := i + 1 = ms.length
    { msg := { x with stream := stream, seq := first + i, flags := if last then setBit x.flags 0 else x.flags
                      w2 := x.w2 + (if last then place (first + ms.length) 23 0 else 0) } })

/-- A fragment that is no longer the last of its stream, if it has not yet been sent. -/
def Frag.unlast (f : Frag) : Frag :=
  if f.sends = 0 then { f with msg := { f.msg with flags := clrBit f.msg.flags 0, w2 := f.msg.w2 / 2 ^ 24 * 2 ^ 24 } } else f

/-- Fragments of one TYPE, ROUND and region to a node: they go on with the open stream of that name, or take the lowest free of the
4,096 numbers; without one they wait (R12). Their SEQ goes on from the fragments that the stream has had (log entry 146). -/
def openOne (now node : Nat) (ms : List ChMsg) (m : Module) : Module :=
  match ms with
  | [] => m
  | x :: _ =>
    let key := msgKey node x
    let first := Tab.get 0 m.chanter.nextSeq key
    let m := m.modCh (fun c => { c with heard := if (Tab.find? c.heard node).isSome then c.heard else Tab.put c.heard node now })
    let put := fun (n : Nat) (old : List Frag) => m.modCh (fun c =>
      { c with streams := Tab.put c.streams n { node := node, frags := old.map Frag.unlast ++ numbered n first ms }
               nextSeq := Tab.put c.nextSeq key (first + ms.length) })
    match List.find? (fun (s : Nat × StreamSt) => s.2.node == node && s.2.frags.any (fun f => msgKey node f.msg == key)) m.chanter.streams with
    | some s => put s.1 s.2.frags
    | none =>
      match firstFrom 4096 0 (fun n => (Tab.find? m.chanter.streams n).isNone) with
      | some n => put n []
      | none => m.modCh (fun c => { c with backlog := c.backlog ++ [(node, ms)] })

/-- Messages of one TYPE to one region of a node: a stream for each ROUND (R208). -/
def openStream (now node : Nat) (ms : List ChMsg) (m : Module) : Module :=
  let rounds := (ms.map ChMsg.round).foldl (fun (a : List Nat) n => if a.contains n then a else a ++ [n]) []
  forL rounds m (fun n m => openOne now node (ms.filter (fun x => x.round == n)) m)

/-- Open the streams that wait, as far as numbers are free: those that have waited longest first (DESIGN CHOICE, log entry 161). -/
def openWaiting (now : Nat) (m : Module) : Module :=
  forL m.chanter.backlog (m.modCh (fun c => { c with backlog := [] })) (fun x m => openOne now x.1 x.2 m)

/-- Pieces of one extent (region, extent, its pieces in ascending order) to one site, by destination node and region. -/
structure Cargo where
  r : Nat
  ext : Nat
  pieces : List Piece
  deriving DecidableEq, Repr

/-- The destinations of cargo at a site: node, region. -/
def dests (m : Module) (site : Nat) (cs : List Cargo) : List (Nat × Nat) :=
  (cs.flatMap (fun c => c.pieces.filterMap (fun p => (m.ownerAt site p.g).map (fun o => (o.1, o.2.1))))).foldl
    (fun (a : List (Nat × Nat)) d => if a.contains d then a else a ++ [d]) []

/-- The streams that take cargo to a site: one to each region of each destination node. A payload passes the entropy stage as the
settings in force at its region say (R118, R119); policy 0 sends nothing (R199). -/
def shipTo (now type flags : Nat) (site : Nat) (cs : List Cargo) (m : Module) : Module :=
  if m.num kEXCH_POLICY = 0 then m
  else forL (dests m site cs) m (fun d m =>
    openStream now d.1 (cs.flatMap (fun c =>
      let mine := c.pieces.filter (fun p => match m.ownerAt site p.g with
        | some o => o.1 == d.1 && o.2.1 == d.2
        | none => false)
      let q := match mine with
        | p :: _ => ((m.ownerAt site p.g).map (fun o => o.2.2)).getD 1
        | [] => 1
      let stride := Nat.lcm (m.xchEnt c.r c.ext).stride (16 * q)
      (cutPieces stride mine).map (runMsg m type flags (type != 3 && (m.rg c.r).xch.entropy) d.2 stride))) m)

/-- Payloads of a region as cargo, by extent. -/
def cargoOf (now r : Nat) (ps : List Payload) (m : Module) : Module × List Cargo :=
  let (m, xs) := readPays now r ps m
  let exts := xs.foldl (fun (a : List Nat) x => if a.contains x.1.ext then a else a ++ [x.1.ext]) []
  (m, exts.map (fun e => { r := r, ext := e, pieces := (xs.filter (fun x => x.1.ext = e)).map (fun x => ⟨x.1.gidx, x.1.round, x.1.origin, x.1.codec, x.1.k, x.2⟩) }))

/-- The cargo of several regions: the payloads of each that `mine` picks. -/
def cargoOfAll (now : Nat) (rs : List Nat) (mine : Payload → Bool) (m : Module) : Module × List Cargo :=
  rs.foldl (fun (a : Module × List Cargo) r =>
    let (m, cs) := cargoOf now r ((a.1.rg r).xch.payloads.filter mine) a.1
    (m, a.2 ++ cs)) (m, [])

end Sys2Proof.Machine
end

