-- ==== Sys2Proof/Machine/Reserve.lean ====
section
/-! DEFINITION. The reserve and its directory (R348–R350), and stages of tiered extents (R148, R150). -/

namespace Sys2Proof.Machine

/-! ### The directory (R348) -/

structure DirW where
  epoch : Nat
  state : Nat
  adopts : Nat
  entry : Nat
  hentry : Nat
  deriving DecidableEq, Repr

/-- COPIED, KEPT, GONE. -/
def dCOPIED : Nat := 0
def dKEPT : Nat := 1
def dGONE : Nat := 2
def noHome : Nat := 0x3FFFFFF

def dirAddr (m : Module) (r pos : Nat) : Nat := m.num (kRDIR_BASE + r) + 8 * pos

def Module.dirW (m : Module) (r pos : Nat) : DirW :=
  let w := m.peek r (dirAddr m r pos) 8
  { epoch := bits w 63 56, state := bits w 55 54, adopts := bits w 53 52, entry := bits w 51 26, hentry := bits w 25 0 }

def setDir (now r pos : Nat) (w : DirW) (m : Module) : Module :=
  poke now r (dirAddr m r pos) (leBytes 8 (place w.epoch 63 56 + place w.state 55 54 + place w.adopts 53 52 + place w.entry 51 26 + place w.hentry 25 0)) m

/-- Has the block's cut version neither been copied nor drained? -/
def Module.cutPending (m : Module) (r pos : Nat) : Bool := (m.dirW r pos).epoch != m.num (kCUT_EPOCH + r)

/-- Does a commit of the region copy PENDING blocks: a cut has been taken and its drain has not failed (R350, R352)? -/
def Module.copies (m : Module) (r : Nat) : Bool := m.num (kCUT_EPOCH + r) != 0 && !(m.rg r).cut.failed

/-! ### Places in the reserve -/

/-- Size of a reserve part; 7 is the snapshot. -/
def rsvSize (p : Nat) : Nat := if p = 7 then 1024 else partSize p

def rsvArray (m : Module) (r p : Nat) : Nat :=
  m.num (kRESERVE_BASE + r) + 256 * (((List.range p).map (fun q => ceilDiv (m.num (kRESERVE_COUNT + r) * rsvSize q) 256)).sum)

def rsvAddr (m : Module) (r entry p : Nat) : Nat := rsvArray m r p + rsvSize p * entry

/-- A home entry: MOM, then HRES (log entry 20). -/
def rsvHome (m : Module) (r h : Nat) : Nat := rsvArray m r 8 + 1536 * h

/-- Free numbers of entries and home entries. -/
def freeEntry (m : Module) (r : Nat) : Option Nat :=
  firstFrom (m.num (kRESERVE_COUNT + r)) 0 (fun n => !((m.rg r).cut.used.any (fun p => p.2.1 == n)))

def freeHome (m : Module) (r : Nat) : Option Nat :=
  firstFrom (m.num (kRESERVE_HCOUNT + r)) 0 (fun n => !((m.rg r).cut.used.any (fun p => p.2.2 == n + 1)))

/-- A free entry, with a home entry for a home block. -/
def freePlaces (m : Module) (r : Nat) (home : Bool) : Option (Nat × Nat) :=
  match freeEntry m r, freeHome m r with
  | some n, some h => some (n, if home then h + 1 else 0)
  | some n, none => if home then none else some (n, 0)
  | none, _ => none

/-- Reclaim the KEPT entry whose block was drained earliest: that block is GONE (R349). -/
def reclaim (now r : Nat) (m : Module) : Module :=
  match (m.rg r).cut.kept with
  | [] => m
  | pos :: rest =>
    (m.modCut r (fun c => { c with kept := rest, used := Tab.del c.used pos })) |> setDir now r pos { m.dirW r pos with state := dGONE }

/-- Claim places for a block: free ones, or reclaimed ones (R349). -/
def claimPlaces (now r : Nat) (home : Bool) : Nat → Module → Module × Option (Nat × Nat)
  | 0, m => (m, freePlaces m r home)
  | n + 1, m =>
    match freePlaces m r home with
    | some p => (m, some p)
    | none => if (m.rg r).cut.kept = [] then (m, none) else claimPlaces now r home n (reclaim now r m)

/-! ### Copies (R350) -/

/-- Copy n slots in stored form with their codes; false where one cannot be read or written. -/
def copySlots (now r req src dst n : Nat) (m : Module) : Module × Bool :=
  let m := noteAlloc r dst (256 * n) m
  (List.range n).foldl (fun (a : Module × Bool) i =>
    if !a.2 then a
    else match readStored now r req (src / 256 + i) a.1 with
      | (m, none) => (m, false)
      | (m, some (c, st)) => writeStored now r req (dst / 256 + i) c st m) (m, true)

/-- Copy bytes. -/
def copyBytes (now r req src dst n : Nat) (m : Module) : Module × Bool :=
  match memRead now r req src n m with
  | (m, st, bs) => if st ≠ 0 then (m, false) else let (m, st) := memWrite now r req dst bs m; (m, st = 0)

/-- Several copies in turn. -/
def copyAll (now r req : Nat) (xs : List (Bool × Nat × Nat × Nat)) (m : Module) : Module × Bool :=
  xs.foldl (fun (a : Module × Bool) x =>
    if !a.2 then a
    else if x.1 then copySlots now r req x.2.1 x.2.2.1 (x.2.2.2 / 256) a.1 else copyBytes now r req x.2.1 x.2.2.1 x.2.2.2 a.1) (m, true)

/-- The block's snapshot array entry; none where no snapshot is configured. -/
def snapAddr (m : Module) (r : Nat) (e : Extent) (b : Nat) : Option Nat :=
  if m.num (kXCH_CFG + r) = 0 then none
  else let s := (m.xchEnt r e.idx).snap; if s = 0 then none else some (s + 1024 * b)

/-- Copy a block's cut version into reserve places: header, parts, the snapshot of an open block, the home extension. -/
def copyBlock (now r : Nat) (e : Extent) (b entry home : Nat) (m : Module) : Module × Bool :=
  let body := if e.form = 2 then [(false, partAddr m r e b pWC, rsvAddr m r entry pWC, 512)]
    else (List.range 6).map (fun i => (true, partAddr m r e b (i + 1), rsvAddr m r entry (i + 1), partSize (i + 1)))
  let snap := match snapAddr m r e b with
    | some a => if (m.hdr r e b).isOpen ∧ e.form ≠ 2 then [(true, a, rsvAddr m r entry 7, 1024)] else []
    | none => []
  let ext := if home = 0 then []
    else [(true, partAddr m r e b pMOM, rsvHome m r (home - 1), 1024), (true, partAddr m r e b pHRES, rsvHome m r (home - 1) + 1024, 512)]
  copyAll now r 3 ((false, partAddr m r e b pHDR, rsvAddr m r entry pHDR, 64) :: body ++ snap ++ ext) m

/-- Record that a block's cut version lies in places, under a state. -/
def holdPlaces (now r pos state entry home adopts : Nat) (m : Module) : Module :=
  (m.modCut r (fun c => { c with used := Tab.put c.used pos (entry, home)
                                 kept := if state = dKEPT then c.kept ++ [pos] else c.kept }))
  |> setDir now r pos { epoch := m.num (kCUT_EPOCH + r), state := state, adopts := adopts, entry := entry, hentry := if home = 0 then noHome else home - 1 }

/-! ### Stages (R148, R150) -/

/-- Release the stage of a tier entry and clear its accumulators. -/
def releaseStage (now r i : Nat) (m : Module) : Module :=
  let t := m.tierEnt r i
  let h := m.tierHdr r
  let m := if t.stage = 0xFFFF then m
    else clearCodes now r 3 ((h.stageBase + t.stage * 4194304) / 256) 16384 m
  let m := m.modTier r (fun x => { x with stages := Tab.del x.stages t.stage, committed := Tab.del x.committed i })
  setTier now r i { t with stage := 0xFFFF } m

/-- A block of a tiered extent has had its update of a step: after the last one's, the stage is released (R150). -/
def tierUpdated (now r : Nat) (e : Extent) (b step : Nat) (m : Module) : Module :=
  if e.form ≠ 2 then m
  else
    let old := Tab.get (0, []) (m.rg r).tier.committed e.base
    let d := if old.1 = step then old.2 else []
    let done := if d.contains b then d else d ++ [b]
    let m := m.modTier r (fun x => { x with committed := Tab.put x.committed e.base (step, done) })
    if e.blocks ≤ done.length then releaseStage now r e.base m else m

/-- A commit of a tiered block: DIRTY, and with an update LAST_STEP. -/
def tierCommitted (now r : Nat) (e : Extent) (b : Nat) (step : Option Nat) (m : Module) : Module :=
  if e.form ≠ 2 then m
  else
    let t := m.tierEnt r e.base
    let m := setTier now r e.base { t with state := 3, lastStep := step.getD t.lastStep % 2 ^ 32 } m
    match step with
    | some k => tierUpdated now r e b k m
    | none => m

end Sys2Proof.Machine
end

