-- ==== Sys2Proof/Machine/Pool.lean ====
section
/-! DEFINITION. Pool requests (R359), recall of tiered extents (R148, R149, R153) and write-back (R152). -/

namespace Sys2Proof.Machine

/-! ### Requests (R359) -/

def poolHeader (cmd flags len off : Nat) (key : List Byte) : List Byte :=
  leBytes 1 cmd ++ leBytes 1 flags ++ leBytes 2 len ++ zeros 4 ++ leBytes 8 off ++ fitB 16 key

/-- Send a pool request under a tag of its region (16: Drone's). It fails at once where no interface leads to the pool. -/
def poolSend (now region kind item off node : Nat) (body : List Byte) (m : Module) : Module × Bool :=
  let k := m.cuts.nextReq
  let m := m.modCuts (fun c => { c with nextReq := k + 1
                                        pool := c.pool ++ [{ k := k, kind := kind, region := region, item := item, off := off, node := node, body := body }] })
  let (m, st) := issue now region (.pool k) noCtx (m.mkReq opPOOL (region % 16) (m.holderGen region) (mkAddr node 0 0) 0 body) m
  if st = 8 then (m.modCuts (fun c => { c with pool := c.pool.filter (fun p => p.k ≠ k) }), false) else (m, true)

/-- Data bytes of a pool request towards a node: at most 4,064, and what a frame's body holds after the header (R254, R359). -/
def Module.poolPiece (m : Module) (node : Nat) : Nat := m.bodyLimit node - 32

/-- The requests that an object takes. -/
def poolPieces (m : Module) (node : Nat) (obj : List Byte) : Nat := (chop (m.poolPiece node) obj).length

/-- Does an object that is fetched from a node end with a piece (log entry 84)? -/
def lastPiece (m : Module) (node : Nat) (bs : List Byte) : Bool := decide (bs.length < m.poolPiece node)

/-- PUT an object in pieces, the last with FINAL. -/
def poolPut (now region kind item node : Nat) (key obj : List Byte) (m : Module) : Module × Bool :=
  let ps := chop (m.poolPiece node) obj
  ps.foldl (fun (a : Module × Bool) p =>
    if !a.2 then a
    else
      let fin := p.1 + p.2.length = obj.length
      poolSend now region kind item p.1 node (poolHeader 1 (b2n fin) p.2.length p.1 key ++ p.2) a.1) (m, true)

/-- Forget the requests of a kind for an item. -/
def poolDrop (kind region item : Nat) (m : Module) : Module :=
  m.modCuts (fun c => { c with pool := c.pool.filter (fun p => !(p.kind == kind && p.region == region && p.item == item)) })

/-! ### Cold objects (R149, R152; the order of codes and sectors is log entry 21) -/

def coldSlots (t : TierEnt) : Nat := t.blocks * coldSize t.home / 256
def frameAt (m : Module) (r : Nat) (t : TierEnt) : Nat := let h := m.tierHdr r; h.frameBase + t.frame * h.frameBytes

/-- The object of n slots from an offset: codes in pairs, then stored sectors; none where a slot cannot be read. -/
def storedObject (now r req off n : Nat) (m : Module) : Module × Option (List Byte) :=
  let (m, x) := readRun now r req off n m
  (m, x.map (fun y => leBytes (n / 2) (packBits 4 y.1) ++ y.2))

/-- Slots i to i + k − 1 of an object of n slots: code and stored sectors. -/
def objSlots (obj : List Byte) (n i k : Nat) : List (Nat × List Byte) :=
  let code := fun (j : Nat) => bits (leAt obj (j / 2) 1) (4 * (j % 2) + 3) (4 * (j % 2))
  let start := fun (j : Nat) => n / 2 + 32 * ((List.range j).map (fun x => sectorsOf (code x))).sum
  (List.range k).map (fun j => (code (i + j), sliceB obj (start (i + j)) (32 * sectorsOf (code (i + j)))))

/-- Write an object's slots from an offset; false where one was left unchanged (R105). -/
def placeObject (now r req off n : Nat) (obj : List Byte) (m : Module) : Module × Bool :=
  let codes := leAt obj 0 (n / 2)
  let (m, _, ok) := (List.range n).foldl (fun (a : Module × List Byte × Bool) i =>
    let c := (codes >>> (4 * i)) % 16
    let len := 32 * sectorsOf c
    let (m, ok) := writeStored now r req (off / 256 + i) c (a.2.1.take len) a.1
    (m, a.2.1.drop len, a.2.2 && ok)) (noteAlloc r off (256 * n) m, obj.drop (n / 2), true)
  (m, ok)

/-! ### Write-back (R152) -/

/-- A write-back fails; a recall that waits for its frame goes on waiting until another event serves the frames (DESIGN CHOICE, log
entry 166). -/
def writeBackFailed (now r i : Nat) (m : Module) : Module :=
  let m := (poolDrop 4 r i m).modTier r (fun x => { x with writes := x.writes.filter (fun w => w.entry ≠ i) })
  post now 2 8 (srcRegion r) (leBytes 2 i) (setTier now r i { m.tierEnt r i with state := 3 } m)

/-- Start the write-back of a DIRTY extent. -/
def startWriteBack (now r i : Nat) (m : Module) : Module :=
  let t := m.tierEnt r i
  if t.state ≠ 3 then m
  else
    let m := setTier now r i { t with state := 4 } m
    match storedObject now r 8 (frameAt m r t) (coldSlots t) m with
    | (m, none) => writeBackFailed now r i m
    | (m, some obj) =>
      let key := (shake256 32 obj).take 16
      let m := m.modTier r (fun x => { x with writes := x.writes ++ [{ entry := i, key := key, left := poolPieces m (m.tierHdr r).pool obj }] })
      let (m, ok) := poolPut now r 4 i (m.tierHdr r).pool key obj m
      if ok then m else writeBackFailed now r i m

/-! ### Recall (R148, R149, R153) -/

/-- May the frame of an entry be taken: no staged gradient and no waiting commit needs it (R151)? -/
def frameFree (m : Module) (r i : Nat) : Bool :=
  (Tab.find? (m.rg r).tier.stages (m.tierEnt r i).stage != some i)
    && !((m.rg r).train.commits.any (fun c => match m.extent? r c.ext with
      | some e => e.form == 2 && e.base == i
      | none => false))

/-- The entry with the oldest LAST_STEP among those in a state whose frame may be taken. -/
def oldestIn (m : Module) (r state : Nat) : Option Nat :=
  ((List.range (m.tierHdr r).entries).filter (fun i => (m.tierEnt r i).state = state && frameFree m r i)).foldl (fun (a : Option Nat) i =>
    match a with
    | none => some i
    | some j => if (m.tierEnt r i).lastStep < (m.tierEnt r j).lastStep then some i else some j) none

/-- The key of the object that a recall asks for: KEY, or first that of an object which a restore still needs (log entry 172). -/
def recallKey (m : Module) (r i : Nat) : List Byte :=
  match Tab.find? (m.rg r).tier.fixes i with
  | some f => if f.old = [] then (m.tierEnt r i).key else f.old
  | none => (m.tierEnt r i).key

/-- Give an entry a frame and ask for its object. -/
def recallGet (now r i frame : Nat) (m : Module) : Module × Bool :=
  let t := m.tierEnt r i
  let m := setTier now r i { t with frame := frame } (m.modTier r (fun x =>
    { x with frames := Tab.put x.frames frame i, recalls := x.recalls ++ [{ entry := i }], waitFrame := x.waitFrame.filter (fun w => w.1 ≠ i) }))
  poolSend now r 3 i 0 (m.tierHdr r).pool (poolHeader 3 0 0 0 (recallKey m r i)) m

/-- An extent is FAILED: it holds no frame (R145), has no deadline, and keeps its stage (R149). -/
def setFailed (now r i : Nat) (m : Module) : Module :=
  setTier now r i { m.tierEnt r i with state := 5 } (m.modTier r (fun x =>
    { x with recalls := x.recalls.filter (fun w => w.entry ≠ i), frames := x.frames.filter (fun f => f.2 ≠ i), deadlines := Tab.del x.deadlines i }))

/-- A recall fails: "recall failed". -/
def recallFailed (now r i : Nat) (m : Module) : Module := post now 2 6 (srcRegion r) (leBytes 2 i) (setFailed now r i (poolDrop 3 r i m))

/-- Claim a frame: a free one, that of the WARM extent with the oldest LAST_STEP, or none while the oldest DIRTY extent is
written back; a frame that staged gradients or a waiting commit need stays where it is (R148, R151). -/
def claimFrame (now r : Nat) (m : Module) : Module × Option Nat :=
  match firstFrom (m.tierHdr r).frames 0 (fun n => (Tab.find? (m.rg r).tier.frames n).isNone) with
  | some n => (m, some n)
  | none =>
    match oldestIn m r 2 with
    | some j => (setTier now r j { m.tierEnt r j with state := 0 } m, some (m.tierEnt r j).frame)
    | none =>
      match oldestIn m r 3 with
      | some j => (if (m.rg r).tier.writes = [] then startWriteBack now r j m else m, none)
      | none => (m, none)

/-- Go on with the recalls that wait for a frame: those of steps, which have a deadline, then the helper's (R153), each in the order
in which they began to wait. -/
def serveFrames (now r : Nat) (m : Module) : Module :=
  let t := (m.rg r).tier
  let step := fun (w : Nat × Nat) => (Tab.find? t.deadlines w.1).isSome
  forL (t.waitFrame.filter step ++ t.waitFrame.filter (fun w => !step w)) m (fun w m =>
    match claimFrame now r m with
    | (m, none) => m
    | (m, some f) =>
      let (m, ok) := recallGet now r w.1 f (m.bump kSTAGE_WAIT_NS (now - w.2))
      if ok then m else recallFailed now r w.1 m)

/-- A recall ends without its object: another may take its frame. -/
def recallEnds (now r i : Nat) (m : Module) : Module := serveFrames now r (recallFailed now r i m)

/-- Read an entry of the tier table, for a recall or a write-back (R133, R145). -/
def readTier (now r i : Nat) (m : Module) : Module × Bool := readRecord now r 8 (tierAddr (m.num (kTIER_CFG + r)) i) 32 m

/-- Start the recall of a COLD extent whose entry can be read. -/
def startRecall (now r i : Nat) (m : Module) : Module :=
  let t := m.tierEnt r i
  let (m, ok) := readTier now r i m
  if t.state ≠ 0 ∨ !ok then m
  else
    serveFrames now r ((setTier now r i { t with state := 1 } m).modTier r (fun x => { x with waitFrame := x.waitFrame ++ [(i, now)] }))

/-- The write-back of an extent is acknowledged (R152). -/
def writeBackDone (now r i : Nat) (key : List Byte) (m : Module) : Module :=
  let m := m.modTier r (fun x => { x with writes := x.writes.filter (fun w => w.entry ≠ i) })
  let m := if (Tab.find? (m.rg r).cut.keys i).isSome then m else m.modCut r (fun c => { c with keys := Tab.put c.keys i key })
  serveFrames now r ((setTier now r i { m.tierEnt r i with state := 2, key := key } m).bump kWRITEBACKS 1)

/-- Claim a stage for an entry without one; false where none is free (R148). -/
def claimStage (now r i : Nat) (m : Module) : Module × Bool :=
  let t := m.tierEnt r i
  let h := m.tierHdr r
  if Tab.find? (m.rg r).tier.stages t.stage = some i then (m, true)
  else
    match firstFrom h.stages 0 (fun n => (Tab.find? (m.rg r).tier.stages n).isNone) with
    | none => (m, false)
    | some n =>
      let m := clearCodes now r 3 ((h.stageBase + n * 4194304) / 256) 16384 m
      (setTier now r i { t with stage := n } (m.modTier r (fun x => { x with stages := Tab.put x.stages n i })), true)

/-- The first gradient for an extent in a step: a stage, and the recall of a COLD extent with its deadline (R148); a recall that the
helper has begun gets the deadline from here (DESIGN CHOICE, log entry 145). -/
def firstGradient (now r i : Nat) (m : Module) : Module × Bool :=
  match claimStage now r i m with
  | (m, false) => (m.bump kSTAGE_REFUSED 1, false)
  | (m, true) =>
    let m := if (m.tierEnt r i).state ≤ 1 ∧ (Tab.find? (m.rg r).tier.deadlines i).isNone ∧ !(m.rg r).tier.late.contains i then
        m.modTier r (fun x => { x with deadlines := Tab.put x.deadlines i (now + m.num kRECALL_DEADLINE * ms) })
      else m
    (startRecall now r i m, true)

end Sys2Proof.Machine
end

