-- ==== Sys2Proof/Machine/Streams.lean ====
section
/-! DEFINITION. Chanter messages on the wire (R209, R255), acknowledgements (R211), pacing (R123, R213) and the rounds
that regions and the module have passed (R216, R221). -/

namespace Sys2Proof.Machine

/-! ### Messages -/

/-- The 40 B header (R209). -/
def chHeader (x : ChMsg) : List Byte :=
  leBytes 8 (place x.type 63 60 + place x.codec 59 56 + place x.flags 55 48 + place x.srcSite 47 42 + place x.dstRegion 41 38
      + place x.stream 37 26 + place x.seq 25 2)
    ++ leBytes 8 (place x.round 63 32 + place x.origin 31 0) ++ leBytes 8 x.w2
    ++ leBytes 8 (place x.gstride 63 32 + place x.count 31 16 + place x.k 15 8) ++ leBytes 8 (place x.outer 63 32 + place x.len 31 0)

/-- A message from its bytes. -/
def chOfBytes (b : List Byte) : ChMsg :=
  let w := fun i => leAt b (8 * i) 8
  { type := bits (w 0) 63 60, codec := bits (w 0) 59 56, flags := bits (w 0) 55 48, srcSite := bits (w 0) 47 42, dstRegion := bits (w 0) 41 38,
    stream := bits (w 0) 37 26, seq := bits (w 0) 25 2, round := bits (w 1) 63 32, origin := bits (w 1) 31 0, w2 := w 2,
    gstride := bits (w 3) 63 32, count := bits (w 3) 31 16, k := bits (w 3) 15 8, outer := bits (w 4) 63 32, len := bits (w 4) 31 0, body := b.drop 40 }

def noMsg : ChMsg := ⟨0, 0, 0, 0, 0, 0, 0, 0, 0, 0, 0, 0, 0, 0, 0, []⟩

/-- OUTER: the highest round merged here, 0 for a module that homes nothing (R209). -/
def Module.outerNow (m : Module) : Nat := if m.homeBlocks = [] then 0 else m.num kHOME_RND

/-- Does Chanter send: not under policy 0, while it is disabled or drains, or while die 0, where its stream engine is, is in reset (R199,
R396, R400)? -/
def Module.chSends (m : Module) : Bool := m.num kEXCH_POLICY != 0 && m.num kCHANTER_FSTATE == 0 && !m.dieInReset 0

/-- Send a message to a node, in segments under one message number (R255). -/
def sendMsg (now node : Nat) (x : ChMsg) (m : Module) : Module :=
  if !m.chSends then m else
  let x := { x with srcSite := m.num kSITE_ID, outer := m.outerNow }
  let segs := chop (m.bodyLimit node) (chHeader x ++ x.body)
  let no := m.chanter.msgNo
  let m := m.modCh (fun c => { c with msgNo := (no + 1) % 262144 })
  forN segs.length m (fun i m =>
    let f := m.mkReq opCHANTER 0 (m.num kCHANTER_GEN) (mkAddr node x.dstRegion 0) 0 (segs.getD i (0, [])).2
    sendOnly now { f with tag := no, seg := i, segs := segs.length } m)

/-! ### What was received of a stream (R211) -/

def Module.recv (m : Module) (key : Nat) : RecvSt := Tab.get {} m.chanter.recvs key
def Module.modRecv (m : Module) (key : Nat) (f : RecvSt → RecvSt) : Module :=
  m.modCh (fun c => { c with recvs := Tab.put c.recvs key (f (m.recv key)) })

/-- Has a fragment of this stream been handled? -/
def RecvSt.handled (x : RecvSt) (seq : Nat) : Bool := decide (seq < x.cum) || x.seen.contains seq

/-- Advance CUM over fragments that have arrived. -/
def advanceCum : Nat → Nat → List Nat → Nat × List Nat
  | 0, cum, seen => (cum, seen)
  | n + 1, cum, seen => if seen.contains cum then advanceCum n (cum + 1) (seen.filter (· ≠ cum)) else (cum, seen)

/-- Acknowledge a stream: CUM in SEQ, SACK in w2 (R210). -/
def sendAck (now key : Nat) (m : Module) : Module :=
  let x := m.recv key
  let sack := maskOf ((x.seen.map (fun s => s - x.cum - 1)).filter (fun j => decide (j < 64)))
  sendMsg now x.node { noMsg with type := 4, codec := x.type, stream := x.stream, seq := x.cum, w2 := sack }
    (m.modRecv key (fun x => { x with fresh := 0 }))

/-- A fragment has been handled: every block of it merged, adopted or dropped. After 32 new ones the stream is
acknowledged. -/
def fragDone (now key seq : Nat) (m : Module) : Module :=
  let m := m.modRecv key (fun x =>
    if x.handled seq then x
    else
      let (cum, seen) := advanceCum (x.seen.length + 1) x.cum (seq :: x.seen)
      { x with cum := cum, seen := seen, fresh := x.fresh + 1, since := if x.fresh = 0 then now else x.since })
  if 32 ≤ (m.recv key).fresh ∧ m.chSends then sendAck now key m else m

/-! ### Peers -/

/-- A message has come from a node: its OUTER, and the time of an ACK, a PROBE_REPLY or data (R213). -/
def hear (now node type outer : Nat) (m : Module) : Module :=
  m.modCh (fun c => { c with heard := if type = 5 ∨ type = 6 then c.heard else Tab.put c.heard node now, outer := Tab.put c.outer node outer })

/-- Has a remote node no key that may seal (R432)? -/
def Module.keyless (m : Module) (node : Nat) : Bool := m.protectsEdge && m.siteOf node != m.siteOf m.node && !m.keyUsable (edgeSlot node)

/-- Since when a node is held: for its silence (R213), or for want of a key (R432). -/
def heldSince (m : Module) (node : Nat) : Option Nat :=
  match Tab.find? m.chanter.held node with
  | some t => some t
  | none => if m.keyless node then some ((m.key (edgeSlot node)).gone.getD 0) else none

/-- PEER_STATE of a site (R213). -/
def peerState (m : Module) (site : Nat) : Nat :=
  let ns := m.siteNodes site
  let held := (ns.filter (fun n => (heldSince m n).isSome)).length
  if ns = [] then 0 else if held = 0 then 1 else if held < ns.length then 2 else 3

/-! ### Rounds -/

/-- ROUND: the last boundary that every owning region has passed. -/
def roundOf (m : Module) : Nat := match m.owners with
  | [] => 0
  | r :: rs => rs.foldl (fun a r => min a (m.rg r).xch.boundary) (m.rg r).xch.boundary

/-- Every owned block of region r with its position. -/
def Module.blocksOf (m : Module) (r : Nat) : List (Extent × Nat) := (m.extents r).flatMap (fun e => (List.range e.blocks).map (fun b => (e, b)))

/-- Raise ROUND_SIG once for each round that every owned block has adopted (R221). -/
def raiseRoundSig (now r : Nat) (m : Module) : Module :=
  let bs := m.blocksOf r
  match bs with
  | [] => m
  | x :: xs =>
    let low := xs.foldl (fun a y => min a (m.hdr r y.1 y.2).adoptRnd) (m.hdr r x.1 x.2).adoptRnd
    let old := (m.rg r).xch.signalled
    if low ≤ old then m
    else restall now <| incCounter now r (m.num (kROUND_SIG + r)) (low - old) (m.modXch r (fun y => { y with signalled := low }))

/-- Insert into an ascending list. -/
def insertInt (x : Int) : List Int → List Int
  | [] => [x]
  | y :: ys => if x ≤ y then x :: y :: ys else y :: insertInt x ys

/-- Aligned time less module time (R223): the median of the samples; the mean of the middle two of an even number. -/
def thetaOf (xs : List (Int × Nat)) : Int :=
  let ys := (xs.map (·.1)).foldr insertInt []
  let n := ys.length
  if n = 0 then 0 else if n % 2 = 1 then ys.getD (n / 2) 0 else (ys.getD (n / 2 - 1) 0 + ys.getD (n / 2) 0) / 2

/-- The deadline of round n in module time, its boundary falling now (R216, R224). -/
def deadlineOf (m : Module) (now n : Nat) : Nat :=
  if m.roundNum kTIME_ALIGN = 1 ∧ m.num kALIGN_OK = 1 then
    max now (((m.num kROUND_T0 + n * m.num kROUND_PERIOD_NS + m.num kDEADLINE_MS * ms : Nat) : Int) - thetaOf m.chanter.theta).toNat
  else now + m.num kDEADLINE_MS * ms

end Sys2Proof.Machine
end

