-- ==== Sys2Proof/Machine/Commit.lean ====
section
/-! DEFINITION. Committing a block (R171–R177), update descriptors (R182), and what the commits of Chanter bring about
(R207, R217, R220). A commit runs whole when nothing holds it; otherwise it waits at a step of R172 for BLOCK_COMMIT. -/

namespace Sys2Proof.Machine

/-! ### The descriptor (R182) -/

structure Upd where
  uop : Nat
  prog : Nat
  skipnf : Bool
  close : Bool
  extent : Nat
  first : Nat
  count : Nat
  step : Nat
  seed : Nat
  scalars : Nat
  deriving DecidableEq, Repr

def updOf (d : Desc) : Upd :=
  { uop := fld d.w2 63 60, prog := fld d.w2 59 56, skipnf := fldB d.w2 55, close := fldB d.w2 54, extent := fld d.w2 43 32,
    first := fld d.w3 63 40, count := fld d.w3 39 16, step := d.w4.toNat, seed := fld d.w5 63 40, scalars := fld d.w5 36 0 }

/-! ### Facts about a commit -/

def Module.commit? (m : Module) (r id : Nat) : Option Commit := (m.rg r).train.commits.find? (fun c => c.id == id)
def Module.modCommit (m : Module) (r id : Nat) (f : Commit → Commit) : Module :=
  m.modTrain r (fun t => { t with commits := t.commits.map (fun c => if c.id = id then f c else c) })
def Module.dropCommit (m : Module) (r id : Nat) : Module :=
  m.modTrain r (fun t => { t with commits := t.commits.filter (fun c => c.id ≠ id) })

/-- The flight of a commit's descriptor. -/
def Module.commitFlight (m : Module) (r : Nat) (c : Commit) : Option Flight :=
  if c.flight = 0 then none else (m.work r).flight? (c.flight - 1)

def Commit.lanes (c : Commit) : Bool := c.kind == 1 || c.kind == 5
/-- The requester that the memory reports for it (R134). -/
def Commit.req (c : Commit) : Nat := if c.lanes || c.kind == 3 then 3 else 4

/-- Does the commit store WC? -/
def storesWc (m : Module) (r : Nat) (c : Commit) : Bool :=
  c.kind == 2 || (c.kind == 1 && match m.commitFlight r c with
    | some x => (progIns x.prog).any (fun i => !i.reduces && i.store == 4)
    | none => false)

/-- The id that a commit records. -/
def commitId (m : Module) (r : Nat) (c : Commit) : Nat :=
  if c.lanes then ((m.commitFlight r c).map (fun x => (updOf x.d).step)).getD 0 else c.round

/-- The id that the header records for the kind (R172 step 2). -/
def recordedId (h : Hdr) (kind : Nat) : Nat :=
  if kind = 2 then h.adoptRnd else if kind = 3 then h.outerRnd else if kind = 4 then h.deltaRnd else h.step

/-! ### Steps 1–3 -/

inductive Go where
  | go
  | wait (step : Nat)
  | fail (st : Nat)
  deriving DecidableEq, Repr

/-- Is the shard of block b of extent e still to be drained from the current cut (R356)? -/
def shardOpen (m : Module) (r e b : Nat) : Bool :=
  let c := (m.rg r).cut
  c.shards.contains (e, b / 4096 * 4096) || match c.drain with
    | some d => d.ext == e && d.first == b / 4096 * 4096
    | none => false

/-- A tiered block commits while its extent is WARM or DIRTY (R150, R152, R356); its lanes' commits fail with a FAILED extent (R149). -/
def tierGo (m : Module) (r : Nat) (e : Extent) (c : Commit) : Go :=
  if e.form = 2 then
    match (m.tierEnt r e.base).state with
    | 2 => .go
    | 3 => if shardOpen m r e.idx c.blk ∧ (Tab.find? (m.rg r).cut.keys e.base).isNone then .wait 1 else .go
    | 5 => if c.lanes then .fail 0x0B else .wait 1
    | _ => .wait 1
  else .go

/-- Step 1: earlier commits of the block, the retained copy (R173), the extent's tier state (R150, R153, R356). -/
def mayStart (m : Module) (r : Nat) (e : Extent) (c : Commit) : Go :=
  if (m.rg r).train.commits.any (fun x => x.ext == c.ext && x.blk == c.blk && decide (x.id < c.id)) then .wait 1
  else if storesWc m r c && (m.hdr r e c.blk).retained then .wait 2
  else tierGo m r e c

/-- A free shadow half. -/
def freeHalf (m : Module) (r : Nat) : Option Nat :=
  firstFrom (m.num (kSHADOW_COUNT + r)) 0 (fun n => !((m.rg r).train.commits.any (fun c => c.half == some n)))

/-! ### Step 4: the new values -/

/-- What step 4 gives: parts, payload, sums U and W; or a status; or a delta that is not finite (R117). -/
inductive Made where
  | ok (parts : List (Nat × List Byte)) (out : List Byte) (sums : Option (Nat × Nat))
  | fail (st : Nat)
  | nonfin
  deriving DecidableEq, Repr

/-- Read one part of the body. -/
def readPart (now r req : Nat) (e : Extent) (b p : Nat) (m : Module) : Module × Option (List Byte) :=
  match memRead now r req (partAddr m r e b p) (partSize p) m with
  | (m, st, bs) => (m, if st = 0 then some bs else none)

/-- Read several places: address, length. None where one is uncorrectable. -/
def readAll (now r req : Nat) (xs : List (Nat × Nat)) (m : Module) : Module × Option (List (List Byte)) :=
  xs.foldl (fun (a : Module × Option (List (List Byte))) x =>
    match a.2 with
    | none => a
    | some ys => match memRead now r req x.1 x.2 a.1 with
      | (m, st, bs) => (m, if st = 0 then some (ys ++ [bs]) else none)) (m, some [])

/-- The 24 scalars of a table, and the norm record's three (R167). -/
def scalarOf (tab : List Byte) (n : NormRec) (i : Nat) : FV :=
  if i < 24 then f32 (leAt tab (4 * i) 4) else if i = 24 then f32 n.norm else if i = 25 then f32 n.clipf else if i = 26 then f32 n.sumsq else fvZero

/-- Operand codes 16–25 that a program reads. -/
def progReads (p : List Byte) : List Nat :=
  ((progIns p).flatMap Ins.uses).foldl (fun (a : List Nat) o => if 16 ≤ o ∧ o ≤ 25 ∧ !a.contains o then a ++ [o] else a) []

/-- Where a source code's values lie: address, length. -/
def srcPlace (m : Module) (r : Nat) (e : Extent) (b o : Nat) : Nat × Nat :=
  if o = 16 then (accAddr m r e b, 1024)
  else if o = 25 then ((m.xchEnt r e.idx).macc + 1024 * b, 1024)
  else let p := (srcPart o).getD pW; (partAddr m r e b p, partSize p)

/-- A source code's 256 values. -/
def srcValues (wfmt o : Nat) (bs : List Byte) : List FV :=
  if o = 16 ∨ o = 25 then fvs32 bs else partValues wfmt ((srcPart o).getD pW) bs

/-- Run a program over a block. Answers the run and the master weights. -/
def progOnBlock (now r req : Nat) (e : Extent) (b : Nat) (prog : List Byte) (scalars : Nat) (m : Module) : Module × Option (Prog × List FV) :=
  let codes := progReads prog
  let places := (m.num (kNORM_BASE + r), 32) :: (scalars, 96) :: (partAddr m r e b pW, 1024) :: codes.map (srcPlace m r e b)
  match readAll now r req places m with
  | (m, none) => (m, none)
  | (m, some bs) =>
    let n := m.normRec r
    let tab := bs.getD 1 []
    let vals := (List.range codes.length).map (fun i => (codes.getD i 0, srcValues e.wfmt (codes.getD i 0) (bs.getD (i + 3) [])))
    let src := fun o => ((vals.find? (fun v => v.1 == o)).map (·.2)).getD (List.replicate 256 fvZero)
    (m, some (runProg prog src (scalarOf tab n), fvs32 (bs.getD 2 [])))

/-- Raise the update lanes' sticky flags. -/
def raiseLanes (r : Nat) (f : Flags) (m : Module) : Module := m.modTrain r (fun t => { t with ulaneFlags := t.ulaneFlags ||| f.toNat })

/-- The stored value of a STORE code, if the program stores it. -/
def Prog.stored (p : Prog) (code : Nat) : Option (List FV × Bool) := (p.stores.find? (fun s => s.1 == code)).map (·.2)

/-- Inner commit (R167–R169, R69). -/
def makeInner (now r : Nat) (e : Extent) (c : Commit) (x : Flight) (m : Module) : Module × Made :=
  let u := updOf x.d
  match progOnBlock now r 3 e c.blk x.prog u.scalars m with
  | (m, none) => (m, .fail 1)
  | (m, some (p, w)) =>
    let fp := [(1, pW), (2, pM1), (3, pM2)].filterMap (fun s => (p.stored s.1).map (fun v => (s.2, bytes32 v.1)))
    let wc := (p.stored 4).map (fun v => wcBytes e.wfmt (numbers v.2 (wcSeed u.seed c.blk u.step) 256) v.1)
    let ws := blockSumSq w
    let us := match p.stored 1 with
      | none => ((fvZero, 0) : FR)
      | some v =>
        let ds := (List.range 256).map (fun i => fSub (v.1.getD i fvZero) (w.getD i fvZero))
        let q := blockSumSq (ds.map Prod.fst)
        (q.1, ds.foldl (fun (f : Flags) (x : FR) => f ||| x.2) q.2)
    let fl := p.flags ||| (wc.map (·.2)).getD 0 ||| ws.2 ||| us.2
    let m := (raiseLanes r fl m).modFlight r x.id (fun y => { y with flags := y.flags ||| fl.toNat })
    (m, .ok (fp ++ (wc.map (fun v => [(pWC, v.1)])).getD []) [] (some (toF32 us.1, toF32 ws.1)))

/-- Adoption (R220). The working copy's conversion is rounded by the update lanes, which keep its flags (R63); the helper's other steps raise
none (DESIGN CHOICE, log entry 162). -/
def makeAdopt (now r : Nat) (e : Extent) (c : Commit) (m : Module) : Module × Made :=
  let h := m.hdr r e c.blk
  let snap := if h.isOpen then snapAddr m r e c.blk else none
  let refs := match snap with
    | some a => [(a, 1024)]
    | none => []
  match readAll now r 4 ([(partAddr m r e c.blk pBASIS, 1024), (partAddr m r e c.blk pW, 1024)] ++ refs) m with
  | (m, none) => (m, .fail 1)
  | (m, some bs) =>
    let basis := fvs32 (bs.getD 0 [])
    let w := fvs32 (bs.getD 1 [])
    let ref := if h.isOpen then (if snap.isSome then fvs32 (bs.getD 2 []) else w) else basis
    let u := c.vals.map f32
    let hs := if c.src = 1 then u else (List.range 256).map (fun i => (fSub (basis.getD i fvZero) (u.getD i fvZero)).1)
    let w' := (List.range 256).map (fun i =>
      (fAdd (hs.getD i fvZero) (fSub (w.getD i fvZero) (ref.getD i fvZero)).1).1)
    let wc := wcBytes e.wfmt [] w'
    (raiseLanes r wc.2 m, .ok [(pWC, wc.1), (pW, bytes32 w'), (pBASIS, bytes32 hs)] [] none)

/-- The generator of a die's helper (R115). -/
def Module.helperGen (m : Module) (r : Nat) : Nat := Tab.get 1 m.chanter.gens (r / 4)
def setHelperGen (r g : Nat) (m : Module) : Module := m.modCh (fun c => { c with gens := Tab.put c.gens (r / 4) g })

/-- The stochastic numbers that one block takes from a generator under the codec in force, and the generator after them (R115, R119). -/
def codecNumbers (x : Xch) (gen : Nat) : List (Option Nat) × Nat :=
  let n := if x.codec = 1 then 256 else if x.codec = 2 then x.k else 0
  if x.stoch then let t := lfsrTake n gen; (t.1.map some, t.2) else ([], gen)

/-- Encode 256 values with error feedback: payload and residual; none where a value is not finite. A commit that kept its place in the
block order draws from there. -/
def encodeFeedback (r : Nat) (c : Commit) (d : List FV) (m : Module) : Module × Option (List Byte × List Byte) :=
  if d.any (fun x => !x.isFinite) then (m, none)
  else
    let x := (m.rg r).xch
    let (rs, g) := codecNumbers x (c.gen.getD (m.helperGen r))
    let (p, sent) := deltaEncode x.codec x.k d rs
    let res := (List.range 256).map (fun i => exactAdd (d.getD i fvZero) (sent.getD i fvZero).negate)
    (if c.gen.isSome ∨ !x.stoch then m else setHelperGen r g m, some (p, bytes16 res))

/-- A delta or outer commit that has to wait takes its numbers from its place in the block order (DESIGN CHOICE, log entry 147). -/
def reserveNumbers (r id : Nat) (m : Module) : Module :=
  let x := (m.rg r).xch
  match m.commit? r id with
  | none => m
  | some c =>
    if !x.stoch ∨ c.half.isSome ∨ c.gen.isSome then m
    else
      let g := m.helperGen r
      setHelperGen r (codecNumbers x g).2 (m.modCommit r id (fun c => { c with gen := some g }))

/-- Delta commit (R115, R207). -/
def makeDelta (now r : Nat) (e : Extent) (c : Commit) (m : Module) : Module × Made :=
  match readAll now r 4 [(partAddr m r e c.blk pBASIS, 1024), (partAddr m r e c.blk pW, 1024), (partAddr m r e c.blk pRES, 512)] m with
  | (m, none) => (m, .fail 1)
  | (m, some bs) =>
    let basis := fvs32 (bs.getD 0 [])
    let w := fvs32 (bs.getD 1 [])
    let res := fvs16 (bs.getD 2 [])
    let d := (List.range 256).map (fun i => (fAdd (fSub (basis.getD i fvZero) (w.getD i fvZero)).1 (res.getD i fvZero)).1)
    match encodeFeedback r c d m with
    | (m, none) => (m, .nonfin)
    | (m, some (p, rs)) =>
      let (m, st) := match snapAddr m r e c.blk with
        | some a => memWrite now r 4 a (bs.getD 1 []) m
        | none => (m, 0)
      (m, if st = 0 then .ok [(pRES, rs)] p none else .fail 1)

/-- Outer commit (R118, R217): the program with D = MACC; its OUT is encoded with the home residual's error. -/
def makeOuter (now r : Nat) (e : Extent) (c : Commit) (m : Module) : Module × Made :=
  let prog := Tab.get [] (m.rg r).train.progs (m.num kOUTER_PROG)
  if !progOk true (e.hasPart true) prog then (m, .fail 2)
  else
    match progOnBlock now r 3 e c.blk prog (m.num (kOUTER_SCALARS + r)) m with
    | (m, none) => (m, .fail 1)
    | (m, some (p, _)) =>
      let m := raiseLanes r p.flags m
      match encodeFeedback r c (((p.stored 6).map (·.1)).getD (List.replicate 256 fvZero)) m with
      | (m, none) => (m, .nonfin)
      | (m, some (pay, rs)) =>
        (m, .ok ((pHRES, rs) :: ((p.stored 5).map (fun v => [(pMOM, bytes32 v.1)])).getD []) pay none)

def make (now r : Nat) (e : Extent) (c : Commit) (m : Module) : Module × Made :=
  if c.kind = 1 then match m.commitFlight r c with
    | some x => makeInner now r e c x m
    | none => (m, .fail 3)
  else if c.kind = 2 then makeAdopt now r e c m
  else if c.kind = 3 then makeOuter now r e c m
  else if c.kind = 4 then makeDelta now r e c m
  else (m, .ok [] [] none)

/-- A part's place in a shadow half (R171). -/
def shadowOff (kind p : Nat) : Nat :=
  if p = pWC ∨ p = pHRES ∨ p = pRES then 64
  else if kind = 3 then 576
  else if p = pW then 576 else if p = pM1 ∨ p = pBASIS then 1600 else 2624

/-- The header after a commit (R160, R172). -/
def hdrAfter (m : Module) (r : Nat) (c : Commit) (retain : Option Nat) (h : Hdr) : Hdr :=
  let id := commitId m r c
  let wc := storesWc m r c
  let h := { h with version := h.version + b2n wc, kind := c.kind, pending := false, shadow := c.half.getD 0 }
  let h := match retain with
    | some k => { h with retained := true, retain := k, retrel := h.relcount, relcount := 0 }
    | none => h
  if c.kind = 2 then { h with adoptRnd := id } else if c.kind = 3 then { h with outerRnd := id }
  else if c.kind = 4 then { h with deltaRnd := id } else { h with step := id }

/-- The commit word that step 7 will write (R171, R172). -/
def newWord (m : Module) (r : Nat) (c : Commit) (retain : Option Nat) (old : List Byte) : List Byte :=
  (hdrBytes { hdrAfter m r c retain (hdrOf old) with pending := true } old).take 8

/-- The shadow half's own header (R171): the block header's region offset, the new commit word, the id to record, the mask of the parts
stored, IN_USE. Their places in its 64 B are the model's (DESIGN CHOICE, log entry 22); its other bytes are free values. -/
def halfHeader (m : Module) (r : Nat) (e : Extent) (c : Commit) (parts : List (Nat × List Byte)) : List Byte :=
  let a := partAddr m r e c.blk pHDR
  let old := m.peekB r a 64
  leBytes 8 a ++ newWord m r c none old ++ leBytes 8 (commitId m r c)
    ++ leBytes 2 (maskOf (parts.map Prod.fst)) ++ [1] ++ (List.range 37).map (fun i => Config.freeByte m.free (27 + i))

def halfAddr (m : Module) (r half : Nat) : Nat := m.num (kSHADOW_BASE + r) + 4096 * half

/-- Write a shadow half: its header, and the parts that the commit stores. -/
def writeHalf (now r : Nat) (e : Extent) (c : Commit) (half : Nat) (parts : List (Nat × List Byte)) (m : Module) : Module :=
  let base := halfAddr m r half
  forL parts (poke now r base (halfHeader m r e c parts) m).useFree (fun p m => poke now r (base + shadowOff c.kind p.1) p.2 m)

/-- After step 6 the half's header names the retained copy as the block's will. -/
def noteRetain (now r : Nat) (e : Extent) (c : Commit) (retain : Option Nat) (m : Module) : Module :=
  match c.half, retain with
  | some n, some k => poke now r (halfAddr m r n + 8) (newWord m r c (some k) (m.peekB r (partAddr m r e c.blk pHDR) 64)) m
  | _, _ => m

/-- A half is free again: its IN_USE is 0. -/
def freeShadow (now r : Nat) (c : Commit) (m : Module) : Module :=
  match c.half with
  | some n => poke now r (halfAddr m r n + 26) [0] m
  | none => m

/-! ### Steps 5 and 6 -/

/-- Step 5: none where the commit waits; else whether the copy could be made. -/
def stepReserve (now r : Nat) (e : Extent) (c : Commit) (m : Module) : Module × Option Bool :=
  let pos := posOf m r e c.blk
  if !m.copies r then (m, some true)
  else
  let (m, ok) := readRecord now r 3 (dirAddr m r pos) 8 m
  if !ok then (m, some false)
  else if !m.cutPending r pos then (m, some true)
  else if m.num (kRESERVE_COUNT + r) = 0 then (m, none)
  else
    match claimPlaces now r (e.form = 1) (m.rg r).cut.kept.length m with
    | (m, none) => (m, none)
    | (m, some (n, h)) =>
      match copyBlock now r e c.blk n h m with
      | (m, false) => (m, some false)
      | (m, true) => ((holdPlaces now r pos dCOPIED n h 0 m).bump kCOW_COPIES 1, some true)

/-- What step 6 comes to: the commit waits, WC cannot be read or copied (R135), or the retained copy that was made, if any. -/
inductive Kept where
  | wait
  | fail
  | ok (copy : Option Nat)
  deriving DecidableEq, Repr

/-- Step 6. -/
def stepRetain (now r : Nat) (e : Extent) (c : Commit) (m : Module) : Module × Kept :=
  if !storesWc m r c || (m.hdr r e c.blk).relcount = 0 then (m, .ok none)
  else
    match firstFrom (m.num (kRETAIN_COUNT + r)) 0 (fun n => !((m.rg r).train.retainUsed.contains n)) with
    | none => (m, .wait)
    | some n =>
      let dst := m.num (kRETAIN_BASE + r) + 512 * n
      let a := partAddr m r e c.blk pWC
      match if e.form = 2 then copyBytes now r c.req a dst 512 m else copySlots now r c.req a dst 2 m with
      | (m, false) => (m, .fail)
      | (m, true) => (m.modTrain r (fun t => { t with retainUsed := n :: t.retainUsed }), .ok (some n))

/-! ### Steps 7–11 -/

/-- Copy one part back into the body (R158, R110). Answers whether every slot of it was written. -/
def storePartBack (now r req : Nat) (e : Extent) (b : Nat) (p : Nat × List Byte) (m : Module) : Module × Bool :=
  let a := partAddr m r e b p.1
  match if p.1 = pWC ∧ (m.rg r).train.compWorking ∧ e.form ≠ 2 then memWriteComp now r req a p.2 m else memWrite now r req a p.2 m with
  | (m, st) => (m, st = 0)

/-- Step 8: the parts, and whether every slot of them was written. -/
def storeParts (now r : Nat) (e : Extent) (c : Commit) (m : Module) : Module × Bool :=
  c.parts.foldl (fun (a : Module × Bool) p =>
    let (m, ok) := storePartBack now r c.req e c.blk p a.1
    (m, a.2 && ok)) (m, true)

/-- FP64 sum with an FP32 value. -/
def add64 (acc x : Nat) : Nat := encodeFmt fp64 (round64 (rawAdd (decodeFmt fp64 acc) (f32 x)).1)

/-- Add U and W of a block to its layer (R69, R70). -/
def addUwr (r layer : Nat) (s : Nat × Nat) (m : Module) : Module :=
  if m.num (kUWR_BASE + r) = 0 then m
  else if 1023 < layer then m.modTrain r (fun t => { t with unmapped := t.unmapped + 1 })
  else m.modTrain r (fun t =>
    let o := Tab.get (0, 0) t.uwr layer
    { t with uwr := Tab.set (0, 0) t.uwr layer (add64 o.1 s.1, add64 o.2 s.2) })

/-- Steps 7–11 in one instant. Answers whether every slot of the body was written (R105, R135). -/
def commitPoint (now r : Nat) (e : Extent) (c : Commit) (retain : Option Nat) (m : Module) : Module × Bool :=
  let old := m.hdr r e c.blk
  let h := hdrAfter m r c retain old
  let (m, ok) := storeParts now r e c m
  let m := setHdr now r e c.blk h m
  let m := if c.lanes then clearAcc now r c.req (accAddr m r e c.blk) m else m
  let m := match c.sums with
    | some s => addUwr r h.layer s m
    | none => m
  let m := (m.bump kCOMMITS 1).bump kSKIPPED_NF (b2n (c.kind = 5))
  let pos := posOf m r e c.blk
  let w := m.dirW r pos
  let m := if c.kind = 2 ∧ m.num (kCUT_EPOCH + r) ≠ 0 ∧ w.epoch = m.num (kCUT_EPOCH + r) then setDir now r pos { w with adopts := min 3 (w.adopts + 1) } m else m
  let m := tierCommitted now r e c.blk (if c.lanes then some h.step else none) m
  (if h.isOpen = old.isOpen then m
    else m.setNum kOPEN_BLOCKS (if h.isOpen then m.num kOPEN_BLOCKS + 1 else m.num kOPEN_BLOCKS - 1), ok)

/-! ### What a commit's end brings -/

/-- Note a block's outcome in its update descriptor, and end the descriptor after its last block (R175, R176, R182). Of several blocks
that failed the one of lowest index gives the status (DESIGN CHOICE, log entry 168). -/
def noteBlock (now r : Nat) (c : Commit) (st : Nat) (skip : Bool) (m : Module) : Module :=
  if c.flight = 0 then m
  else
    let id := c.flight - 1
    let m := m.modFlight r id (fun x => { x with got := x.got + b2n skip })
    let m := noteResult r id c.idx st c.idx m
    if (m.rg r).train.commits.any (fun x => x.flight == c.flight) then m
    else match (m.work r).flight? id with
      | none => m
      | some x => if x.phase ≠ 4 then m else endFlight r id x.status x.flags (if x.status = 1 then x.aux else x.got) now m

/-- A message's fragment is handled once every one of its adoptions has committed (R211). One that fails leaves the fragment for a copy
of it to be adopted again. -/
def noteAdopted (now st : Nat) (c : Commit) (m : Module) : Module :=
  match c.ack with
  | none => m
  | some a =>
    if st ≠ 0 then
      forN 16 m (fun r m => m.modTrain r (fun t => { t with commits := t.commits.map (fun x => if x.ack = some a then { x with ack := none } else x) }))
    else if (List.range 16).any (fun r => (m.rg r).train.commits.any (fun x => x.ack == some a)) then m
    else fragDone now a.1 a.2 m

/-- Drop results that are too old or stand in the way of n bytes, oldest first (R217). Answers those that some site had not
acknowledged. -/
def evictResults (r n newest : Nat) (m : Module) : Module × List Payload :=
  let others := m.sites.filter (fun s => s ≠ m.num kSITE_ID)
  let full := fun (p : Payload) => others.all (fun s => p.acked.contains s)
  let ps := (m.rg r).xch.payloads
  let stale := fun (p : Payload) => p.isResult && (full p || decide (p.round + m.num kRESULT_KEEP ≤ newest))
  let gone1 := ps.filter stale
  let keep1 := ps.filter (fun p => !stale p)
  let cap := m.num (kXBUF_BYTES + r)
  let rec go : Nat → List Payload → List Payload → List Payload × List Payload
    | 0, k, g => (k, g)
    | f + 1, k, g =>
      if paySum k + n ≤ cap then (k, g)
      else
        match (k.filter (fun p => p.isResult && decide (p.round < newest))).foldl (fun (a : Option Payload) p => match a with
            | none => some p
            | some q => if p.round < q.round then some p else a) none with
        | none => (k, g)
        | some p => go f (k.erase p) (g ++ [p])
  let (keep, gone) := go keep1.length keep1 gone1
  let lost := gone.filter (fun p => !full p)
  ((m.modPays r (fun _ => keep)).bump kRESULTS_EVICTED lost.length, lost)

/-- STATE pieces of home blocks: BASIS, under the round whose result it holds, which is the home's own ADOPT_RND (R210, R217), with
their extents. A block that cannot be read has none (log entry 169). -/
def statePieces (now r : Nat) (xs : List (Extent × Nat)) (m : Module) : Module × List (Nat × Piece) :=
  xs.foldl (fun (a : Module × List (Nat × Piece)) x =>
    match readPart now r 4 x.1 x.2 pBASIS a.1 with
    | (m, none) => (m, a.2)
    | (m, some bs) => (m, a.2 ++ [(x.1.idx, { g := m.gidx r x.1 x.2, round := (m.hdr r x.1 x.2).adoptRnd, origin := 0, codec := 0xF, k := 0, bytes := bs })])) (m, [])

/-- Send STATE of home blocks of a region to a site. -/
def shipState (now site r : Nat) (xs : List (Extent × Nat)) (m : Module) : Module :=
  let (m, ps) := statePieces now r xs m
  let exts := ps.foldl (fun (a : List Nat) p => if a.contains p.1 then a else a ++ [p.1]) []
  shipTo now 3 0 site (exts.map (fun i => { r := r, ext := i, pieces := (ps.filter (fun p => p.1 = i)).map (·.2) })) m

/-- Does a message's run name a global index? -/
def msgNames (x : ChMsg) (g : Nat) : Bool :=
  let f := bits x.w2 63 24
  decide (f ≤ g) && decide ((g - f) % (max 1 x.gstride) = 0) && decide ((g - f) / (max 1 x.gstride) < x.count)

/-- Results evicted unacknowledged: their fragments stop, a stream left without fragments frees its number, and STATE goes to the sites
that lack them, of every block of the fragments that stop (R217). -/
def replaceByState (now r : Nat) (lost : List Payload) (m : Module) : Module :=
  let hit := fun (x : ChMsg) => x.type == 2 && lost.any (fun p => p.round == x.round && msgNames x p.gidx)
  let stopped := m.chanter.streams.flatMap (fun s => (s.2.frags.filter (fun f => hit f.msg)).map (fun f => (m.siteOf s.2.node, f.msg)))
  let left := (m.chanter.streams.map (fun s => (s.1, { s.2 with frags := s.2.frags.filter (fun f => !hit f.msg) }))).filter (fun s => s.2.frags ≠ [])
  let freed := m.chanter.streams.length - left.length
  let m := forN freed (m.modCh (fun c => { c with streams := left })) (fun _ m => openWaiting now m)
  let homes := (m.blocksOf r).filter (fun x => x.1.form = 1)
  forL (m.sites.filter (fun s => s ≠ m.num kSITE_ID)) m (fun s m =>
    shipState now s r (homes.filter (fun x =>
      let g := m.gidx r x.1 x.2
      lost.any (fun p => p.gidx == g && !p.acked.contains s) || stopped.any (fun y => y.1 == s && msgNames y.2 g))) m)

/-- The end of a merge: HOME_RND, and RESULT streams to the owners at every other site (R217). -/
def mergeEnd (now : Nat) (m : Module) : Module :=
  match m.chanter.merging with
  | none => m
  | some n =>
    if (List.range 16).any (fun r => (m.rg r).train.commits.any (fun c => c.kind == 3)) then m
    else
      let m := (m.setNum kHOME_RND n).modCh (fun c => { c with merging := none, fresh := [] })
      let (m, cs) := cargoOfAll now m.owners (fun p => p.isResult && p.round == n) m
      forL (m.sites.filter (fun s => s ≠ m.num kSITE_ID)) m (fun s m => shipTo now 2 0 s cs m)

/-- Unshipped delta payloads of some regions go to the streams of their rounds, at the homes of their blocks (R208). One that cannot be
read is freed (log entry 169). -/
def shipDeltas (now flags : Nat) (rs : List Nat) (mine : Payload → Bool) (m : Module) : Module :=
  let mine := fun (p : Payload) => !p.isResult && !p.shipped && mine p
  let (m, cs) := cargoOfAll now rs mine m
  let read := fun (r : Nat) (p : Payload) => cs.any (fun c => c.r == r && c.pieces.any (fun x => x.g == p.gidx && x.round == p.round))
  let m := forL rs m (fun r m => m.modPays r (fun ps => (ps.filter (fun p => !mine p || read r p)).map (fun p => if mine p then { p with shipped := true } else p)))
  forL m.sites m (fun s m =>
    shipTo now 1 flags s (cs.map (fun c => { c with pieces := c.pieces.filter (fun p => m.homeSite p.g == some s) })) m)

/-- Does a block's delta commit of round n hold back the round's streams? One of a tiered extent does not: its delta goes late (R153). -/
def formsFor (m : Module) (r n : Nat) (c : Commit) : Bool :=
  c.kind == 4 && c.flags == 0 && decide (c.round ≤ n) && match m.extent? r c.ext with
    | some e => e.form != 2
    | none => false

/-- The deltas of round n that are formed at every region leave (R208). -/
def formEnd (now r : Nat) (m : Module) : Module :=
  match (m.rg r).xch.forming with
  | none => m
  | some n =>
    if m.owners.any (fun q => (m.rg q).train.commits.any (formsFor m q n) || decide ((m.rg q).xch.boundary < n)) then m
    else
      shipDeltas now 0 m.owners (fun p => decide (p.round ≤ n))
        (forL m.owners m (fun q m => m.modXch q (fun x => if x.forming = some n then { x with forming := none } else x)))

/-- The next boundary finds a round whose streams have not left: what the region has formed of it leaves now. -/
def formLate (now r : Nat) (m : Module) : Module :=
  match (m.rg r).xch.forming with
  | none => m
  | some n => shipDeltas now 0 [r] (fun p => decide (p.round ≤ n)) (m.modXch r (fun x => { x with forming := none }))

/-- A late or catch-up delta travels when it is made, in the stream of its round (R153, R208, R226). -/
def shipLate (now r : Nat) (c : Commit) (m : Module) : Module :=
  shipDeltas now c.flags [r] (fun p => p.round == c.round && p.ext == c.ext && p.blk == c.blk) m

/-- Queue a commit of Chanter's. A COLD extent is recalled for it, without a stage (R153). -/
def queueCommit (now r : Nat) (c : Commit) (m : Module) : Module :=
  let id := (m.rg r).train.nextCommit
  let m := m.modTrain r (fun t => { t with nextCommit := id + 1, commits := t.commits ++ [{ c with id := id, chGen := if c.flight = 0 then m.num kCHANTER_GEN else 0, since := now }] })
  match m.extent? r c.ext with
  | some e => if e.form = 2 ∧ !c.lanes then startRecall now r e.base m else m
  | none => m

/-- A block that waited for STATE has adopted it (R367). -/
def resynced (r pos : Nat) (m : Module) : Module :=
  if m.cuts.resync.contains (r, pos) then
    let m := m.modCuts (fun c => { c with resync := c.resync.filter (fun x => x ≠ (r, pos)) })
    let m := m.setNum kRESYNC_LEFT m.cuts.resync.length
    if m.cuts.resync = [] ∧ m.num kRESTORE_STATUS = 3 then m.setNum kRESTORE_STATUS 4 else m
  else m

/-- What follows a commit (R207, R217, R219–R221). The block's own adoption of its merged result is queued, not run. A payload keeps the
codec that encoded it (R119). -/
def afterCommit (now r : Nat) (e : Extent) (c : Commit) (m : Module) : Module :=
  let pay : Payload := { ext := c.ext, blk := c.blk, gidx := m.gidx r e c.blk, round := c.round, origin := c.origin, isResult := c.kind == 3,
                         codec := c.codec, k := if c.codec = 2 then c.k else 0, at_ := 0, len := c.out.length }
  if c.kind = 4 then
    let m := putPay now r pay c.out (m.modXch r (fun y => { y with heldPos := y.heldPos.filter (· ≠ posOf m r e c.blk) }))
    if (m.rg r).xch.forming = some c.round ∧ c.flags = 0 then m else shipLate now r c m
  else if c.kind = 3 then
    let (m, lost) := evictResults r c.out.length c.round m
    let m := replaceByState now r lost (putPay now r pay c.out m)
    let m := clearAcc now r 4 ((m.xchEnt r e.idx).macc + 1024 * c.blk) m
    queueCommit now r { ext := c.ext, blk := c.blk, kind := 2, round := c.round, vals := (deltaDecode c.codec c.k c.out).map toF32 } m
  else if c.kind = 2 then
    let m := if c.src = 1 then resynced r (posOf m r e c.blk) (m.bump kSTATE_BLOCKS 1) else m
    raiseRoundSig now r (freeDeltas r m)
  else m

/-! ### Running a commit (R172) -/

/-- The time that a commit has waited, by the step at which it waited (R183). -/
def noteWait (now : Nat) (c : Commit) (m : Module) : Module :=
  if c.step = 2 ∨ c.step = 6 then m.bump kRETAIN_WAIT_NS (now - c.since)
  else if c.step = 3 then m.bump kSHADOW_WAIT_NS (now - c.since)
  else if c.step = 5 then m.bump kRESERVE_STALL_NS (now - c.since) else m

/-- Take a commit out of the queue and account for its end. -/
def endCommit (now r : Nat) (c : Commit) (st : Nat) (skip : Bool) (m : Module) : Module :=
  let m := noteBlock now r c st skip (freeShadow now r c ((noteWait now c m).dropCommit r c.id))
  let m := noteAdopted now st c m
  let m := match m.extent? r c.ext with
    | some e => if e.form = 2 then serveFrames now r m else m
    | none => m
  if c.kind = 3 then mergeEnd now m else if c.kind = 4 then formEnd now r m else m

/-- Wait at a step: the time counts from when the commit came to it. -/
def waitAt (now r : Nat) (c : Commit) (n : Nat) (m : Module) : Module :=
  if c.step = n then m else (noteWait now c m).modCommit r c.id (fun x => { x with step := n, since := now })

/-- A block left uncommitted because part of it cannot be read (R176). -/
def leaveUe (now r : Nat) (c : Commit) (m : Module) : Module := endCommit now r c 1 false (m.bump kUPDATE_UE 1)

/-- Steps 5–11 of a commit that holds its shadow half. One that has waited at step 6 comes to step 5 again: a cut may have been taken
since (R346). A slot that cannot be read at steps 5 or 6 leaves the block as one at step 4 does
(DEDUCED, log entry 168). -/
def commitTail (now r : Nat) (e : Extent) (c : Commit) (m : Module) : Module :=
  match stepReserve now r e c m with
  | (m, none) => waitAt now r c 5 m
  | (m, some false) => leaveUe now r c m
  | (m, some true) =>
    match stepRetain now r e c m with
    | (m, .wait) => waitAt now r c 6 m
    | (m, .fail) => leaveUe now r c m
    | (m, .ok k) =>
      let (m, ok) := commitPoint now r e c k (noteRetain now r e c k m)
      endCommit now r c (if ok then 0 else 1) false (afterCommit now r e c m)

/-- Steps 1–4, and on to the tail. -/
def commitHead (now r : Nat) (e : Extent) (c : Commit) (m : Module) : Module :=
  match mayStart m r e c with
  | .wait n => waitAt now r c n m
  | .fail st => endCommit now r c st false m
  | .go =>
    match readPart now r c.req e c.blk pHDR m with
    | (m, none) => leaveUe now r c m
    | (m, some hb) =>
      if commitId m r c ≤ recordedId (hdrOf hb) c.kind then
        let m := if c.lanes ∧ commitId m r c = (hdrOf hb).step then tierUpdated now r e c.blk (hdrOf hb).step m else m
        endCommit now r c 0 true (m.bump kSKIPPED 1)
      else
        match freeHalf m r with
        | none => waitAt now r c 3 m
        | some half =>
          let m := noteWait now c m
          let c := { c with half := some half, step := 4, since := now }
          match make now r e c m with
          | (m, .fail st) => if st = 1 then leaveUe now r c m else endCommit now r c st false m
          | (m, .nonfin) =>
            endCommit now r c 0 false (post now 1 2 (srcRegion r) (leBytes 8 (m.gidx r e c.blk)) (m.bump kNONFIN_BLOCKS 1))
          | (m, .ok parts out sums) =>
            let x := (m.rg r).xch
            let c := { c with parts := parts, out := out, sums := sums, codec := x.codec, k := x.k }
            commitTail now r e c ((writeHalf now r e c half parts m).modCommit r c.id (fun _ => c))

/-- Take a commit as far as it goes. One held at step 5 or 6 goes on only while its extent still admits commits (R150, R152); the helper
asks again for an extent that has gone COLD (R153). A tiered block needs its entry of the tier table. -/
def advance (now r : Nat) (e : Extent) (c : Commit) (m : Module) : Module :=
  let (m, ok) := if e.form = 2 then readTier now r e.base m else (m, true)
  if !ok then leaveUe now r c m
  else if c.step ≤ 4 then commitHead now r e c m
  else match tierGo m r e c with
    | .go => commitTail now r e c m
    | .fail st => endCommit now r c st false m
    | .wait _ => m

/-- Attempt commit k of region r; a helper's work item of an older CHANTER_GEN is discarded (R394). -/
def runCommit (now r k : Nat) (m : Module) : Module :=
  match m.commit? r k with
  | none => m
  | some c =>
    match m.extent? r c.ext with
    | none => endCommit now r c 2 false m
    | some e =>
      if m.inReset r ∨ (!c.lanes ∧ m.num kCHANTER_FSTATE ≠ 0) then m
      else if c.flight = 0 ∧ c.chGen ≠ m.num kCHANTER_GEN then (freeShadow now r c (noteWait now c m)).dropCommit r c.id
      else
        let m := advance now r e c m
        if e.form = 2 ∧ !c.lanes ∧ (m.commit? r k).isSome then startRecall now r e.base m else m

/-- Attempt every commit that waits, oldest first: adoptions of merged results follow their outer commits. -/
def runAll (now r : Nat) (m : Module) : Module :=
  let m := forL ((m.rg r).train.commits.map Commit.id) m (fun k m => runCommit now r k m)
  forL ((m.rg r).train.commits.map Commit.id) m (fun k m => runCommit now r k m)

/-! ### The commands -/

/-- The checks of R182 and R169; 0 passes. -/
def updStatus (m : Module) (r : Nat) (x : Flight) : Nat :=
  let u := updOf x.d
  let n := m.normRec r
  match m.extent? r u.extent with
  | none => 2
  | some e =>
    if u.uop ≠ 1 ∨ e.blocks < u.first + u.count ∨ u.count = 0 ∨ e.expect = 0 ∨ m.num (kSHADOW_COUNT + r) = 0
        ∨ n.step ≠ u.step ∨ (n.state ≠ 1 ∧ n.state ≠ 2) ∨ u.scalars % 32 ≠ 0 ∨ !readable u.scalars 96
        ∨ !progOk false (e.hasPart (e.form = 1)) x.prog then 2
    else if m.cuts.broken then 0x0B
    else if e.form = 2 ∧ (m.tierEnt r e.base).state = 5 then 0x0B
    else if e.form = 2 ∧ (m.rg r).tier.late.contains e.base ∧ (m.tierEnt r e.base).state ≠ 2 ∧ (m.tierEnt r e.base).state ≠ 3 then 6
    else 0

/-- Queue the commits of an update descriptor. The issue gate leaves the update lanes alone (R327). -/
def queueBlocks (now r : Nat) (x : Flight) (m : Module) : Module :=
  let u := updOf x.d
  let kind := if u.skipnf ∧ (m.normRec r).state = 2 then 5 else 1
  let cycles := u.count * 16 * progCount x.prog / 64 + 64
  let m := m.modFlight r x.id (fun y => { y with phase := 4, endAt := (y.ready.getD now) + m.cyclesNs r (m.waits cycles) })
  forN u.count m.useFree (fun i m => queueCommit now r { flight := x.id + 1, ext := u.extent, blk := u.first + i, kind := kind, idx := i } m)

/-- INNER_UPDATE (R182): the descriptor is checked and one commit of each of its blocks is queued for BLOCK_COMMIT. -/
def execInnerUpdate (r id : Nat) (s : State) : Host.Outcome State Fault Refusal :=
  guarded (okR r) (s.does (fun now m =>
    match runnable m r id (fun d => d.cls == 5) with
    | some x =>
      let (m, ok) := readRecord now r 3 (m.num (kNORM_BASE + r)) 32 m
      let st := if ok then updStatus m r x else 1
      if st ≠ 0 then endNow now r x.id st m else queueBlocks now r x m
    | none => m))

/-- BLOCK_COMMIT (R172). -/
def execBlockCommit (r k : Nat) (s : State) : Host.Outcome State Fault Refusal :=
  guarded (okR r) (s.does (fun now m => if m.inReset r then m else runCommit now r k m))

/-- The moment at which a commit's wait for a reserve entry ends (R175). -/
def stallEnd (m : Module) (r k : Nat) : Option Nat :=
  match m.commit? r k with
  | some c => if c.step = 5 then some (c.since + m.num kRESERVE_STALL_MS * ms) else none
  | none => none

/-- RESERVE_STALL_TIMEOUT (R175): the block is left uncommitted, with 0x0A. -/
def execReserveStallTimeout (r k : Nat) (s : State) : Host.Outcome State Fault Refusal :=
  let d := stallEnd s.mod r k
  guarded (okR r) (s.doesWhen d.isSome (d.getD 0) (fun now m =>
    match m.commit? r k with
    | some c => endCommit now r c 0x0A false m
    | none => m))

end Sys2Proof.Machine
end

