-- ==== Sys2Proof/Machine/Serve.lean ====
section
/-! DEFINITION. Serving fabric requests: checks (R236), duplicate records (R243), READ and WRITE (R235, R237), SIGNAL
(R87), stage entries and credits (R193), collective contributions (R250). -/

namespace Sys2Proof.Machine

/-! ### Checks (R236) -/

def opReserved (op : Nat) : Bool := op == 0 || decide (0x12 ≤ op)

/-- Does LEN agree with the OP of a request (R234)? -/
def lenOk (f : Frame) : Bool :=
  f.len == f.body.length &&
    (if f.op = opREAD ∨ f.op = opGATHER ∨ f.op = opSIGNAL ∨ f.op = opCREDIT ∨ f.op = opREGRD then f.len == 0
     else if f.op = opACCUM then decide (1 ≤ f.len) && f.len % accBytes f.fmt == 0 && decide (f.len ≤ 4096)
     else if f.op = opREFETCH ∨ f.op = opRELEASE then f.len == 4 * f.aux
     else if f.op = opREGWR then f.len == 4 || f.len == 8
     else if f.op = opDICT then decide (24 ≤ f.len) && decide (f.len ≤ 4096)
     else if f.op = opDESC then f.len == 64
     else if f.op = opPOOL then decide (16 ≤ f.len) && decide (f.len ≤ 4096)
     else decide (1 ≤ f.len) && decide (f.len ≤ 4096))

def badRequest (op : Nat) (f : Frame) : Bool := f.ver != 1 || f.rsp || f.enc || f.auth || f.op != op || opReserved f.op || !lenOk f

/-- Take a frame out of the buffer in which it arrived; a port's credits return (R240). -/
def takeFrame (via : Via) (f : Frame) (m : Module) : Module :=
  match via with
  | .port p =>
    let x := m.port p
    if x.rx.contains f then
      let i := x.rx.idxOf f
      (m.modPort p (fun x => { x with rx := x.rx.eraseIdx i, rxCost := x.rxCost.eraseIdx i })).emit (.linkCredit p f.vc (x.rxCost.getD i f.credits))
    else m
  | .edge e => if (m.edge e).rx.contains f then m.modEdge e (fun x => { x with rx := x.rx.erase f }) else m
  | .mesh => m

/-! ### Which requests a region takes -/

/-- 0x08 from a region that is not in RUN (data-range reads and writes apart), being disabled, disabled, lost or in reset
(R236, R375, R396, R400). -/
def regionRefuses (m : Module) (r : Nat) (dataOnly : Bool) : Bool :=
  m.inReset r || m.fstate r != 0 || !(m.inRun || (m.mstate == 1 && dataOnly))

/-- Requests wait while the region's PLL is stopped (R339). -/
def regionHolds (m : Module) (r : Nat) : Bool := (m.rg r).power.pllOff

/-- Is the region's stack being retrained (R417)? -/
def regionRetrains (m : Module) (r : Nat) : Bool := Tab.get 0 m.test.dramRecal r != 0

def holdFrame (now r : Nat) (f : Frame) (via : Via) (m : Module) : Module :=
  (wakePll now r m).modR r (fun g => { g with held := if g.held.contains (f, via) then g.held else g.held ++ [(f, via)] })

def unholdFrame (r : Nat) (f : Frame) (via : Via) (m : Module) : Module :=
  if (m.rg r).held.contains (f, via) then m.modR r (fun g => { g with held := g.held.erase (f, via) }) else m

/-- Does a request read or write the stack? SIGNAL and CREDIT act on a counter, and no module serves POOL. -/
def onStack (op : Nat) : Bool := op != opSIGNAL && op != opCREDIT && op != opPOOL

/-- A request to a region: dropped, refused, answered with 0x09 while the stack retrains, held, or served by `k`. -/
def serve (now op : Nat) (f : Frame) (via : Via) (dataOnly : Bool) (k : Module → Module) (m : Module) : Module :=
  let m := takeFrame via f m
  let r := addrRegion f.addr
  if badRequest op f then m.bump kBAD_FRAME 1
  else if addrNode f.addr ≠ m.node then m.bump kMISROUTED 1
  else if regionRefuses m r dataOnly then respond now f 8 0 [] (unholdFrame r f via m)
  else if regionRetrains m r then respond now f 9 0 [] (unholdFrame r f via m)
  else if regionHolds m r ∨ (onStack op ∧ now < (m.rg r).power.paceUntil) then holdFrame now r f via m
  else
    let m := (unholdFrame r f via m).modR r (fun g => { g with lastServed := now })
    k (if onStack op then pace now r m else m)

/-! ### Duplicate records (R243) -/

/-- Is a record that of a request with a frame's tag, requester and generation? -/
def DupRec.isOf (d : DupRec) (f : Frame) : Bool := d.tag == f.tag && d.node == f.srcNode && d.region == f.srcRegion && d.gen == f.gen

def dupOf (m : Module) (r : Nat) (f : Frame) : Option DupRec := (m.rg r).dups.find? (fun d => d.isOf f)

/-- The record of a request from its acceptance, while it is not answered. -/
def openDup (r : Nat) (f : Frame) (m : Module) : Module :=
  if (dupOf m r f).isSome ∨ 65536 ≤ (m.rg r).dups.length then m
  else m.modR r (fun g => { g with dups := g.dups ++ [{ tag := f.tag, node := f.srcNode, region := f.srcRegion, gen := f.gen, status := 0, answer := [], at_ := 0, applying := true }] })

/-- The copies that wait for a request's answer; its record no longer says that it is being applied. -/
def takeCopiesOf (r : Nat) (f : Frame) (m : Module) : Module × List Frame :=
  match (m.rg r).dups.find? (fun d => d.isOf f && d.applying) with
  | none => (m, [])
  | some d => (m.modR r (fun g => { g with dups := g.dups.filter (fun x => x ≠ d) }), d.copies)

/-- Answer a non-idempotent request, and the copies of it that wait, and keep its record for 200 µs. -/
def answerOnce (now : Nat) (f : Frame) (st aux : Nat) (body : List Byte) (m : Module) : Module :=
  let r := addrRegion f.addr
  let (m, copies) := takeCopiesOf r f m
  let m := respond now f st aux body (m.modR r (fun g => { g with dups := g.dups ++ [{ tag := f.tag, node := f.srcNode, region := f.srcRegion, gen := f.gen, status := st, answer := leBytes 4 aux ++ body, at_ := now }] }))
  forL copies m (fun c m => respond now c st aux body m)

/-- A request that had been accepted is refused after all: its record goes, and its copies are refused too. -/
def refuseOnce (now r : Nat) (f : Frame) (st : Nat) (m : Module) : Module :=
  let (m, copies) := takeCopiesOf r f m
  forL copies m (fun c m => respond now c st 0 [] m)

/-- Has the region taken this very frame already, to serve it later? -/
def acceptedEarlier (m : Module) (r : Nat) (f : Frame) (via : Via) : Bool := (m.rg r).held.contains (f, via) || m.fabric.collWaiting.contains (f, via)

/-- Among the frames of one request that a region holds, is this the first? -/
def firstHeld (m : Module) (r : Nat) (f : Frame) (via : Via) : Bool :=
  (m.fabric.collWaiting ++ (m.rg r).held).find? (fun x => x.1.tag == f.tag && x.1.srcNode == f.srcNode && x.1.srcRegion == f.srcRegion && x.1.gen == f.gen) == some (f, via)

/-- The record that a frame is a copy of: RETRY is set and the region has not taken it, or it was held while the store was full and
another frame of its request has been answered or stands before it. -/
def copyOf (m : Module) (op r : Nat) (f : Frame) (via : Via) : Option DupRec :=
  if !badRequest op f && addrNode f.addr == m.node && !regionRefuses m r false && !regionRetrains m r then
    if acceptedEarlier m r f via then (dupOf m r f).filter (fun d => !d.applying || !firstHeld m r f via)
    else if f.retry then dupOf m r f else none
  else none

/-- A copy of a request: answered from the record, or kept until the original has its answer (R243; DEDUCED, log entry
159). -/
def serveCopy (now r : Nat) (f : Frame) (via : Via) (d : DupRec) (m : Module) : Module :=
  let m := unholdFrame r f via ((takeFrame via f m).bump kDUP_SUPPRESSED 1)
  if d.applying then m.modR r (fun g => { g with dups := g.dups.map (fun x => if x = d then { x with copies := x.copies ++ [f] } else x) })
  else respond now f d.status (leAt d.answer 0 4) (d.answer.drop 4) m

/-- A non-idempotent request: a copy of a recorded one is not applied again; with a full store a new one waits. One that the region holds is
recorded from then on. -/
def serveOnce (now op : Nat) (f : Frame) (via : Via) (k : Module → Module) (m : Module) : Module :=
  let r := addrRegion f.addr
  match copyOf m op r f via with
  | some d => serveCopy now r f via d m
  | none =>
    let m := serve now op f via false (fun m =>
      if 65536 ≤ (m.rg r).dups.length ∧ (dupOf m r f).any DupRec.applying = false then holdFrame now r f via m else k m) m
    if badRequest op f ∨ addrNode f.addr ≠ m.node then m
    else if (m.rg r).held.contains (f, via) then openDup r f m
    else if regionRefuses m r false then refuseOnce now r f 8 m
    else if regionRetrains m r then refuseOnce now r f 9 m
    else m

/-! ### READ and WRITE -/

/-- READ in stored form: code word, then sectors (R235). -/
def readStoredSlots (now r off n : Nat) (m : Module) : Module × Option (List Byte) :=
  let (m, x) := readRun now r 5 off n (memRequest now r m)
  (m, x.map (fun y => leBytes 8 (packBits 4 y.1) ++ y.2))

def serveRead (now : Nat) (f : Frame) (m : Module) : Module :=
  let r := addrRegion f.addr
  let off := addrOff f.addr
  if f.aux = 0 ∨ 4096 < f.aux then respond now f 2 0 [] m
  else if m.mstate = 1 ∧ !writable off f.aux then respond now f 8 0 [] m
  else if !readable off f.aux then respond now f 2 0 [] m
  else if f.stored then
    if off % 256 ≠ 0 ∨ f.aux % 256 ≠ 0 ∨ 3840 < f.aux then respond now f 2 0 [] m
    else match readStoredSlots now r off (f.aux / 256) m with
      | (m, none) => respond now f 1 0 [] m
      | (m, some bs) => respond now f 0 0 bs m
  else
    let (m, st, bs) := memRead now r 5 off f.aux m
    respond now f st 0 (if st = 0 then bs else []) m

/-- A write that leaves the norm record with STATE 0 arms it (R164, R165). -/
def passNorm (r : Nat) (m : Module) : Module :=
  let t := (m.rg r).train
  let n := m.normRec r
  if n.state ≠ 0 ∨ t.passed ∨ t.complete < n.expected then m
  else { m.modTrain r (fun t => { t with passed := true }) with
         norm := Tab.put m.norm r (convertCode fp32 none (decodeFmt fp64 t.partialSum)).1 }

def armNorm (r off len : Nat) (m : Module) : Module :=
  let a := m.num (kNORM_BASE + r)
  if off < a + 32 ∧ a < off + len ∧ (m.normRec r).state = 0 then
    passNorm r (m.modTrain r (fun t => { t with complete := 0, partialSum := 0, passed := false }))
  else m

def serveWrite (now : Nat) (f : Frame) (m : Module) : Module :=
  let r := addrRegion f.addr
  let off := addrOff f.addr
  if !writable off f.len then respond now f (if m.mstate = 1 then 8 else 2) 0 [] m
  else if touchesState m r off f.len then respond now f 2 0 [] (m.bump kSTATE_WRITE_REFUSED 1)
  else
    let (m, st) := memWrite now r 5 off f.body m
    respond now f st 0 [] (armNorm r off f.len m)

/-- READ (R235). -/
def execRead (f : Frame) (via : Via) (s : State) : Host.Outcome State Fault Refusal :=
  s.does (fun now m => serve now opREAD f via true (serveRead now f) m)

/-- WRITE (R237). -/
def execWrite (f : Frame) (via : Via) (s : State) : Host.Outcome State Fault Refusal :=
  s.does (fun now m => serve now opWRITE f via true (serveWrite now f) m)

/-! ### SIGNAL (R87) -/

def serveSignal (now : Nat) (f : Frame) (m : Module) : Module :=
  let off := addrOff f.addr
  if off / 256 ≠ 0 ∨ off % 256 = 255 then answerOnce now f 2 0 [] m
  else answerOnce now f 0 0 [] (incCounter now (addrRegion f.addr) (off % 256) f.aux m)

/-- SIGNAL_FRAME (R87). -/
def execSignalFrame (f : Frame) (via : Via) (s : State) : Host.Outcome State Fault Refusal :=
  s.does (fun now m => serveOnce now opSIGNAL f via (fun m => restall now (serveSignal now f m)) m)

/-! ### Stage queues (R193) -/

/-- Raise SIG for entries that have arrived whole, in order. -/
def arriveInOrder (now i full : Nat) : Nat → Module → Module
  | 0, m => m
  | n + 1, m =>
    let q := m.sq i
    if Tab.get (0, 0) q.parts q.arrivedN = (full, 0) then
      let m := m.modSq i (fun q => { q with parts := Tab.del q.parts q.arrivedN, arrivedN := q.arrivedN + 1 })
      let rec_ := m.sqRec i
      arriveInOrder now i full n (incCounter now rec_.region rec_.sig 1 (m.bump (kENTRIES + i) 1))
    else m

/-- Part of entry n arrives with a status: what was written, or refused, is noted; a refused entry's credit returns with its last frame, and an
entry that is whole raises SIG in its turn (DESIGN CHOICE for the entries behind a refused one, log entry 155). -/
def stagePart (now i n : Nat) (f : Frame) (st : Nat) (m : Module) : Module :=
  let full := (m.sqRec i).entry * 256
  let old := Tab.get (0, 0) (m.sq i).parts n
  let new := if st = 0 then (old.1 + f.len, old.2) else (old.1, old.2 + f.len)
  let m := answerOnce now f st 0 [] (m.modSq i (fun q => { q with parts := Tab.put q.parts n new }))
  if old.1 + old.2 < full ∧ full ≤ new.1 + new.2 ∧ new.2 ≠ 0 then sendCredit now i 1 (m.modSq i (fun q => { q with refused := q.refused + 1 }))
  else arriveInOrder now i full 64 m

def serveStage (now : Nat) (f : Frame) (m : Module) : Module :=
  let i := f.group % 32
  let rec_ := m.sqRec i
  let q := m.sq i
  let full := rec_.entry * 256
  let n := q.arrivedN + (f.cseq + 2 ^ 24 - q.arrivedN % 2 ^ 24) % 2 ^ 24
  let inWindow := decide (n < q.freedN + rec_.slots + q.refused)
  if !queueLive m i ∨ rec_.out then answerOnce now f 8 0 [] m
  else if full < f.aux + f.len then
    let m := m.bump kSTAGEQ_OVERRUN 1
    if inWindow then stagePart now i n f 2 m else answerOnce now f 2 0 [] m
  else if !inWindow then answerOnce now f 2 0 [] m
  else
    let (m, st) := memWrite now (addrRegion rec_.ring) 5 (addrOff rec_.ring + n % rec_.slots * full + f.aux) f.body m
    stagePart now i n f st m

/-- STAGE (R193). -/
def execStage (f : Frame) (via : Via) (s : State) : Host.Outcome State Fault Refusal :=
  s.does (fun now m => serveOnce now opSTAGE f via (fun m => restall now (serveStage now f m)) m)

/-- A CREDIT frame: a grant or return at an outbound end, a request for a grant at an inbound end. -/
def serveCredit (now : Nat) (f : Frame) (m : Module) : Module :=
  let i := f.group % 32
  let rec_ := m.sqRec i
  let q := m.sq i
  if !queueLive m i ∨ rec_.peer ≠ f.srcNode then m
  else if rec_.out then
    if f.aux = 0 then m
    else
      let n := min f.aux (rec_.slots - q.credits)
      incCounter now rec_.region rec_.sig n (m.modSq i (fun q => { q with credits := q.credits + n, owed := q.owed - f.aux }))
  else if f.aux = 0 then sendCredit now i (rec_.slots - (q.arrivedN - q.freedN)) m
  else m

/-- CREDIT (R193): it has no response. -/
def execCredit (f : Frame) (via : Via) (s : State) : Host.Outcome State Fault Refusal :=
  s.does (fun now m =>
    let m := takeFrame via f m
    if badRequest opCREDIT f then m.bump kBAD_FRAME 1
    else if addrNode f.addr ≠ m.node then m.bump kMISROUTED 1
    else if !m.inRun then m else restall now (serveCredit now f m))

/-! ### Collective contributions (R250) -/

/-- May a member keep another contribution: at most 4 CSEQ values per group at once? -/
def collRoom (m : Module) (r group cseq : Nat) : Bool :=
  let cs := ((m.fabric.colls.filter (fun p => p.region == r && p.group == group)).map CollPart.cseq).eraseDups
  cs.contains cseq || decide (cs.length < 4)

def collPartOf (m : Module) (f : Frame) : CollPart :=
  { region := addrRegion f.addr, group := f.group, cseq := f.cseq, cop := f.cop, fmt := f.fmt,
    rank := (rankOf (m.members f.group) f.srcNode f.srcRegion).getD 0, off := addrOff f.addr, data := f.body }

/-- Take the first contribution that waited and now has room. -/
def collDrainOne (now : Nat) (m : Module) : Module :=
  match m.fabric.collWaiting.find? (fun x => let p := collPartOf m x.1; collRoom m p.region p.group p.cseq) with
  | some x => collTake now (collPartOf m x.1) (answerOnce now x.1 0 0 [] (takeFrame x.2 x.1 (m.modFab (fun y => { y with collWaiting := y.collWaiting.erase x }))))
  | none => m

/-- Take the contributions that waited and now have room, one after the other. -/
def collDrain (now : Nat) (m : Module) : Module := forN m.fabric.collWaiting.length m (fun _ m => collDrainOne now m)

/-- Is a contribution one of a member, with an operation and a format that the engine combines (R249)? -/
def collOk (m : Module) (f : Frame) : Bool :=
  (rankOf (m.members f.group) f.srcNode f.srcRegion).isSome && (collMode f.cop == 3 || decide (f.cop % 4 < 3)) && decide (f.fmt ≤ 1)
    && f.len % collElem f.cop f.fmt == 0

def serveColl (now : Nat) (f : Frame) (m : Module) : Module :=
  let r := addrRegion f.addr
  if !collOk m f then answerOnce now f 2 0 [] m
  else if f.aux = 1 then collDrain now (answerOnce now f 0 0 [] (collResult now r f.group f.cseq (addrOff f.addr) f.body m))
  else collDrain now (collTake now (collPartOf m f) (answerOnce now f 0 0 [] m))

/-- Must a contribution wait in the link, its credits held: its group holds 4 CSEQ values already (R250)? -/
def collMustWait (m : Module) (f : Frame) (via : Via) : Bool :=
  let r := addrRegion f.addr
  !badRequest opCOLL f && addrNode f.addr == m.node && !regionRefuses m r false && !regionRetrains m r && !regionHolds m r
    && !(f.retry && !acceptedEarlier m r f via && (dupOf m r f).isSome) && decide ((m.rg r).dups.length < 65536)
    && collOk m f && f.aux != 1 && !collRoom m r f.group f.cseq

/-- COLL (R250): a contribution that must wait stays where it came in. -/
def execColl (f : Frame) (via : Via) (s : State) : Host.Outcome State Fault Refusal :=
  s.does (fun now m =>
    if collMustWait m f via then
      openDup (addrRegion f.addr) f (m.modFab (fun y => { y with collWaiting := if y.collWaiting.contains (f, via) then y.collWaiting else y.collWaiting ++ [(f, via)] }))
    else if m.fabric.collWaiting.contains (f, via) then collDrain now m
    else serveOnce now opCOLL f via (serveColl now f) m)

/-- FABRIC_COLL (R250): contributions of others that its descriptor makes room for go in. -/
def execFabricColl (r id : Nat) (s : State) : Host.Outcome State Fault Refusal :=
  guarded (okR r) (s.does (fun now m =>
    match runnable m r id (isFabric opCOLL) with
    | some x => collDrain now (collRun now r x m)
    | none => m))

/-- DUP_RECORD_EXPIRY (R243): 200 µs after the answer. -/
def execDupRecordExpiry (r k : Nat) (s : State) : Host.Outcome State Fault Refusal :=
  let d := ((s.mod.rg r).dups[k]?).filter (fun d => !d.applying)
  guarded (okR r) (s.doesWhen d.isSome ((d.map DupRec.at_).getD 0 + 200 * us) (fun _ m =>
    m.modR r (fun g => { g with dups := dropNth g.dups k })))

end Sys2Proof.Machine
end

