-- ==== Sys2Proof/Machine/Bridge.lean ====
section
/-! DEFINITION. The bridge: command rings (R265–R269), doorbells (R270, R271), completion doorbells (R274), management
entries (R275), and DESC at its target (R268). -/

namespace Sys2Proof.Machine

/-! ### Rings -/

/-- MODULE_ROLE 1 (R383). -/
def Module.isBridge (m : Module) : Bool := decide (m.num kMODULE_ROLE = 1)

def indexDiff (a b : Nat) : Nat := (a + 2 ^ 20 - b % 2 ^ 20) % 2 ^ 20
def RingSt.waits (x : RingSt) : Bool := decide (x.head ≠ x.tail)

/-- The region-space address of a ring's next entry (R265). -/
def RingSt.entryAt (x : RingSt) : Nat := x.base + (if x.kind = 0 then 64 else 128) * (x.head % 2 ^ x.log2)

/-- Region and offset of a bridge region-space address. -/
def spaceRegion (a : Nat) : Nat := bits a 40 37
def spaceOff (a : Nat) : Nat := bits a 36 0

/-- Forwarding waits for the region that holds the ring (R270). -/
def ringReady (m : Module) (i : Nat) : Bool :=
  let x := m.ring i
  let r := spaceRegion x.base
  m.isBridge && x.enable && !x.halted && x.inFlight.isNone && x.waits && !m.dieInReset 0 && !m.inReset r
    && !regionHolds m r && !regionRetrains m r

/-- A ring's request ends: its record is forgotten. -/
def dropReqs (p : Owner → Bool) (m : Module) : Module :=
  m.modFab (fun x => { x with reqs := x.reqs.filter (fun q => !p q.owner), waiting := x.waiting.filter (fun w => !p w.owner) })

def ownsRing (i : Nat) (o : Owner) : Bool := match o with
  | .ring j => i == j
  | _ => false

/-- Requests that a ring owns, descriptor or management entry. -/
def ofRing (i : Nat) (o : Owner) : Bool := match o with
  | .ring j => i == j
  | .mgmt j => i == j
  | _ => false

/-- The response to a ring's DESC: HEAD moves past its entry; another status than 0x00 halts the ring (R267, R269). -/
def descResponse (i st : Nat) (m : Module) : Module :=
  let x := m.ring i
  match x.inFlight with
  | none => m
  | some idx =>
    let m := dropReqs (ownsRing i) m
    let m := m.modRing i (fun x => { x with inFlight := none, head := (idx + 1) % 2 ^ 20 })
    if st = 0 then m.bump kDESC_FWD 1
    else (m.modRing i (fun x => { x with halted := true, errStatus := st, errIndex := idx })).bump kDESC_REFUSED 1

/-- Forward the entry at HEAD of a descriptor ring (R267). An entry that cannot be read takes the status of the read. -/
def descForward (now i : Nat) (m : Module) : Module :=
  let x := m.ring i
  if !ringReady m i ∨ x.kind ≠ 0 then m
  else
    let a := x.entryAt
    let (m, st, bs) := memRead now (spaceRegion a) 5 (spaceOff a) 64 m
    let m := m.modRing i (fun x => { x with inFlight := some x.head })
    if st ≠ 0 then descResponse i st m
    else
      let (m, st) := issue now 17 (.ring i) 0 (m.mkReq opDESC 0 (m.dieGen 0) (mkAddr x.tnode x.tregion 0) 1 bs) m
      if st = 0 ∨ st = 0x100 then m else descResponse i st m

/-- DESC_FORWARD (R267). -/
def execDescForward (i : Nat) (s : State) : Host.Outcome State Fault Refusal :=
  guarded (okRing i) (s.does (fun now m => descForward now i m))

/-- DESC_RESPONSE (R267, R269). -/
def execDescResponse (i status : Nat) (s : State) : Host.Outcome State Fault Refusal :=
  guarded (okRing i) (s.does (fun _ m => descResponse i status m))

/-- A write of RESUME (R269). -/
def ringResume (i : Nat) (m : Module) : Module := m.modRing i (fun x => { x with halted := false })

/-- RING_RESUME (R269). -/
def execRingResume (i : Nat) (s : State) : Host.Outcome State Fault Refusal :=
  guarded (okRing i) (s.does (fun _ m =>
    if !m.isBridge then m.status 8 else (ringResume i m).status 0))

/-! ### Doorbells -/

/-- A write of a doorbell (R270, R271). Answers its status. -/
def doorbell (i v : Nat) (m : Module) : Module × Nat :=
  let x := m.ring i
  let t := v % 2 ^ 20
  if !m.isBridge then (m, 8)
  else
    let m := m.bump kDB_COUNT 1
    if 2 ^ x.log2 < indexDiff t x.head then (m.bump kDB_BAD 1, 2)
    else (m.modRing i (fun x => { x with tail := t }), 0)

/-- DOORBELL (R270, R271): while die 0 is in reset, a doorbell is not answered. -/
def execDoorbell (i v : Nat) (s : State) : Host.Outcome State Fault Refusal :=
  guarded (okRing i) (s.does (fun _ m =>
    if m.dieInReset 0 then m else let (m, st) := doorbell i v m; m.status st))

/-- Completion doorbell k: set position, region, queue (R274). -/
def doorbellNo (p r q : Nat) : Nat := 1024 * p + 64 * r + q

/-- Forward a value to word 0x10 of the queue that completion doorbell k stands for. -/
def forwardDoorbell (now k v : Nat) (m : Module) : Module :=
  let node := m.node / 8 * 8 + k / 1024
  let off := (0x010 + k / 64 % 16) * 2 ^ 16 + 0x1000 + 0x20 * (k % 64) + 0x10
  let (m, st) := issue now 17 (.doorbell k) 0 (m.mkReq opREGWR 0 (m.dieGen 0) (mkAddr node 0 off) 0 (leBytes 4 v)) m
  if st = 8 then m
  else { m with bridge := { m.bridge with doorbellBusy := k :: m.bridge.doorbellBusy } }

/-- A write of a completion doorbell, whose bits [31:25] are reserved: at most one forward per queue is in flight; the latest value
waits. -/
def completionDoorbell (now k v : Nat) (m : Module) : Module × Nat :=
  if !m.isBridge then (m, 8)
  else
    let v := bits v 24 0
    let m := { m.bump kDB_COUNT 1 with bridge := { m.bridge with doorbells := Tab.set 0 m.bridge.doorbells k v } }
    if m.bridge.doorbellBusy.contains k then
      ({ m with bridge := { m.bridge with doorbellNext := Tab.set 0 m.bridge.doorbellNext k (v + 1) } }, 0)
    else (forwardDoorbell now k v m, 0)

/-- COMPLETION_DOORBELL (R274). -/
def execCompletionDoorbell (p r q v : Nat) (s : State) : Host.Outcome State Fault Refusal :=
  guarded (decide (p < 8) && okR r && okQ q) (s.does (fun now m =>
    if m.dieInReset 0 then m else let (m, st) := completionDoorbell now (doorbellNo p r q) (v % 2 ^ 32) m; m.status st))

/-- A forward has its response, or has failed: the value that waits goes next. -/
def doorbellDone (now k : Nat) (m : Module) : Module :=
  let m := { m with bridge := { m.bridge with doorbellBusy := m.bridge.doorbellBusy.filter (· ≠ k) } }
  match Tab.get 0 m.bridge.doorbellNext k with
  | 0 => m
  | v + 1 => forwardDoorbell now k v { m with bridge := { m.bridge with doorbellNext := Tab.set 0 m.bridge.doorbellNext k 0 } }

/-! ### Management entries (R275) -/

/-- A management entry. -/
structure MgmtEnt where
  op : Nat
  tnode : Nat
  width : Nat
  raddr : Nat
  wdata : Nat
  rcap : Nat
  deriving DecidableEq, Repr

def mgmtOf (b : List Byte) : MgmtEnt :=
  { op := leAt b 0 1, tnode := leAt b 2 2 % 2 ^ 15, width := leAt b 4 4, raddr := leAt b 8 8, wdata := leAt b 16 8, rcap := leAt b 24 4 }

/-- Write bytes 64–127 of the entry at HEAD in one write, DONE among them, and go on to the next. -/
def mgmtDone (now i st rdata : Nat) (m : Module) : Module :=
  let x := m.ring i
  let a := x.entryAt
  let m := (memWrite now (spaceRegion a) 5 (spaceOff a + 64) (leBytes 1 st ++ [1] ++ zeros 6 ++ leBytes 8 rdata ++ zeros 48) m).1
  m.modRing i (fun x => { x with inFlight := none, head := (x.head + 1) % 2 ^ 20 })

/-- Finish an entry with its request's outcome: the value read, or the dictionary response, whatever its status, in the response buffer. -/
def mgmtFinish (now i st : Nat) (e : MgmtEnt) (body : List Byte) (m : Module) : Module :=
  if e.op = opDICT ∧ body ≠ [] then
    let m := (memWrite now (spaceRegion e.wdata) 5 (spaceOff e.wdata) (body.take e.rcap) m).1
    mgmtDone now i (if e.rcap < body.length then 2 else st) body.length m
  else mgmtDone now i st (if e.op = opREGRD ∧ st = 0 then leNat body else 0) m

/-- The entry in flight of a management ring. -/
def mgmtEntry (m : Module) (i : Nat) : MgmtEnt :=
  let a := (m.ring i).entryAt
  mgmtOf (m.peekB (spaceRegion a) (spaceOff a) 64)

def mgmtResponse (now i st : Nat) (body : List Byte) (m : Module) : Module :=
  if (m.ring i).inFlight.isNone then m else mgmtFinish now i st (mgmtEntry m i) body m

/-! ### DESC (R268) -/

/-- DESC (R268): with HOLDFULL the request waits for a place, where a place is all that it lacks. -/
def execDesc (f : Frame) (via : Via) (s : State) : Host.Outcome State Fault Refusal :=
  s.does (fun now m =>
    let r := addrRegion f.addr
    let m := takeFrame via f m
    if badRequest opDESC f then m.bump kBAD_FRAME 1
    else if addrNode f.addr ≠ m.node then m.bump kMISROUTED 1
    else if m.inReset r then respond now f 8 0 [] m
    else if regionHolds m r then holdFrame now r f via m
    else
      let m := (unholdFrame r f via m).modR r (fun g => { g with lastServed := now })
      let d := Desc.ofBytes f.body
      if f.aux % 2 = 1 ∧ submitStatus m r d = 7 then
        m.modR r (fun g => { g with heldDesc := if g.heldDesc.any (fun x => x.1 == f) then g.heldDesc else g.heldDesc ++ [(f, now)] })
      else
        let m := restall now (submit now r d m)
        respond now f m.lastStatus 0 [] m)

/-- DESC_HOLD_TIMEOUT (R268): 5 ms after the oldest held request arrived, it is refused. -/
def execDescHoldTimeout (r : Nat) (s : State) : Host.Outcome State Fault Refusal :=
  let x := (s.mod.rg r).heldDesc.head?
  guarded (okR r) (s.doesWhen x.isSome ((x.map (·.2)).getD 0 + 5 * ms) (fun now m =>
    match (m.rg r).heldDesc with
    | [] => m
    | x :: rest =>
      let m := submit now r (Desc.ofBytes x.1.body) (m.modR r (fun g => { g with heldDesc := rest }))
      respond now x.1 m.lastStatus 0 [] (m.bump kDESC_HELD_NS (now - x.2))))

end Sys2Proof.Machine
end

