-- ==== Sys2Proof/Machine/Train.lean ====
section
/-! DEFINITION. Gradients (R163), leases (R179, R180), the norm fence (R164, R165), the close of a step (R70, R181), the cut
(R346, R362), and delta formation at a round boundary (R207). -/

namespace Sys2Proof.Machine

/-! ### Gradients (R163) -/

/-- Add one contribution to a block. Answers its status. Its elements are read as R53 has it, the first contribution's too; a NaN among
them becomes the canonical one and raises INVALID (R26; DEDUCED, log entry 154). -/
def addGradient (now r : Nat) (e : Extent) (b fmt step : Nat) (bs : List Byte) (m : Module) : Module × Nat :=
  let n := m.normRec r
  if step ≠ n.step % 2 ^ 32 then (m.bump kGRAD_STALE 1, 2)
  else
    match readPart now r 3 e b pHDR m with
    | (m, none) => (m, 1)
    | (m, some hb) =>
      let h := hdrOf hb
      if e.expect = 0 ∨ (h.astep = step ∧ h.arrived = e.expect) then (m.bump kGRAD_EXTRA 1, 2)
      else
        let (m, staged) := if e.form = 2 then firstGradient now r e.base m else (m, true)
        if !staged then (m, 9)
        else
          let a := accAddr m r e b
          let x := if fmt = 1 then fvs16 bs else fvs32 bs
          let first := h.astep ≠ step
          let (m, st, old) : Module × Nat × List Byte := if first then (m, 0, []) else memRead now r 3 a 1024 m
          if st ≠ 0 then (m, 1)
          else
            let sum := (List.range 256).map (fun i => fAdd ((fvs32 old).getD i fvZero) (x.getD i fvZero))
            let acc := bytes32 (if first then x else sum.map Prod.fst)
            let fl := if first then (if x.any FV.isNan then fINVALID else 0) else sum.foldl (fun f y => f ||| y.2) 0
            let (m, st) := memWrite now r 3 a acc (raiseLanes r fl m)
            let arrived := if first then 1 else h.arrived + 1
            let m := setHdr now r e b { h with astep := step, arrived := arrived } m
            if arrived ≠ e.expect then (m, st)
            else
              let q := blockSumSq (fvs32 acc)
              let m := (raiseLanes r q.2 m).modTrain r (fun t => { t with partialSum := add64 t.partialSum (toF32 q.1), complete := t.complete + 1 })
              (passNorm r m, st)

/-- The blocks of an ACCUM frame in turn: the status of the first refused block, and its index (R234). -/
def serveAccum (now : Nat) (f : Frame) (m : Module) : Module :=
  let r := addrRegion f.addr
  let u := accBytes f.fmt
  match blockOfHdr m r (addrOff f.addr) with
  | none => answerOnce now f 2 0 [] m
  | some (e, b) =>
    let (m, st, idx) := (List.range (f.len / u)).foldl (fun (a : Module × Nat × Nat) i =>
      let (m, st) := if b + i < e.blocks then addGradient now r e (b + i) f.fmt f.aux (sliceB f.body (u * i) u) a.1 else (a.1, 2)
      (m, if a.2.1 = 0 ∧ st ≠ 0 then (st, i) else a.2)) (m, 0, 0)
    answerOnce now f st idx [] m

/-- ACCUM (R163). -/
def execAccum (f : Frame) (via : Via) (s : State) : Host.Outcome State Fault Refusal :=
  s.does (fun now m => serveOnce now opACCUM f via (fun m =>
    if 1 < f.fmt then answerOnce now f 2 0 [] m else serveAccum now f m) m)

/-! ### Leases (R179) -/

/-- A working copy as a response carries it (R235). None where it cannot be read. -/
def wcOf (now r : Nat) (e : Extent) (a : Nat) (stored : Bool) (m : Module) : Module × Option (List Byte) :=
  if stored then
    if e.form = 2 ∧ a % 256 ≠ 0 then
      match memRead now r 5 a 512 m with
      | (m, st, bs) => (m, if st = 0 then some (zeros 8 ++ bs) else none)
    else
      match readStored now r 5 (a / 256) m with
      | (m, none) => (m, none)
      | (m, some (c0, s0)) => match readStored now r 5 (a / 256 + 1) m with
        | (m, none) => (m, none)
        | (m, some (c1, s1)) => (m, some (leBytes 8 (c0 + 16 * c1) ++ s0 ++ s1))
  else match memRead now r 5 a 512 m with
    | (m, st, bs) => (m, if st = 0 then some bs else none)

/-- A block that is not served: version word 0, a code word of 0x88 or 512 bytes without meaning (R235, log entry 23). -/
def unserved (stored : Bool) (m : Module) : Module × List Byte :=
  if stored then (m, leBytes 8 0x88) else (m.useFree, (List.range 512).map (fun i => Config.freeByte m.free i))

/-- What the blocks of a GATHER or REFETCH give: versions, copies, status, AUX. -/
structure Copies where
  vers : List Nat := []
  data : List Byte := []
  st : Nat := 0
  aux : Nat := 0
  missed : List Nat := []

/-- One block of a GATHER: a lease, unless the block cannot be read. -/
def gatherOne (now r : Nat) (e : Extent) (b i : Nat) (stored : Bool) (a : Module × Copies) : Module × Copies :=
  let (m, c) := a
  let miss := fun (m : Module) =>
    let (m, u) := unserved stored m
    (m, { c with vers := c.vers ++ [0], data := c.data ++ u, st := 1, aux := if c.st = 1 then c.aux else i, missed := c.missed ++ [i] })
  match readPart now r 5 e b pHDR m with
  | (m, none) => miss m
  | (m, some hb) =>
    let h := hdrOf hb
    match wcOf now r e (partAddr m r e b pWC) stored m with
    | (m, none) => miss m
    | (m, some w) => (setHdr now r e b { h with relcount := h.relcount + 1 } m, { c with vers := c.vers ++ [h.version], data := c.data ++ w })

/-- One block of a REFETCH that names a version. -/
def refetchOne (now r : Nat) (e : Extent) (b i ver : Nat) (stored : Bool) (a : Module × Copies) : Module × Copies :=
  let (m, c) := a
  let miss := fun (m : Module) =>
    let (m, u) := unserved stored m
    (m, { c with vers := c.vers ++ [0], data := c.data ++ u, st := 1, aux := if c.st = 1 then c.aux else i, missed := c.missed ++ [i] })
  match readPart now r 5 e b pHDR m with
  | (m, none) => miss m
  | (m, some hb) =>
    let h := hdrOf hb
    let old := h.retained ∧ ver = (h.version + 2 ^ 32 - 1) % 2 ^ 32
    if ver = h.version ∨ old then
      let place := if ver = h.version then partAddr m r e b pWC else m.num (kRETAIN_BASE + r) + 512 * h.retain
      match wcOf now r e place stored m with
      | (m, none) => miss m
      | (m, some w) => (m, { c with vers := c.vers ++ [ver], data := c.data ++ w })
    else
      let (m, u) := unserved stored m
      let m := post now 5 1 (srcRegion r) (leBytes 4 ver ++ leBytes 4 h.version ++ leBytes 4 (posOf m r e b)) (m.bump kVERSION_MISMATCH 1)
      (m, { c with vers := c.vers ++ [0], data := c.data ++ u, st := if c.st = 0 then 5 else c.st, aux := if c.st = 0 then h.version else c.aux, missed := c.missed ++ [i] })

/-- The body of a GATHER or REFETCH response. -/
def Copies.body (c : Copies) : List Byte :=
  let v := c.vers.flatMap (leBytes 4)
  v ++ zeros (ceilDiv c.vers.length 2 * 8 - v.length) ++ c.data

/-- Which blocks of a frame of this module were not served: the module knows them of its own answers (log entry 23). -/
def noteUnserved (f : Frame) (c : Copies) (m : Module) : Module :=
  if f.srcNode ≠ m.node then m
  else
    let rest := m.fabric.unserved.filter (fun u => (u.1, u.2.1) ≠ (f.tag, f.srcRegion))
    { m with fabric := { m.fabric with unserved := if c.missed = [] then rest else rest ++ [(f.tag, f.srcRegion, c.missed)] } }

/-- The blocks that a frame names from the working copy at ADDR. -/
def framedBlocks (m : Module) (f : Frame) : Option (Extent × Nat) :=
  match blockOfWc m (addrRegion f.addr) (addrOff f.addr) with
  | none => none
  | some (e, b) => if 1 ≤ f.aux ∧ f.aux ≤ 7 ∧ b + f.aux ≤ e.blocks then some (e, b) else none

def serveGather (now : Nat) (f : Frame) (via : Via) (m : Module) : Module :=
  let r := addrRegion f.addr
  match framedBlocks m f with
  | none => answerOnce now f 2 0 [] m
  | some (e, b) =>
    if (List.range f.aux).any (fun i => (m.hdr r e (b + i)).relcount == 65535) then holdFrame now r f via m
    else
      let (m, c) := (List.range f.aux).foldl (fun a i => gatherOne now r e (b + i) i f.stored a) (m, {})
      answerOnce now f c.st c.aux c.body (noteUnserved f c m)

/-- GATHER (R179). -/
def execGather (f : Frame) (via : Via) (s : State) : Host.Outcome State Fault Refusal :=
  s.does (fun now m => serveOnce now opGATHER f via (serveGather now f via) m)

def serveRefetch (now : Nat) (f : Frame) (m : Module) : Module :=
  let r := addrRegion f.addr
  match framedBlocks m f with
  | none => respond now f 2 0 [] m
  | some (e, b) =>
    let (m, c) := (List.range f.aux).foldl (fun a i => refetchOne now r e (b + i) i (leAt f.body (4 * i) 4) f.stored a) (m, {})
    respond now f c.st c.aux c.body (noteUnserved f c m)

/-- REFETCH (R179). -/
def execRefetch (f : Frame) (via : Via) (s : State) : Host.Outcome State Fault Refusal :=
  s.does (fun now m => serve now opREFETCH f via false (serveRefetch now f) m)

/-- One block of a RELEASE. -/
def releaseOne (now r : Nat) (e : Extent) (b ver : Nat) (a : Module × Nat) : Module × Nat :=
  match readPart now r 5 e b pHDR a.1 with
  | (m, none) => (m, 1)
  | (m, some hb) =>
    let h := hdrOf hb
    if ver = h.version ∧ 0 < h.relcount then (setHdr now r e b { h with relcount := h.relcount - 1 } m, a.2)
    else if h.retained ∧ ver = (h.version + 2 ^ 32 - 1) % 2 ^ 32 then
      if h.retrel ≤ 1 then
        (setHdr now r e b { h with retrel := 0, retained := false } (m.modTrain r (fun t => { t with retainUsed := t.retainUsed.filter (· ≠ h.retain) })), a.2)
      else (setHdr now r e b { h with retrel := h.retrel - 1 } m, a.2)
    else (m.bump kRELEASE_STALE 1, a.2)

def serveRelease (now : Nat) (f : Frame) (m : Module) : Module :=
  let r := addrRegion f.addr
  match framedBlocks m f with
  | none => answerOnce now f 2 0 [] m
  | some (e, b) =>
    let (m, st) := (List.range f.aux).foldl (fun a i => releaseOne now r e (b + i) (leAt f.body (4 * i) 4) a) (m, 0)
    answerOnce now f st 0 [] m

/-- RELEASE (R179). -/
def execRelease (f : Frame) (via : Via) (s : State) : Host.Outcome State Fault Refusal :=
  s.does (fun now m => serveOnce now opRELEASE f via (serveRelease now f) m)

/-! ### The norm fence (R165) -/

/-- The sum of the 16 regions' values by the binary tree over region numbers. -/
def normSum (m : Module) : FR := (treeOver frAdd 4 ((List.range 16).map (fun r => ((f32 (Tab.get 0 m.norm r), 0) : FR)))).getD (fvZero, 0)

/-- NORM_MODULE_SUM (R165): once all 16 regions have passed their values. -/
def execNormModuleSum (s : State) : Host.Outcome State Fault Refusal :=
  s.does (fun now m =>
    if (List.range 16).all (fun r => (Tab.find? m.norm r).isSome) then
      let v := normSum m
      let g := m.num kNORM_GROUP
      let m := { m with norm := m.norm.filter (fun p => decide (16 ≤ p.1)) }
      match m.members g with
      | [] => m
      | to_ :: _ => issueOnly now 0 .none noCtx (collFrame m 0 to_ g ((m.normRec 0).step % 2 ^ 24) 0 0 0 0 (leBytes 4 (toF32 v.1))) m
    else m)

/-- A region's results of the norm fence. -/
def fenceNorm (now r sum : Nat) (m : Module) : Module :=
  if !(m.rg r).train.passed then m
  else
    let n := m.normRec r
    let s := f32 sum
    let norm := (fSqrt s).1
    let clip := if (f32 n.clipmax).isZero then fvOne else (fMin fvOne (fDiv (f32 n.clipmax) norm).1).1
    let a := m.num (kNORM_BASE + r)
    let old := m.peek r (a + 28) 4
    let m := poke now r (a + 16) (leBytes 4 sum ++ leBytes 4 (toF32 norm) ++ leBytes 4 (toF32 clip)
      ++ leBytes 4 (old / 256 * 256 + (if s.isFinite then 1 else 2))) m
    restall now <| incCounter now r (m.num (kNORM_SIG + r)) 1 (m.modTrain r (fun t => { t with passed := false, complete := 0, partialSum := 0 }))

/-- NORM_FENCE (R165): the sum that came back by the collective engine, else the one given. -/
def execNormFence (sum : W32) (s : State) : Host.Outcome State Fault Refusal :=
  s.does (fun now m =>
    let v := (Tab.find? m.norm 32).getD sum.toNat
    forN 16 { m with norm := Tab.del m.norm 32 } (fun r m => fenceNorm now r v m))

/-! ### The cut (R346, R361, R362) -/

/-- Does the close of step k name a cut? -/
def cutNamed (m : Module) (k : Nat) : Bool :=
  m.snapNum kSNAP_POLICY != 0 && ((m.num kCUT_AT == k && k != 0) || (m.snapNum kSNAP_POLICY == 3 && m.snapNum kSNAP_EVERY != 0 && k % m.snapNum kSNAP_EVERY == 0))

/-- The first region to close a step that is to be cut begins the module's cut, or skips it for every region while another drains. -/
def beginCut (now r k : Nat) (m : Module) : Module :=
  if !cutNamed m k ∨ (m.num kCUT_STEP = k ∧ m.cuts.toTake.contains r) then m
  else if m.cuts.lastSkip = k ∧ m.cuts.toSkip.contains r then m.modCuts (fun c => { c with toSkip := c.toSkip.filter (· ≠ r) })
  else if m.num kCUT_STATE = 1 ∨ m.num kCUT_STATE = 2 then
    post now 6 3 srcDrone (leBytes 8 k) (((if m.num kCUT_AT = k then m.setNum kCUT_AT 0 else m).bump kCUTS_SKIPPED 1).modCuts (fun c =>
      { c with lastSkip := k, toSkip := m.owners.filter (· ≠ r) }))
  else
    let rs := m.owners
    let m := ((m.setNum kCUT_STEP k).setNum kCUT_STATE 1).setNum kDRAIN_LEFT 0
    let m := if m.num kCUT_AT = k then m.setNum kCUT_AT 0 else m
    (m.bump kCUTS 1).modCuts (fun c => { c with toTake := rs, lastCut := k, layout := layoutDigest m, round := m.num kROUND, node := m.node })

/-- A region's share of the cut: CUT_EPOCH, every entry free, its shards to drain. -/
def takeCut (now r k : Nat) (m : Module) : Module :=
  if m.num kCUT_STEP ≠ k ∨ !m.cuts.toTake.contains r then m
  else
    let es := m.extents r
    let shards := es.flatMap (fun e => (List.range (ceilDiv e.blocks 4096)).map (fun j => (e.idx, 4096 * j)))
    let m := m.modCuts (fun c => { c with toTake := c.toTake.filter (· ≠ r) })
    let m := m.setNum (kCUT_EPOCH + r) (if m.num (kCUT_EPOCH + r) = 255 then 1 else m.num (kCUT_EPOCH + r) + 1)
    let m := m.bump kDRAIN_LEFT ((es.map Extent.blocks).sum)
    -- an extent that is not DIRTY is recorded under its present KEY, a DIRTY one is written back first (R356)
    forL (es.filter (fun e => e.form = 2)) (m.modCut r (fun _ => if m.num kCUT_STATE = 4 then { failed := true } else { shards := shards })) (fun e m =>
      let t := m.tierEnt r e.base
      if t.state = 3 ∨ t.state = 4 then startWriteBack now r e.base m
      else if (Tab.find? (m.rg r).tier.fixes e.base).isSome then m
      else m.modCut r (fun c => { c with keys := Tab.put c.keys e.base t.key }))

/-! ### Delta formation (R207) -/

/-- Visit one owned block at the boundary of round n. -/
def formBlock (now r n : Nat) (e : Extent) (b : Nat) (m : Module) : Module :=
  let h := m.hdr r e b
  let x := (m.rg r).xch
  let away := match m.homeSite (m.gidx r e b) with
    | some s => decide (2 ≤ peerState m s)
    | none => false
  let hold := fun (m : Module) => if away then m.modXch r (fun x => { x with heldPos := posOf m r e b :: x.heldPos.filter (· ≠ posOf m r e b) }) else m
  if h.isOpen ∨ m.num kCHANTER_FSTATE ≠ 0 then hold (m.bump kBLOCKS_HELD 1)
  else if !deltaRoom m r (payloadLen x.codec x.k) then hold (m.bump kXBUF_FULL 1)
  else
    let origin := if h.deltaRnd = 0 then h.adoptRnd else h.deltaRnd
    let id := (m.rg r).train.nextCommit
    reserveNumbers r id (runCommit now r id (queueCommit now r { ext := e.idx, blk := b, kind := 4, round := n, origin := origin } m))

/-- The die's helper is seeded when the first of its regions comes to the boundary of round n (R115; DESIGN CHOICE, log entry 147). -/
def seedHelper (r n : Nat) (m : Module) : Module :=
  if n ≤ Tab.get 0 m.chanter.genRound (r / 4) then m
  else (setHelperGen r (seedOf (m.num kDELTA_SEED % 2 ^ 24 ^^^ n % 2 ^ 24)) m).modCh (fun c => { c with genRound := Tab.put c.genRound (r / 4) n })

/-- The boundary of round n in a region: the codec settings take effect, the generator is seeded, deltas form block by block (R115, R119,
R207). A round that a rollback has already passed forms none (R366), nor does policy 0 (R199). -/
def boundary (now r n : Nat) (m : Module) : Module :=
  let old := (m.rg r).xch.boundary
  let m := seedHelper r n (m.modXch r (fun x => { x with codec := m.num kDELTA_CODEC, k := m.num kDELTA_K,
                                                         entropy := m.num kDELTA_ENTROPY == 1, stoch := m.num kDELTA_ORND == 1 }))
  let pass := fun (m : Module) => m.modXch r (fun x => { x with boundary := max x.boundary n })
  if n ≤ old ∨ m.num (kXCH_CFG + r) = 0 ∨ m.num kEXCH_POLICY = 0 then pass m
  else
    let m := (formLate now r m).modXch r (fun x => { x with forming := some n })
    formEnd now r (runAll now r (pass (forL (m.blocksOf r) m (fun x m => formBlock now r n x.1 x.2 m))))

/-! ### Merging (R216, R217) -/

/-- Other sites whose fresh deltas of the round have reached every home block. -/
def quorumNow (m : Module) : Nat :=
  let total := m.homeBlocks.length
  ((List.range 64).filter (fun s => s ≠ m.num kSITE_ID ∧ (Tab.get [] m.chanter.fresh s).length = total)).length

/-- Merge round n: an outer commit of every home block, in shard-table order. A result applies to the ADOPT_RND that the result of the
merge before it gave (R209). -/
def mergeRound (now n : Nat) (m : Module) : Module :=
  if m.homeBlocks = [] then m.modCh (fun c => { c with deadline := none, holdUntil := none, due := false })
  else
    let m := m.modCh (fun c => { c with merging := some n, deadline := none, holdUntil := none, due := false })
    let m := forL m.homeBlocks m (fun x m =>
      let id := (m.rg x.1).train.nextCommit
      reserveNumbers x.1 id (runCommit now x.1 id
        (queueCommit now x.1 { ext := x.2.1.idx, blk := x.2.2, kind := 3, round := n, origin := (m.hdr x.1 x.2.1 x.2.2).outerRnd } m)))
    mergeEnd now (forL m.owners m (fun r m => runAll now r m))

/-- The round that the homes have open: after HOME_RND, once its boundary has passed. -/
def openRound (m : Module) : Option Nat :=
  if m.chanter.merging.isNone ∧ m.num kHOME_RND < m.num kROUND then some (m.num kROUND) else none

/-- Under policy 1: have fresh deltas of every site reached every home block? -/
def allArrived (m : Module) : Bool :=
  let total := m.homeBlocks.length
  m.sites.all (fun s => (Tab.get [] m.chanter.fresh s).length == total)

/-- Merge at once where policy 1 or a deadline that has passed lets it. -/
def mergeIfReady (now : Nat) (m : Module) : Module :=
  match openRound m with
  | none => m
  | some n =>
    if m.num kCHANTER_FSTATE ≠ 0 ∨ m.num kEXCH_POLICY = 0 then m
    else if m.num kEXCH_POLICY = 1 then (if allArrived m then mergeRound now n m else m)
    else if m.chanter.due ∧ m.roundNum kQUORUM ≤ quorumNow m then mergeRound now n m else m

/-- The module passes the boundary of round n: a round whose deadline has begun is merged at once, parameters that a commit changed act from here (R382), and
the deadline of n begins. -/
def passBoundary (now n : Nat) (m : Module) : Module :=
  if n ≤ m.num kROUND then m
  else
    let m := match openRound m with
      | some k => if m.num kEXCH_POLICY ≤ 1 ∨ m.num kCHANTER_FSTATE ≠ 0 ∨ (!m.chanter.due ∧ m.chanter.deadline.isNone) then m else mergeRound now k m
      | none => m
    -- what was received of a stream is kept until S_MAX + 1 rounds after its ROUND (R211)
    let m := (m.setNum kROUND n).modCh (fun c => { c with params := [], recvs := c.recvs.filter (fun y => decide (n ≤ y.2.round + m.roundNum kS_MAX + 1)) })
    if m.num kEXCH_POLICY ≤ 1 then m
    else m.modCh (fun c => { c with deadline := some (deadlineOf m now n), holdUntil := none, due := false })

/-! ### Step close (R70, R181) -/

/-- The update-to-weight table. -/
def uwrTable (t : Train) (k : Nat) : List Byte :=
  leBytes 8 k ++ leBytes 4 t.unmapped ++ zeros 20 ++ (List.range 1024).flatMap (fun l => let v := Tab.get (0, 0) t.uwr l; leBytes 8 v.1 ++ leBytes 8 v.2)

/-- The step that region r may close now: its CLOSE descriptor has completed, every earlier update descriptor of the step
too, and no lease is open. -/
def closable (m : Module) (r : Nat) : Option (Nat × Nat) :=
  (m.rg r).train.closing.find? (fun c =>
    !((m.work r).flights.any (fun x => x.d.cls == 5 && (updOf x.d).step == c.1 && decide (x.id < c.2) && !x.done))
      && !((m.work r).flights.any (fun x => x.id == c.2 && !x.done))
      && (m.blocksOf r).all (fun y => let h := m.hdr r y.1 y.2; h.relcount == 0 && h.retrel == 0))

/-- The close of step k in region r. The snapshot policy that a commit changed acts from here (R382). -/
def closeStep (now r k id : Nat) (m : Module) : Module :=
  let m := m.modTrain r (fun t => { t with closing := t.closing.filter (fun c => c ≠ (k, id)) })
  let m := m.modCuts (fun c => { c with params := [] })
  let base := m.num (kUWR_BASE + r)
  let m := if base = 0 then m else poke now r base (uwrTable (m.rg r).train k) m
  let m := m.modTrain r (fun t => { t with uwr := [], unmapped := 0, compWorking := m.num kCOMP_WORKING == 1 })
  let m := takeCut now r k (beginCut now r k (m.setNum (kSTEP_CLOSED + r) k))
  let m := restall now (incCounter now r (m.num (kCLOSE_SIG + r)) 1 m)
  let rs := m.num kROUND_STEPS
  if rs = 0 ∨ k % rs ≠ 0 ∨ k = 0 then m
  else
    let n := k / rs
    let others := m.owners.filter (fun q => q ≠ r)
    let m := if others.all (fun q => decide (n ≤ (m.rg q).xch.boundary)) then passBoundary now n m else m
    boundary now r n m

/-- STEP_CLOSE (R181). -/
def execStepClose (r : Nat) (s : State) : Host.Outcome State Fault Refusal :=
  guarded (okR r) (s.does (fun now m =>
    match closable m r with
    | some (k, id) => closeStep now r k id m
    | none => m))

end Sys2Proof.Machine
end

