-- ==== Sys2Proof/Machine/Chanter.lean ====
section
/-! DEFINITION. Chanter: segments and sections (R120–R124, R255), messages (R209, R210), sending and loss recovery
(R211–R214), merging (R215–R217), adoption (R219–R221), time alignment (R223, R224), rejoin and join (R226, R227). -/

namespace Sys2Proof.Machine

/-! ### Segments -/

/-- The index of an arrival path: edge interface 0–3, 4 for the site ports and the mesh. -/
def pathOf (via : Via) : Nat := match via with
  | .edge e => e
  | _ => 4

/-- Bytes that an interface's smoothing queue holds (R124). -/
def smoothBytes (x : EdgeSt) : Nat :=
  ((x.reasm.map (fun a => (a.parts.map (fun p => p.2.length)).sum)).sum) + ((x.smooth.map (fun p => p.2.length)).sum)

/-- A decoded message, ready for its own command. -/
def putReady (e node : Nat) (x : ChMsg) (m : Module) : Module := m.modEdge e (fun y => { y with ready := y.ready ++ [(node, x)] })

/-- Does a message break R210 before its blocks are looked at: its TYPE, or its LEN, or a body where the header is the whole? -/
def badMsg (bs : List Byte) : Bool :=
  let x := chOfBytes bs
  decide (bs.length < 40) || x.type == 0 || decide (7 < x.type) || x.len != x.body.length || (decide (4 ≤ x.type) && x.body != [])

/-- Decode a message whose segments are all there: a coded section passes the decoder (R121). -/
def decodeMsg (e node : Nat) (bs : List Byte) (m : Module) : Module :=
  let x := chOfBytes bs
  if badMsg bs then m.bump kFRAGS_BAD 1
  else if x.flags.testBit 1 ∧ x.type ≤ 3 then
    match sectionDecode x.body with
    | none => (if e < 4 then m.bump (kCODED_FAIL + e) 1 else m).bump kFRAGS_BAD 1
    | some raw => putReady e node { x with body := raw } m
  else putReady e node x m

/-- Is a segment of this message? -/
def Reasm.isOf (a : Reasm) (node msg : Nat) : Bool := a.node == node && a.msg == msg

def Module.putReasm (m : Module) (e : Nat) (a : Reasm) : Module :=
  m.modEdge e (fun y => { y with reasm := y.reasm.filter (fun b => !b.isOf a.node a.msg) ++ [a] })
def Module.delReasm (m : Module) (e node msg : Nat) : Module :=
  m.modEdge e (fun y => { y with reasm := y.reasm.filter (fun b => !b.isOf node msg) })

/-- What is left of a message that is dropped: the numbers of its segments, so that the rest is dropped with it. -/
def Reasm.drop (a : Reasm) (first : Nat) : Reasm := { a with first := first, parts := a.parts.map (fun p => (p.1, [])), dead := true }

/-- Add a segment to its message; a complete message waits for the decoder, or is decoded at once off the edge. A message that is
dropped is dropped whole (R255). -/
def addSegment (now e : Nat) (f : Frame) (m : Module) : Module :=
  let x := m.edge e
  let old := (x.reasm.find? (fun a => a.isOf f.srcNode f.tag)).getD { node := f.srcNode, msg := f.tag, first := now, segs := f.segs, parts := [] }
  let full : Bool := decide (e < 4) && decide (4194304 < smoothBytes x + f.body.length)
  let new := { old with parts := old.parts ++ [(f.seg, f.body)] }
  let whole := decide (f.segs ≤ new.parts.length)
  if old.parts.any (fun p => p.1 == f.seg) then m
  else if old.dead then (if whole then m.delReasm e f.srcNode f.tag else m.putReasm e (new.drop old.first))
  else if full then
    let m := (m.bump (kSMOOTH_DROP + e) 1).bump kREASM_DROP 1
    if whole then m.delReasm e f.srcNode f.tag else m.putReasm e (new.drop old.first)
  else
    let m := m.putReasm e new
    let m := if e < 4 then m.setNum (kSMOOTH_HWM + e) (max (m.num (kSMOOTH_HWM + e)) (smoothBytes (m.edge e))) else m
    if !whole then m
    else
      let bs := (List.range f.segs).flatMap (fun i => ((new.parts.find? (fun p => p.1 == i)).map (·.2)).getD [])
      let m := m.delReasm e f.srcNode f.tag
      if e < 4 then m.modEdge e (fun y => { y with smooth := y.smooth ++ [(f.srcNode, bs)] }) else decodeMsg e f.srcNode bs m

/-- CHANTER (R124, R255). -/
def execChanter (f : Frame) (via : Via) (s : State) : Host.Outcome State Fault Refusal :=
  s.does (fun now m =>
    let m := takeFrame via f m
    if badRequest opCHANTER f ∨ f.segs = 0 ∨ 4095 < f.segs ∨ f.segs ≤ f.seg then m.bump kBAD_FRAME 1
    else if addrNode f.addr ≠ m.node then m.bump kMISROUTED 1
    else if !m.inRun ∨ m.dieInReset 0 then m else addSegment now (pathOf via) f m)

/-- A message is dropped for its time; what is left of a dropped one is forgotten. -/
def reasmLate (now e : Nat) (a : Reasm) (m : Module) : Module :=
  if a.dead then m.delReasm e a.node a.msg else (m.putReasm e (a.drop now)).bump kREASM_DROP 1

/-- REASM_TIMEOUT (R255): REASM_MS after the first segment. -/
def execReasmTimeout (e node msg : Nat) (s : State) : Host.Outcome State Fault Refusal :=
  let a := (s.mod.edge e).reasm.find? (fun a => a.isOf node msg)
  guarded (decide (e < 5)) (s.doesWhen a.isSome ((a.map Reasm.first).getD 0 + s.mod.num kREASM_MS * ms) (fun now m =>
    match (m.edge e).reasm.find? (fun a => a.isOf node msg) with
    | some a => reasmLate now e a m
    | none => m))

/-- SECTION_DECODE (R121, R124): messages leave the smoothing queue in the order of their arrival. -/
def execSectionDecode (e : Nat) (s : State) : Host.Outcome State Fault Refusal :=
  guarded (okE e) (s.does (fun _ m =>
    match (m.edge e).smooth with
    | [] => m
    | (node, bs) :: rest => decodeMsg e node bs (m.modEdge e (fun y => { y with smooth := rest }))))

/-! ### Receiving a message -/

/-- A node is up again: its unacknowledged fragments are due, without their RTO (R213). -/
def nodeUp (now node : Nat) (m : Module) : Module :=
  match Tab.find? m.chanter.held node with
  | none => m
  | some t =>
    (m.bump kHELD_NS (now - t)).modCh (fun c => Chanter.resend node { c with held := Tab.del c.held node })

def unready (src : Nat) (x : ChMsg) (m : Module) : Module :=
  forN 5 m (fun e m => if (m.edge e).ready.contains (src, x) then m.modEdge e (fun y => { y with ready := y.ready.erase (src, x) }) else m)

/-- A message of one type, with no body where its header is the whole of it (R210): dropped while Chanter is disabled, and outside RUN (R375, R396). -/
def onMessage (now type src : Nat) (x : ChMsg) (k : Module → Module) (m : Module) : Module :=
  let m := unready src x m
  if m.num kCHANTER_FSTATE ≠ 0 then m.bump kCHANTER_DROPPED 1
  else if !m.inRun then m
  else if x.type ≠ type ∨ (4 ≤ type ∧ (x.len ≠ 0 ∨ x.body ≠ [])) then m.bump kFRAGS_BAD 1
  else k (nodeUp now src (hear now src type x.outer m))

/-- The global indices of a message's run. -/
def runOf (x : ChMsg) : List Nat := (List.range x.count).map (fun i => bits x.w2 63 24 + i * x.gstride)

/-- The checks of R210 on a data message, and the blocks that it names. -/
def msgBlocks (m : Module) (x : ChMsg) : Option (List (Nat × Extent × Nat)) :=
  let okCodec := if x.type = 3 then x.codec == 0xF else decide (x.codec ≤ 2) && (x.codec != 2 || [8, 16, 32, 64].contains x.k)
  if !okCodec ∨ x.count = 0 ∨ x.gstride = 0 ∨ x.body.length ≠ x.count * msgUnit x.codec x.k ∨ (!x.flags.testBit 1 ∧ x.len ≠ x.body.length) then none
  else
    let bs := (runOf x).map (fun g => (blockOfG m x.dstRegion g).map (fun b => (g, b.1, b.2)))
    if bs.any (fun b => match b with
      | none => true
      | some b => x.type == 1 && b.2.1.form != 1) then none
    else some (bs.filterMap id)

/-- Is some adoption of this fragment still to commit? -/
def inHand (m : Module) (key : Nat × Nat) : Bool :=
  (List.range 16).any (fun r => (m.rg r).train.commits.any (fun c => c.ack == some key))

/-- A fragment of a data stream: a copy of a handled fragment is acknowledged and dropped, one in hand is dropped (R211). What was
received is kept by sender, TYPE, ROUND and region, whichever number the stream travels under. -/
def onFragment (now src : Nat) (x : ChMsg) (k : List (Nat × Extent × Nat) → Module → Module) (m : Module) : Module :=
  match msgBlocks m x with
  | none => m.bump kFRAGS_BAD 1
  | some bs =>
    let key := msgKey src x
    let m := m.modRecv key (fun y => { y with node := src, stream := x.stream, type := x.type, round := x.round, region := x.dstRegion })
    if (m.recv key).handled x.seq then
      (m.bump kFRAGS_DUP 1).modRecv key (fun y => { y with fresh := max 1 y.fresh, since := if y.fresh = 0 then now else y.since })
    else if inHand m (key, x.seq) then m
    else k bs m

/-- The payload of block i of a message. -/
def payloadAt (x : ChMsg) (i : Nat) : List Byte := sliceB x.body (i * msgUnit x.codec x.k) (msgUnit x.codec x.k)

/-! ### DELTA (R215) -/

/-- The weight of a delta of staleness s from a site. -/
def deltaWeight (m : Module) (site st : Nat) : FV :=
  let total := ((List.range 64).map (fun j => m.num (kSITE_WT + j))).sum
  (fDiv (exactMul (.num false (m.num (kSITE_WT + site)) 0) (f32 (m.roundNum (kSTALE_W + st)))) (.num false total 0)).1

/-- Merge one block's payload. Answers whether it was merged or dropped. -/
def mergeBlock (now : Nat) (x : ChMsg) (g : Nat) (e : Extent) (b i : Nat) (a : Module × Bool) : Module × Bool :=
  let m := a.1
  let r := x.dstRegion
  let st := (m.hdr r e b).outerRnd - x.origin
  if m.roundNum kS_MAX < st ∨ 7 < st ∨ (m.num kEXCH_POLICY = 2 ∧ 0 < st) then (m.bump kSTALE_DROP 1, a.2)
  else if (f32 (m.roundNum (kSTALE_W + st))).isZero then (m.bump kSTALE_ZERO 1, a.2)
  else
    let f := deltaWeight m x.srcSite st
    let at_ := (m.xchEnt r e.idx).macc + 1024 * b
    let (m, rst, old) := memRead now r 4 at_ 1024 m
    if rst ≠ 0 then (m, false)
    else
      let d := deltaDecode x.codec x.k (payloadAt x i)
      let new := (List.range 256).map (fun j => (fFma f (d.getD j fvZero) ((fvs32 old).getD j fvZero)).1)
      let m := (memWrite now r 4 at_ (bytes32 new) m).1
      if st = 0 then
        ((m.bump kDELTAS_FRESH 1).modCh (fun c =>
          let seen := Tab.get [] c.fresh x.srcSite
          { c with fresh := Tab.put c.fresh x.srcSite (if seen.contains g then seen else g :: seen) }), a.2)
      else (m.bump kDELTAS_STALE 1, a.2)

/-- Is an outer commit of one of the blocks in progress (R217)? -/
def outerInProgress (m : Module) (r : Nat) (bs : List (Nat × Extent × Nat)) : Bool :=
  bs.any (fun b => (m.rg r).train.commits.any (fun c => c.kind == 3 && c.ext == b.2.1.idx && c.blk == b.2.2))

/-- A region reset discards the fragments that are being merged there, unacknowledged (R218, log entry 72). -/
def discardMerging (r : Nat) (m : Module) : Module :=
  let gone := (m.edge 4).ready.filter (fun y => y.2.type == 1 && y.2.dstRegion == r && ((msgBlocks m y.2).map (outerInProgress m r)).getD false)
  (m.modEdge 4 (fun y => { y with ready := y.ready.filter (fun z => !gone.contains z) })).bump kMERGE_REDO gone.length

def mergeDelta (now src : Nat) (x : ChMsg) (bs : List (Nat × Extent × Nat)) (m : Module) : Module :=
  let r := x.dstRegion
  let early := (bs.filter (fun b => decide ((m.hdr r b.2.1 b.2.2).outerRnd < x.origin))).length
  if m.num kEXCH_POLICY = 0 then m
  else if outerInProgress m r bs then putReady 4 src x m
  else if early ≠ 0 then m.bump kDELTA_EARLY early
  else
    let (m, ok) := (List.range bs.length).foldl (fun a i =>
      match bs[i]? with
      | some b => mergeBlock now x b.1 b.2.1 b.2.2 i a
      | none => a) (m, true)
    mergeIfReady now (if ok then fragDone now (msgKey src x) x.seq m else m)

/-- DELTA (R215). -/
def execDelta (src : Nat) (x : ChMsg) (s : State) : Host.Outcome State Fault Refusal :=
  s.does (fun now m => onMessage now 1 src x (onFragment now src x (mergeDelta now src x)) m)

/-! ### RESULT and STATE (R219, R220) -/

/-- Queue the adoptions of a fragment and run them; policy 0 adopts nothing (R199). -/
def adoptFragment (now src : Nat) (x : ChMsg) (bs : List (Nat × Extent × Nat)) (m : Module) : Module :=
  if m.num kEXCH_POLICY = 0 then m else
  let r := x.dstRegion
  let hs := bs.map (fun b => (m.hdr r b.2.1 b.2.2).adoptRnd)
  let isRes := x.type == 2
  let done := fun (a : Nat) => decide (x.round ≤ a)
  let early := if isRes then (hs.filter (fun a => !done a && a != x.origin)).length else 0
  let dups := if isRes then (hs.filter done).length else 0
  let m := (m.bump kRESULT_EARLY early).bump kFRAGS_DUP dups
  let key := if early = 0 then some (msgKey src x, x.seq) else none
  let m := (List.range bs.length).foldl (fun m i =>
    match bs[i]? with
    | none => m
    | some b =>
      let a := (m.hdr r b.2.1 b.2.2).adoptRnd
      let queued := (m.rg r).train.commits.any (fun c => c.kind == 2 && c.ext == b.2.1.idx && c.blk == b.2.2 && c.round == x.round)
      if done a || queued || (isRes && a != x.origin) then m
      else
        let vals := if isRes then (deltaDecode x.codec x.k (payloadAt x i)).map toF32 else words256 (payloadAt x i)
        queueCommit now r { ext := b.2.1.idx, blk := b.2.2, kind := 2, round := x.round, src := if isRes then 0 else 1, vals := vals, ack := key } m) m
  match key with
  | none => runAll now r m
  | some k => if inHand m k then runAll now r m else fragDone now (msgKey src x) x.seq m

/-- RESULT (R219). -/
def execResult (src : Nat) (x : ChMsg) (s : State) : Host.Outcome State Fault Refusal :=
  s.does (fun now m => onMessage now 2 src x (onFragment now src x (adoptFragment now src x)) m)

/-- STATE (R219). -/
def execState (src : Nat) (x : ChMsg) (s : State) : Host.Outcome State Fault Refusal :=
  s.does (fun now m => onMessage now 3 src x (onFragment now src x (adoptFragment now src x)) m)

/-! ### ACK (R211, R212, R214) -/

def isAcked (x : ChMsg) (seq : Nat) : Bool := decide (seq < x.seq) || (decide (x.seq < seq) && x.w2.testBit (seq - x.seq - 1))

/-- Note that a site has a fragment's payloads; STATE of a block stands for its results up to the round (R217). -/
def ackPayloads (site : Nat) (f : ChMsg) (m : Module) : Module :=
  forL m.owners m (fun r m =>
    let hit := fun (p : Payload) => msgNames f p.gidx
      && (if f.type = 3 then p.isResult && decide (p.round ≤ f.round) else p.isResult == (f.type == 2) && p.round == f.round)
    let m := m.modPays r (fun ps => ps.map (fun p => if hit p ∧ !p.acked.contains site then { p with acked := p.acked ++ [site] } else p))
    (evictResults r 0 0 (freeDeltas r m)).1)

def takeAck (now src : Nat) (x : ChMsg) (m : Module) : Module :=
  match Tab.find? m.chanter.streams x.stream with
  | none => m
  | some st =>
    if st.node ≠ src ∨ (st.frags.any (fun f => f.msg.type == x.codec)) = false then m
    else
      let got := st.frags.filter (fun f => isAcked x f.msg.seq && f.sends != 0)
      let left := st.frags.filter (fun f => !(isAcked x f.msg.seq && f.sends != 0))
      let m := forL got m (fun f m =>
        match f.sentAt with
        | some t => if f.sends = 1 then m.modCh (fun c => { c with srtt := Tab.put c.srtt src ((7 * Tab.get (100 * ms) c.srtt src + (now - t)) / 8) }) else m
        | none => m)
      let m := m.modCh (fun c => { c with streams := if left = [] then Tab.del c.streams x.stream else Tab.put c.streams x.stream { st with frags := left } })
      let m := forL got m (fun f m => ackPayloads (m.siteOf src) f.msg m)
      if left = [] then openWaiting now m else m

/-- ACK (R212). -/
def execAck (src : Nat) (x : ChMsg) (s : State) : Host.Outcome State Fault Refusal :=
  s.does (fun now m => onMessage now 4 src x (takeAck now src x) m)

/-- The record whose stream a node sends under a number, with fragments not yet acknowledged. -/
def ackOwed (m : Module) (node stream : Nat) : Option (Nat × RecvSt) :=
  List.find? (fun (y : Nat × RecvSt) => y.2.node == node && y.2.stream == stream && decide (0 < y.2.fresh)) m.chanter.recvs

/-- ACK_TIMER (R211): ACK_MS after the first unacknowledged fragment. -/
def execAckTimer (node stream : Nat) (s : State) : Host.Outcome State Fault Refusal :=
  let x := ackOwed s.mod node stream
  s.doesWhen (x.isSome && s.mod.chSends) ((x.map (fun y => y.2.since)).getD 0 + s.mod.num kACK_MS * ms) (fun now m =>
    match ackOwed m node stream with
    | some y => sendAck now y.1 m
    | none => m)

/-! ### RESYNC, PROBE (R210, R213, R227) -/

/-- STATE for a run of home blocks, by region, but none under policy 0 (R199); a home that is restoring holds the request (R368). -/
def serveResync (now src : Nat) (x : ChMsg) (m : Module) : Module :=
  let r := x.dstRegion
  let bs := (runOf x).map (fun g => blockOfG m r g)
  if m.num kEXCH_POLICY = 0 then m
  else if bs.any (fun b => match b with
    | some b => b.1.form != 1
    | none => true) then m.bump kFRAGS_BAD 1
  else if m.num kRESTORE_STATUS = 1 ∨ m.num kRESTORE_STATUS = 2 then putReady 4 src x m
  else
    -- the run goes back to the node that asked, whichever region of it owns the blocks
    let (m, ps) := statePieces now r (bs.filterMap id) m
    let regions := (ps.filterMap (fun p => (m.ownerAt (m.siteOf src) p.2.g).map (fun o => o.2.1))).foldl
      (fun (a : List Nat) q => if a.contains q then a else a ++ [q]) []
    forL regions m (fun q m =>
      let mine := ps.filter (fun p => ((m.ownerAt (m.siteOf src) p.2.g).map (fun o => o.2.1)) == some q)
      openStream now src ((cutPieces (max 1 x.gstride) (mine.map (·.2))).map (runMsg m 3 0 false q (max 1 x.gstride))) m)

/-- RESYNC (R210). -/
def execResync (src : Nat) (x : ChMsg) (s : State) : Host.Outcome State Fault Refusal :=
  s.does (fun now m => onMessage now 5 src x (serveResync now src x) m)

/-- PROBE (R210). -/
def execProbe (src : Nat) (x : ChMsg) (s : State) : Host.Outcome State Fault Refusal :=
  s.does (fun now m => onMessage now 6 src x (sendMsg now src { noMsg with type := 7, dstRegion := 0, w2 := x.w2 }) m)

/-- PROBE_REPLY (R213): hearing it makes the node up. -/
def execProbeReply (src : Nat) (x : ChMsg) (s : State) : Host.Outcome State Fault Refusal :=
  s.does (fun now m => onMessage now 7 src x id m)

/-- PEER_HELD (R213): DEAD_MS without a message. -/
def execPeerHeld (node : Nat) (s : State) : Host.Outcome State Fault Refusal :=
  let h := Tab.find? s.mod.chanter.heard node
  s.doesWhen (h.isSome && (Tab.find? s.mod.chanter.held node).isNone) (h.getD 0 + s.mod.num kDEAD_MS * ms) (fun now m =>
    m.modCh (fun c => { c with held := Tab.put c.held node now, probed := Tab.put c.probed node now }))

/-- PROBE_TIMER (R213): every PROBE_MS to a held node; a PROBE to a node without a key completes at once with 0x08 (R432). -/
def execProbeTimer (node : Nat) (s : State) : Host.Outcome State Fault Refusal :=
  let h := heldSince s.mod node
  s.doesWhen (h.isSome && s.mod.chSends) (max (h.getD 0) (Tab.get 0 s.mod.chanter.probed node) + s.mod.num kPROBE_MS * ms) (fun now m =>
    sendMsg now node { noMsg with type := 6, w2 := now % 2 ^ 64 } (m.modCh (fun c => { c with probed := Tab.put c.probed node now })))

/-! ### Sending (R212, R213) -/

/-- The share of a site in Mb/s. -/
def shareOf (m : Module) (site : Nat) : Nat := Tab.get (m.num kLH_RATE_MBPS) m.chanter.share site

/-- Does Chanter send to a node now? -/
def maySend (m : Module) (node : Nat) : Bool :=
  m.inRun && m.chSends && (heldSince m node).isNone

/-- The fragment that a stream sends next; resends to a node go oldest round first (R213), and so do results (R217). -/
def nextFrag (m : Module) (stream : Nat) : Option (StreamSt × Frag) :=
  match Tab.find? m.chanter.streams stream with
  | none => none
  | some st =>
    match st.frags.find? (fun f => f.sentAt.isNone) with
    | none => none
    | some f =>
      let older := m.chanter.streams.any (fun s => s.2.node == st.node && s.2.frags.any (fun g => g.sentAt.isNone && decide (g.msg.round < f.msg.round)
        && (g.sends != 0 || (g.msg.type == 2 && f.msg.type == 2))))
      if older ∨ !maySend m st.node then none else some (st, f)

/-- Decode time of a section in ns (R122): cycles at 800 MHz, rounded up. -/
def decodeNs (x : ChMsg) : Nat := ceilDiv ((ceilDiv (leAt x.body 0 4) 128 + 24) * 5) 4

/-- The earliest moment that pacing leaves a fragment (R123, R213). -/
def paceAt (m : Module) (node : Nat) (x : ChMsg) : Nat :=
  max m.chanter.sendNext (max (Tab.get 0 m.chanter.siteNext (m.siteOf node)) (if x.flags.testBit 1 then Tab.get 0 m.chanter.decNext node else 0))

/-- Nanoseconds of n payload bytes at a rate in Mb/s; a share that has been halved below 1 Mb/s counts as that (DESIGN CHOICE, log
entry 148). -/
def rateNs (n rate : Nat) : Nat := ceilDiv (n * 8000) (max 1 rate)

/-- Put a fragment on the wire: its copies after the first carry RESEND. -/
def sendFrag (now stream : Nat) (st : StreamSt) (f : Frag) (rto : Nat) (m : Module) : Module :=
  let msg := if f.sends = 0 then f.msg else { f.msg with flags := setBit f.msg.flags 2 }
  let site := m.siteOf st.node
  let n := msg.body.length
  let m := m.bump (if f.sends = 0 then kFRAGS_SENT else kFRAGS_RESENT) 1
  let m := m.modCh (fun c =>
    { c with streams := Tab.put c.streams stream { st with frags := st.frags.map (fun g => if g.msg.seq = f.msg.seq then { g with sentAt := some now, rto := rto, sends := g.sends + 1 } else g) }
             sendNext := now + rateNs n (m.num kLH_RATE_MBPS)
             siteNext := Tab.put c.siteNext site (now + rateNs n (shareOf m site))
             decNext := if msg.flags.testBit 1 then Tab.put c.decNext st.node (now + decodeNs msg) else c.decNext })
  sendMsg now st.node msg m

/-- The RTO of a first sending (R212). -/
def firstRto (m : Module) (node : Nat) : Nat := max (m.num kRTO_MIN_MS * ms) (2 * Tab.get (100 * ms) m.chanter.srtt node)

/-- Each RESEND doubles the fragment's RTO, up to 2 s. -/
def resendRto (f : Frag) : Nat := min (2 * sec) (2 * f.rto)

/-- FRAGMENT_SEND (R213). -/
def execFragmentSend (stream : Nat) (s : State) : Host.Outcome State Fault Refusal :=
  let nf := nextFrag s.mod stream
  s.doesWhen nf.isSome ((nf.map (fun x => paceAt s.mod x.1.node x.2.msg)).getD 0) (fun now m =>
    match nextFrag m stream with
    | some (st, f) => sendFrag now stream st f (if f.sends = 0 then firstRto m st.node else resendRto f) m
    | none => m)

/-- A sent fragment that its RTO may resend, and when: paced like every sending. -/
def rtoFrag (m : Module) (stream seq : Nat) : Option (StreamSt × Frag × Nat) :=
  match Tab.find? m.chanter.streams stream with
  | none => none
  | some st =>
    match st.frags.find? (fun f => f.msg.seq == seq) with
    | none => none
    | some f => match f.sentAt with
      | some t => if maySend m st.node then some (st, f, max (t + f.rto) (paceAt m st.node f.msg)) else none
      | none => none

/-- RTO_EXPIRY (R212, R213). -/
def execRtoExpiry (stream seq : Nat) (s : State) : Host.Outcome State Fault Refusal :=
  let x := rtoFrag s.mod stream seq
  s.doesWhen x.isSome ((x.map (fun y => y.2.2)).getD 0) (fun now m =>
    match rtoFrag m stream seq with
    | some (st, f, _) =>
      let site := m.siteOf st.node
      let m := sendFrag now stream st f (resendRto f) m
      m.modCh (fun c => { c with share := Tab.put c.share site (shareOf m site / 2), shareAt := Tab.put c.shareAt site now })
    | none => m)

/-- The largest SRTT of a site's nodes. -/
def siteSrtt (m : Module) (site : Nat) : Nat :=
  match m.siteNodes site with
  | [] => 100 * ms
  | n :: ns => ns.foldl (fun a k => max a (Tab.get (100 * ms) m.chanter.srtt k)) (Tab.get (100 * ms) m.chanter.srtt n)

/-- LONG_HAUL_RATE_RECOVERY (R213): an SRTT after the site's share last changed. -/
def execLongHaulRateRecovery (site : Nat) (s : State) : Host.Outcome State Fault Refusal :=
  guarded (decide (site < 64)) (s.doesWhen (decide (shareOf s.mod site < s.mod.num kLH_RATE_MBPS))
    (Tab.get 0 s.mod.chanter.shareAt site + siteSrtt s.mod site) (fun now m =>
      let full := m.num kLH_RATE_MBPS
      m.modCh (fun c => { c with share := Tab.put c.share site (min full (shareOf m site + full / 16)), shareAt := Tab.put c.shareAt site now })))

/-! ### Deadlines (R216) -/

/-- The deadline of the open round: the homes merge if the quorum is there, and wait for it otherwise. -/
def passDeadline (now : Nat) (m : Module) : Module :=
  mergeIfReady now (m.modCh (fun c => { c with due := true, deadline := none, holdUntil := some (now + m.roundNum kQUORUM_HOLD_MS * ms) }))

/-- ROUND_DEADLINE (R216). -/
def execRoundDeadline (s : State) : Host.Outcome State Fault Refusal :=
  s.doesWhen s.mod.chanter.deadline.isSome (s.mod.chanter.deadline.getD 0) (fun now m => passDeadline now m)

/-- QUORUM_HOLD_EXPIRY (R216). -/
def execQuorumHoldExpiry (s : State) : Host.Outcome State Fault Refusal :=
  let c := s.mod.chanter
  s.doesWhen (c.due && c.holdUntil.isSome && s.mod.num kCHANTER_FSTATE == 0 && (openRound s.mod).isSome) (c.holdUntil.getD 0) (fun now m =>
    match openRound m with
    | some n => mergeRound now n (m.bump kQUORUM_MISS (b2n (decide (quorumNow m < m.roundNum kQUORUM))))
    | none => m)

/-! ### Rejoin and join (R226, R227) -/

/-- The node that homes a global index. -/
def homeNode (m : Module) (g : Nat) : Option Nat :=
  match m.homeSite g with
  | none => none
  | some s => (m.ownerAt s g).map (·.1)

/-- CATCHUP_DELTA (R226): the block at a position that was held, closed and caught up with its home. -/
def catchUp (now r pos : Nat) (m : Module) : Module :=
  match (m.blocksOf r)[pos]? with
  | none => m
  | some (e, b) =>
    let h := m.hdr r e b
    let away : Bool := match homeNode m (m.gidx r e b) with
      | some n => (heldSince m n).isSome || !decide (h.adoptRnd = Tab.get 0 m.chanter.outer n)
      | none => true
    if !(m.rg r).xch.heldPos.contains pos ∨ h.isOpen = true ∨ away = true ∨ m.num kCHANTER_FSTATE ≠ 0 ∨ m.num kEXCH_POLICY = 0
        ∨ !deltaRoom m r (payloadLen (m.rg r).xch.codec (m.rg r).xch.k) then m
    else
      runAll now r (queueCommit now r { ext := e.idx, blk := b, kind := 4, round := h.adoptRnd + 1, origin := h.deltaRnd, flags := 8 } m)

/-- CATCHUP_DELTA (R226). -/
def execCatchupDelta (r pos : Nat) (s : State) : Host.Outcome State Fault Refusal :=
  guarded (okR r) (s.does (fun now m => if m.inRun then catchUp now r pos m else m))

/-- Send RESYNC for blocks of region r to their homes (R210). -/
def askResync (now r : Nat) (xs : List (Extent × Nat)) (m : Module) : Module :=
  let ps := xs.filterMap (fun x =>
    let g := m.gidx r x.1 x.2
    match m.homeSite g with
    | none => none
    | some s => (m.ownerAt s g).map (fun o => ((o.1, o.2.1), x.1.idx, (⟨g, 0, 0, 5, 0, []⟩ : Piece), Nat.lcm (m.xchEnt r x.1.idx).stride (16 * o.2.2))))
  let keys := (ps.map (fun p => (p.1, p.2.1, p.2.2.2))).foldl (fun (a : List ((Nat × Nat) × Nat × Nat)) k => if a.contains k then a else a ++ [k]) []
  forL keys m (fun k m =>
    let mine := (ps.filter (fun p => (p.1, p.2.1, p.2.2.2) == k)).map (fun p => p.2.2.1)
    forL (cutPieces k.2.2 mine) m (fun run m =>
      sendMsg now k.1.1 { runMsg m 5 0 false k.1.2 k.2.2 run with codec := 0, round := 0 } m))

/-- A write of JOIN; answers the status (R227). Under policy 0 it has no effect (R199). -/
def joinWrite (now v : Nat) (m : Module) : Module × Nat :=
  if 1 < v then (m, 2)
  else if !m.inRun ∨ m.num kCHANTER_FSTATE ≠ 0 then (m, 8)
  else if v = 0 ∨ m.num kEXCH_POLICY = 0 then (m, 0)
  else (forL m.owners m (fun r m => if m.num (kXCH_CFG + r) = 0 then m else askResync now r ((m.blocksOf r).filter (fun x => x.1.form ≠ 1)) m), 0)

/-- JOIN (R227). -/
def execJoin (v : Nat) (s : State) : Host.Outcome State Fault Refusal :=
  s.does (fun now m => let (m, st) := joinWrite now v m; m.status st)

/-! ### Time alignment (R223, R224) -/

/-- A signed 32-bit entry. -/
def asI32 (v : Nat) : Int := if v % 2 ^ 32 < 2 ^ 31 then (v % 2 ^ 32 : Nat) else ((v % 2 ^ 32 : Nat) : Int) - 2 ^ 32

/-- Half the spread of the samples. -/
def spreadOf (xs : List (Int × Nat)) : Nat :=
  match xs.map (·.1) with
  | [] => 0
  | y :: ys => ((ys.foldl max y - ys.foldl min y) / 2).toNat

/-- A TIMING frame to a node: a 1588 message, whose bytes the spec does not give, and the TX_TIME of the frame before it (R440). -/
def sendTiming (now node : Nat) (m : Module) : Module :=
  let f := m.mkReq opTIMING 0 (m.dieGen 0) (mkAddr node 0 0) 0 (fitB 44 (Config.ptpMessage m.free) ++ leBytes 8 (Tab.get 0 m.security.txTime node))
  sendOnly now f m.useFree

def tALIGN : Nat := 2

/-- The exchange that a later frame of TIME_REF has confirmed is used (R223, R440). -/
def confirmExchange (now : Nat) (m : Module) : Module :=
  match m.chanter.exchange with
  | none => m
  | some th =>
    let xs := (m.chanter.theta ++ [(th, now)])
    let xs := xs.drop (xs.length - 8)
    ((m.modCh (fun c => { c with theta := xs, lastGood := now, exchange := none })).setNum kALIGN_OK 1).setNum kALIGN_ERR_NS (min (spreadOf xs) 0xFFFFFFFF)

/-- TIME_EXCHANGE (R223): eight times per second with TIME_REF; its four times wait until a later TIMING frame confirms them (R440). The
reference itself has θ = 0 (R386). Chanter sends in RUN alone (R375; DEDUCED, log entry 181). -/
def execTimeExchange (t1 t2 t3 t4 : Nat) (s : State) : Host.Outcome State Fault Refusal :=
  let on := s.mod.inRun && decide (s.mod.roundNum kTIME_ALIGN = 1 ∧ s.mod.roundNum kTIME_REF ≠ s.mod.node)
  s.doesWhen on (s.mod.timer tALIGN + 125 * ms) (fun now m =>
      let m := sendTiming now (m.roundNum kTIME_REF) (m.setTimer tALIGN now)
      let asym := asI32 (m.num (kASYM_NS + m.siteOf (m.roundNum kTIME_REF)))
      m.modCh (fun c => { c with exchange := some ((((t2 : Int) - t1) - ((t4 : Int) - t3) - asym) / 2) }))

/-- ALIGN_LOST (R224): 10 s without an exchange. -/
def execAlignLost (s : State) : Host.Outcome State Fault Refusal :=
  s.doesWhen (decide (s.mod.num kALIGN_OK = 1)) (s.mod.chanter.lastGood + 10 * sec) (fun now m =>
    post now 4 1 srcChanter (leBytes 2 (m.roundNum kTIME_REF)) (m.setNum kALIGN_OK 0))

end Sys2Proof.Machine
end

