-- ==== Sys2Proof/Machine/Engine.lean ====
section
/-! DEFINITION. The security engine (R431), the trust table (R430), fingerprints (R428), and signatures (R424, R441). -/

namespace Sys2Proof.Machine

/-- The copies of the engine disagree: nothing is released; the second time within 3,600 s the engine is disabled. -/
def engineFails (now op : Nat) (m : Module) : Module :=
  let again := match m.security.mismatchAt with
    | some t => decide (now < t + 3600 * sec)
    | none => false
  postF again now 10 4 srcDrone (leBytes 1 op)
    ((m.bump kENGINE_MISMATCH 1).modSec (fun x => { x with mismatchAt := some now, disabled := again }))

/-- One operation of the security engine; false where it fails (R431). Operations: 1 Falcon signing, 2 ML-KEM, 3 key
derivation, 4 loading a key, 5 a signature check. -/
def engineOp (now op : Nat) (m : Module) : Module × Bool :=
  if m.security.disabled then (m, false)
  else if Config.engineMismatch m.free then (engineFails now op m.useFree, false)
  else (m.useFree, true)

/-- Sign a message with the identity key: none where the engine fails. The signature is verified against the public key before it is
released; one that does not verify counts as a mismatch. -/
def engineSign (now : Nat) (msg : List Byte) (m : Module) : Module × Option (List Byte) :=
  match engineOp now 1 m with
  | (m, false) => (m, none)
  | (m, true) =>
    let sig := Config.falconSign Config.identityKey msg m.free
    if Config.falconVerify Config.identityPub msg sig then (m.useFree, some sig) else (engineFails now 1 m.useFree, none)

/-- Check a signature: false where it does not verify or the engine fails. -/
def engineVerify (now : Nat) (pub msg sig : List Byte) (m : Module) : Module × Bool :=
  match engineOp now 5 m with
  | (m, false) => (m, false)
  | (m, true) => (m, Config.falconVerify pub msg sig)

/-- The fingerprint of a public key (R428). -/
def fingerprint (pub : List Byte) : List Byte := shake256 16 pub

/-- A signature and its length, padded to 1,280 B: U16 length, 6 bytes of 0, signature (R424). -/
def sigBlock (sig : List Byte) : List Byte := leBytes 2 sig.length ++ zeros 6 ++ fitB 1280 sig

/-- An entry of the trust table. -/
structure Trust where
  node : Nat
  flags : Nat
  print : List Byte
  deriving DecidableEq, Repr

def Module.trust (m : Module) : List Trust :=
  let b := m.blob kTRUST_TABLE
  (List.range (leAt b 0 2)).map (fun i =>
    { node := leAt b (16 + 24 * i) 2, flags := leAt b (18 + 24 * i) 1, print := sliceB b (24 + 24 * i) 16 })

/-- Is a fingerprint trusted under a flag: for any node, or for one? -/
def Module.trusts (m : Module) (flag : Nat) (node : Option Nat) (print : List Byte) : Bool :=
  m.trust.any (fun t => t.flags.testBit flag && t.print == print && match node with
    | none => true
    | some n => t.node == n)

/-! ### Manifests (R441) -/

def manifestBlock (sig : List Byte) : List Byte :=
  leBytes 2 sig.length ++ zeros 6 ++ fitB 1793 Config.identityPub ++ zeros 7 ++ fitB 1280 sig

/-- Does the block at the end of a manifest verify, under a key trusted to sign manifests? -/
def manifestSigned (now : Nat) (body block : List Byte) (m : Module) : Module × Bool :=
  let pub := sliceB block 8 1793
  if !m.trusts 1 none (fingerprint pub) then (m, false)
  else engineVerify now pub body (sliceB block 1808 (leAt block 0 2)) m

end Sys2Proof.Machine
end

