-- ==== Sys2Proof/Machine/Checkpoint.lean ====
section
/-! DEFINITION. Draining a cut (R350–R358), the tier's commands (R148–R152), and restore (R364–R368). -/

namespace Sys2Proof.Machine

/-! ### Block records (R353) -/

/-- The reserve places that hold a block's cut version, when COPIED or KEPT. -/
def heldAt (m : Module) (r pos : Nat) : Option (Nat × Nat) :=
  let w := m.dirW r pos
  if m.cutPending r pos ∨ 2 ≤ w.state then none else some (w.entry, if w.hentry = noHome then 0 else w.hentry + 1)

/-- The parts of a record: slots, and the first byte; none for a part that is not there. -/
def recordPlaces (m : Module) (r : Nat) (e : Extent) (b : Nat) (src : Option (Nat × Nat)) (opened : Bool) : List (Nat × Option Nat) :=
  let part := fun p => match src with
    | some (n, _) => some (rsvAddr m r n p)
    | none => some (partAddr m r e b p)
  let home := match src with
    | some (_, h) => if h = 0 then none else some (rsvHome m r (h - 1), rsvHome m r (h - 1) + 1024)
    | none => if e.form = 1 then some (partAddr m r e b pMOM, partAddr m r e b pHRES) else none
  let snap := match snapAddr m r e b with
    | none => none
    | some a => if !opened then none else match src with
      | some (n, _) => some (rsvAddr m r n 7)
      | none => some a
  [(2, part pWC), (4, part pW), (4, part pM1), (4, part pM2), (4, part pBASIS), (2, part pRES), (4, snap), (4, home.map (·.1)), (2, home.map (·.2))]

/-- A header as a record carries it. -/
def recordHdr (hb : List Byte) : List Byte :=
  hdrBytes { hdrOf hb with pending := false, retained := false, shadow := 0, retain := 0, relcount := 0, retrel := 0, arrived := 0, astep := 0 } hb

/-- A block's record, of its body or of reserve places. None where part of it cannot be read. -/
def blockRecord (now r : Nat) (e : Extent) (b : Nat) (src : Option (Nat × Nat)) (m : Module) : Module × Option (List Byte) :=
  let at_ := fun p => match src with
    | some (n, _) => rsvAddr m r n p
    | none => partAddr m r e b p
  match memRead now r 7 (at_ pHDR) 64 m with
  | (m, st, hb) =>
    if st ≠ 0 then (m, none)
    else if e.form = 2 then
      match memRead now r 7 (at_ pWC) 512 m with
      | (m, st, w) => (m, if st ≠ 0 then none else some (recordHdr hb ++ leBytes 16 (packBits 4 (List.replicate 2 0 ++ List.replicate 28 8)) ++ w))
    else
      let (m, x) := (recordPlaces m r e b src (hdrOf hb).isOpen).foldl (fun (a : Module × Option (List Nat × List Byte)) p =>
        match a.2, p.2 with
        | none, _ => a
        | some (cs, ds), none => (a.1, some (cs ++ List.replicate p.1 8, ds))
        | some (cs, ds), some off => match readRun now r 7 off p.1 a.1 with
          | (m, none) => (m, none)
          | (m, some (c, d)) => (m, some (cs ++ c, ds ++ d))) (m, some ([], []))
      (m, x.map (fun y => recordHdr hb ++ leBytes 16 (packBits 4 y.1) ++ y.2))

/-- The body of a shard: the cut versions of its blocks, and the KEY of a tiered extent. -/
def shardBody (now r : Nat) (e : Extent) (first count : Nat) (m : Module) : Module × Option (List Byte) :=
  let (m, x) := (List.range count).foldl (fun (a : Module × Option (List Byte)) i =>
    match a.2 with
    | none => a
    | some bs => match blockRecord now r e (first + i) (heldAt a.1 r (posOf a.1 r e (first + i))) a.1 with
      | (m, none) => (m, none)
      | (m, some rec_) => (m, some (bs ++ rec_))) (m, some [])
  (m, x.map (fun bs => if e.form = 2 then bs ++ fitB 16 (Tab.get (m.tierEnt r e.base).key (m.rg r).cut.keys e.base) else bs))

/-! ### The drain (R352) -/

/-- The drain fails: no more copies on write for this cut, CUT_STATE 4. -/
def drainFailed (now r : Nat) (m : Module) : Module :=
  let m := m.modCuts (fun c => { c with pool := c.pool.filter (fun p => !([1, 2, 5, 6].contains p.kind)) })
  let m := forN 16 m (fun q m => m.modCut q (fun c => { c with shards := [], drain := none, failed := true }))
  post now 6 1 srcDrone (leBytes 8 (m.num kCUT_STEP) ++ leBytes 1 r) (m.setNum kCUT_STATE 4)

/-- The commit that has waited longest at step 5. -/
def longestWait (m : Module) (r : Nat) : Option Commit :=
  ((m.rg r).train.commits.filter (fun c => c.step == 5)).foldl (fun (a : Option Commit) c =>
    match a with
    | none => some c
    | some x => if c.since < x.since then some c else some x) none

/-- The shard that the drain takes next (R350). -/
def nextShard (m : Module) (r : Nat) : Option (Nat × Nat) :=
  let ss := (m.rg r).cut.shards
  match longestWait m r with
  | some c => if ss.contains (c.ext, c.blk / 4096 * 4096) then some (c.ext, c.blk / 4096 * 4096) else ss.head?
  | none => ss.head?

/-- Must the extent be written back before it is recorded (R356)? One that a restore has still to complete must be recalled first. -/
def needsWriteBack (m : Module) (r : Nat) (e : Extent) : Bool :=
  e.form == 2 && (Tab.find? (m.rg r).cut.keys e.base).isNone
    && ((m.tierEnt r e.base).state == 3 || (m.tierEnt r e.base).state == 4 || (Tab.find? (m.rg r).tier.fixes e.base).isSome)

/-- Take a shard in RUN (R379): read it, digest it, and ask the pool for its object. A shard whose extent the table in force does not list
fails the drain (DESIGN CHOICE, log entry 170). -/
def drainShard (now r : Nat) (m : Module) : Module :=
  match nextShard m r with
  | none => m
  | some (i, first) =>
    match m.extent? r i with
    | none => if m.inRun then drainFailed now r m else m
    | some e =>
      let count := min 4096 (e.blocks - first)
      if !m.inRun ∨ m.num kCUT_STATE ≠ 1 ∨ (m.rg r).cut.drain.isSome ∨ (m.rg r).cut.failed then m
      else if needsWriteBack m r e then
        startWriteBack now r e.base (if (Tab.find? (m.rg r).tier.fixes e.base).isSome then startRecall now r e.base m else m)
      else if (List.range count).any (fun b => (m.hdr r e (first + b)).pending) then m
      else
        match shardBody now r e first count m with
        | (m, none) => drainFailed now r m
        | (m, some body) =>
          let digest := shake256 32 body
          let m := m.modCut r (fun c => { c with shards := c.shards.erase (i, first)
                                                 drain := some { ext := i, first := first, count := count, size := body.length, digest := digest } })
          let (m, ok) := poolSend now r 1 0 0 (m.snapNum kPOOL_NODE) (poolHeader 2 0 0 0 digest) m
          if ok then m else drainFailed now r m

/-- DRAIN_SHARD (R352). -/
def execDrainShard (r : Nat) (s : State) : Host.Outcome State Fault Refusal :=
  guarded (okR r) (s.does (fun now m => drainShard now r m))

/-- The manifest's entry of a shard (R357). -/
def manifestEntry (m : Module) (r : Nat) (e : Extent) (d : Drain) : List Byte :=
  let x : XchEnt := if m.num (kXCH_CFG + r) = 0 then ⟨0, 0, 0, 0⟩ else m.xchEnt r e.idx
  leBytes 8 (x.gfirst + d.first * x.stride) ++ leBytes 4 x.stride ++ leBytes 2 d.count ++ leBytes 2 e.idx
    ++ leBytes 4 (place d.first 23 0 + place r 27 24 + place e.form 31 28) ++ leBytes 4 d.size ++ leBytes 8 (m.num kCUT_STEP) ++ fitB 32 d.digest

/-- The pool has acknowledged one block: KEPT or GONE (R352). -/
def keepBlock (now r : Nat) (e : Extent) (b : Nat) (m : Module) : Module :=
  let pos := posOf m r e b
  let w := m.dirW r pos
  let ep := m.num (kCUT_EPOCH + r)
  let gone := fun (m : Module) => setDir now r pos { epoch := ep, state := dGONE, adopts := 0, entry := 0, hentry := noHome } m
  if m.cutPending r pos then
    match freePlaces m r (e.form = 1) with
    | none => gone m
    | some (n, h) => match copyBlock now r e b n h m with
      | (m, false) => gone m
      | (m, true) => holdPlaces now r pos dKEPT n h 0 m
  else if w.state = dCOPIED then
    setDir now r pos { w with state := dKEPT } (m.modCut r (fun c => { c with kept := c.kept ++ [pos] }))
  else m

/-- The pool holds a shard's object. -/
def shardAcked (now r : Nat) (m : Module) : Module :=
  match (m.rg r).cut.drain with
  | none => m
  | some d =>
    match m.extent? r d.ext with
    | none => m.modCut r (fun c => { c with drain := none })
    | some e =>
      let m := forN d.count m (fun i m => keepBlock now r e (d.first + i) m)
      let m := m.modCut r (fun c => { c with drain := none, records := Tab.put c.records (d.ext * 2 ^ 24 + d.first) (manifestEntry m r e d) })
      m.setNum kDRAIN_LEFT (m.num kDRAIN_LEFT - d.count)

/-- The pool lacks the object: the shard is read again and sent (R352, R355). -/
def shardAbsent (now r : Nat) (m : Module) : Module :=
  match (m.rg r).cut.drain with
  | none => m
  | some d =>
    match m.extent? r d.ext with
    | none => drainFailed now r m
    | some e => match shardBody now r e d.first d.count m with
      | (m, none) => drainFailed now r m
      | (m, some body) =>
        let m := ((m.bump kSHARDS_WRITTEN 1).bump kSHARD_BYTES body.length).modCut r (fun c =>
          { c with drain := some { d with left := poolPieces m (m.snapNum kPOOL_NODE) body } })
        let (m, ok) := poolPut now r 2 0 (m.snapNum kPOOL_NODE) d.digest body m
        if ok then m else drainFailed now r m

/-! ### The manifest (R357, R358) -/

def manifestBody (m : Module) : List Byte :=
  let es := (List.range 16).flatMap (fun r => (m.rg r).cut.records.map (·.2))
  leBytes 2 1 ++ zeros 2 ++ leBytes 4 es.length ++ leBytes 8 (m.num kCUT_STEP) ++ leBytes 2 m.cuts.node ++ leBytes 1 (m.num kSITE_ID) ++ zeros 1
    ++ leBytes 4 m.cuts.round ++ fitB 32 m.cuts.prev ++ fitB 32 m.cuts.layout ++ zeros 40 ++ es.flatten

/-- Has every region drained its shards, and is no request for the manifest under way? A warm reset drops those, and the manifest is sent
again in RUN (R379). -/
def drainEnded (m : Module) : Bool :=
  m.inRun && (m.num kCUT_STATE == 1 || (m.num kCUT_STATE == 2 && m.cuts.pool.all (fun p => p.kind != 5 && p.kind != 6)))
    && m.cuts.toTake == [] && (List.range 16).all (fun r => (m.rg r).cut.shards == [] && (m.rg r).cut.drain.isNone)

def writeManifest (now : Nat) (m : Module) : Module :=
  let body := manifestBody m
  match engineSign now body (m.setNum kCUT_STATE 2) with
  | (m, none) => drainFailed now 0 m
  | (m, some sig) =>
    let obj := body ++ manifestBlock sig
    let digest := shake256 32 body
    let m := m.modCuts (fun c => { c with digest := digest, putLeft := poolPieces m (m.snapNum kPOOL_NODE) obj })
    let (m, ok) := poolPut now 16 5 0 (m.snapNum kPOOL_NODE) digest obj m
    if ok then m else drainFailed now 0 m

/-- MANIFEST_WRITE (R358). -/
def execManifestWrite (s : State) : Host.Outcome State Fault Refusal :=
  s.does (fun now m => if drainEnded m then writeManifest now m else m)

/-- The COMMIT reply makes the manifest durable. -/
def manifestDone (now : Nat) (m : Module) : Module :=
  let key := m.cuts.digest.take 16
  post now 6 2 srcDrone (leBytes 8 (m.num kCUT_STEP) ++ key.take 4)
    (((m.setBlob kMANIFEST_LAST (leBytes 8 (m.num kCUT_STEP) ++ key)).setNum kCUT_STATE 3).modCuts (fun c => { c with prev := c.digest }))

/-- CUT_AT (R362). -/
def execCutAt (v : Nat) (s : State) : Host.Outcome State Fault Refusal :=
  s.does (fun _ m => let (m, st) := setCutAt v m; m.status st)

/-! ### Restore: records -/

/-- A block record taken apart. -/
structure Rec where
  hdr : List Byte
  codes : List Nat
  data : List Byte
  deriving DecidableEq, Repr

def recSectors (codes : List Nat) : Nat := 32 * ((codes.map sectorsOf).sum)

def recOf (bs : List Byte) : Rec × List Byte :=
  let w := leAt bs 64 16
  let codes := (List.range 30).map (fun n => (w >>> (4 * n)) % 16)
  let n := recSectors codes
  ({ hdr := sliceB bs 0 64, codes := codes, data := sliceB bs 80 n }, bs.drop (80 + n))

/-- The records of a shard body, and what follows them. -/
def recsOf : Nat → List Byte → List Rec × List Byte
  | 0, bs => ([], bs)
  | n + 1, bs => let (x, rest) := recOf bs; let (xs, tail) := recsOf n rest; (x :: xs, tail)

def Rec.bytes (x : Rec) : List Byte := x.hdr ++ leBytes 16 (packBits 4 x.codes) ++ x.data

/-- Slots i to i + n − 1: code and stored sectors. -/
def Rec.slots (x : Rec) (i n : Nat) : List (Nat × List Byte) :=
  (List.range n).map (fun j => (x.codes.getD (i + j) 8, sliceB x.data (recSectors (x.codes.take (i + j))) (32 * sectorsOf (x.codes.getD (i + j) 8))))

/-- Their 256 B each, expanded. -/
def Rec.expand (x : Rec) (i n : Nat) : List Byte := (x.slots i n).flatMap (fun s => (expandSlot s.1 s.2).getD (zeros 256))

/-- An entry of a manifest. -/
structure ManEnt where
  count : Nat
  ext : Nat
  first : Nat
  region : Nat
  len : Nat
  step : Nat
  digest : List Byte
  deriving DecidableEq, Repr

def manEnt (b : List Byte) (i : Nat) : ManEnt :=
  let a := 128 + 64 * i
  let w := leAt b (a + 16) 4
  { count := leAt b (a + 12) 2, ext := leAt b (a + 14) 2, first := bits w 23 0, region := bits w 27 24, len := leAt b (a + 20) 4,
    step := leAt b (a + 24) 8, digest := sliceB b (a + 32) 32 }

def manEntries (b : List Byte) : Nat := leAt b 4 4
def manStep (b : List Byte) : Nat := leAt b 8 8

/-- Is the retained cut that of the manifest's step? A cut that was discarded is none (R363). -/
def cutKnown (m : Module) (r : Nat) : Bool :=
  m.num kCUT_STATE != 0 && m.num kCUT_STEP == manStep m.cuts.restore && m.num (kCUT_EPOCH + r) != 0

/-- Does mode 1 take the block from the retained cut (R365)? -/
def takesLocal (m : Module) (r : Nat) (e : Extent) (b : Nat) : Bool :=
  m.cuts.mode == 1 && cutKnown m r && (heldAt m r (posOf m r e b)).isSome

def localAll (m : Module) (t : ManEnt) (e : Extent) : Bool := (List.range t.count).all (fun i => takesLocal m t.region e (t.first + i))

/-- A shard body from the pool, with the records that mode 1 takes from the retained cut in their places. -/
def mixLocal (now : Nat) (t : ManEnt) (e : Extent) (body : List Byte) (m : Module) : Module × List Byte :=
  if m.cuts.mode ≠ 1 then (m, body)
  else
    let (xs, tail) := recsOf t.count body
    let (m, ys) := (List.range xs.length).foldl (fun (a : Module × List Byte) i =>
      let own := (xs.getD i ⟨[], [], []⟩).bytes
      if takesLocal a.1 t.region e (t.first + i) then
        match blockRecord now t.region e (t.first + i) (heldAt a.1 t.region (posOf a.1 t.region e (t.first + i))) a.1 with
        | (m, some rec_) => (m, a.2 ++ rec_)
        | (m, none) => (m, a.2 ++ own)
      else (a.1, a.2 ++ own)) (m, [])
    (m, ys ++ tail)

/-! ### Restore: verification (R364) -/

def restoreBad (idx reason : Nat) (m : Module) : Module :=
  let m := m.modCuts (fun c => { c with bad := if c.bad.length < 64 then c.bad ++ [(idx, reason)] else c.bad })
  m.setBlob kRESTORE_BAD (m.cuts.bad.flatMap (fun b => leBytes 4 b.1 ++ leBytes 1 b.2 ++ zeros 3))

/-- The reason why a shard body does not verify; 0 where it does. -/
def shardReason (m : Module) (t : ManEnt) (body : List Byte) : Nat :=
  if shake256 32 body ≠ t.digest then 2
  else if t.step ≠ manStep m.cuts.restore ∨ (recsOf t.count body).1.any (fun x => decide (t.step < (hdrOf x.hdr).step)) then 3 else 0

/-! ### Restore: application (R366–R368) -/

/-- Write slots in stored form; false where one was left unchanged (R105). -/
def writeRun (now r off : Nat) (xs : List (Nat × List Byte)) (m : Module) : Module × Bool :=
  (List.range xs.length).foldl (fun (a : Module × Bool) i =>
    let x := xs.getD i (8, [])
    let (m, ok) := writeStored now r 7 (off / 256 + i) x.1 x.2 a.1
    (m, a.2 && ok)) (noteAlloc r off (256 * xs.length) m, true)

/-- Several runs in turn. -/
def writeRuns (now r : Nat) (ys : List (Nat × List (Nat × List Byte))) (m : Module) : Module × Bool :=
  ys.foldl (fun (a : Module × Bool) y =>
    let (m, ok) := writeRun now r y.1 y.2 a.1
    (m, a.2 && ok)) (m, true)

/-- Several ranges in turn, expanded. -/
def writeAll (now r : Nat) (ys : List (Nat × List Byte)) (m : Module) : Module × Bool :=
  ys.foldl (fun (a : Module × Bool) y =>
    let (m, st) := memWrite now r 7 y.1 y.2 a.1
    (m, a.2 && st == 0)) (m, true)

/-- W = BASIS = W of the cut, no residual, no round (R367). Of a tiered extent the exchange parts lie in its cold object: they follow when
that is at hand (`fixBlock`). -/
def resyncBlock (now r : Nat) (e : Extent) (b : Nat) (w : List Byte) (m : Module) : Module × Bool :=
  let pos := posOf m r e b
  let m := m.modCuts (fun c => { c with resync := if c.resync.contains (r, pos) then c.resync else c.resync ++ [(r, pos)] })
  let m := setHdr now r e b { m.hdr r e b with deltaRnd := 0, adoptRnd := 0 } (m.bump kRESYNC_BLOCKS 1)
  if e.form = 2 then (m, true)
  else writeAll now r [(partAddr m r e b pW, w), (partAddr m r e b pBASIS, w), (partAddr m r e b pRES, zeros 512)] m

/-- ADOPTS as a rollback reads it: 0 where nothing is exchanged, 3 where the retained cut is another one (log entry 87). -/
def adoptsOf (m : Module) (r pos : Nat) : Nat :=
  if m.num (kXCH_CFG + r) = 0 then 0 else if !cutKnown m r then 3 else if m.cutPending r pos then 0 else (m.dirW r pos).adopts

/-- What a rollback makes of a block's W (R366): 0 W of the cut, 1 W carried to the present BASIS, 2 resync, 3 BASIS. -/
def rollbackAct (m : Module) (r : Nat) (e : Extent) (b : Nat) : Nat :=
  let a := adoptsOf m r (posOf m r e b)
  if a = 0 then 0 else if a = 1 ∧ !(m.hdr r e b).isOpen then 1 else if e.form = 1 then 3 else 2

/-- BASIS + (W of the cut − SNAP); without a snapshot nothing is carried, as R220 has it (DEDUCED, log entry 172). -/
def carryW (basis w : List Byte) (snap : Option (List Byte)) : List Byte :=
  match snap with
  | none => basis
  | some s => bytes32 ((List.range 256).map (fun i =>
      (fAdd ((fvs32 basis).getD i fvZero) (fSub ((fvs32 w).getD i fvZero) ((fvs32 s).getD i fvZero)).1).1))

/-- The places of BASIS and, where it is configured, of the snapshot entry. -/
def carryPlaces (m : Module) (r : Nat) (e : Extent) (b : Nat) : List (Nat × Nat) :=
  (partAddr m r e b pBASIS, 1024) :: (match snapAddr m r e b with
    | some a => [(a, 1024)]
    | none => [])

/-- Mode 1 (R366). False where a part cannot be read or written. -/
def applyRollback (now r : Nat) (e : Extent) (b : Nat) (x : Rec) (m : Module) : Module × Bool :=
  let h := m.hdr r e b
  let act := rollbackAct m r e b
  let wb := x.expand 2 4
  match readAll now r 7 (if act = 1 ∨ act = 3 then carryPlaces m r e b else []) m with
  | (m, none) => (m, false)
  | (m, some bs) =>
    let w := if act = 1 then carryW (bs.getD 0 []) wb bs[1]? else if act = 3 then bs.getD 0 [] else wb
    let m := setHdr now r e b { h with step := (hdrOf x.hdr).step, version := h.version + 1 } m
    let (m, ok1) := writeRuns now r [(partAddr m r e b pM1, x.slots 6 4), (partAddr m r e b pM2, x.slots 10 4)] m
    let (m, ok2) := writeAll now r [(partAddr m r e b pW, w)] m
    let (m, ok3) := storePartBack now r 7 e b (pWC, (wcBytes e.wfmt [] (fvs32 w)).1) m
    let (m, ok4) := if act = 2 then resyncBlock now r e b wb m else (m, true)
    (m, ok1 && ok2 && ok3 && ok4)

/-- Mode 2: every part from the cut (R368). -/
def applyRejoin (now r : Nat) (e : Extent) (b : Nat) (x : Rec) (m : Module) : Module × Bool :=
  let parts := [(pWC, 0, 2), (pW, 2, 4), (pM1, 6, 4), (pM2, 10, 4), (pBASIS, 14, 4), (pRES, 18, 2)]
    ++ (if e.form = 1 then [(pMOM, 24, 4), (pHRES, 28, 2)] else [])
  writeRuns now r (parts.map (fun p => (partAddr m r e b p.1, x.slots p.2.1 p.2.2)) ++ (match snapAddr m r e b with
    | some a => [(a, x.slots 20 4)]
    | none => [])) (poke now r (partAddr m r e b pHDR) x.hdr m)

/-! ### Restore: tiered extents (R356, R366, R367; log entry 172) -/

/-- A tiered block: header and working copy. The cold part is the extent's object, as KEY names it. -/
def applyTiered (now r : Nat) (e : Extent) (b act : Nat) (x : Rec) (m : Module) : Module × Bool :=
  let h := m.hdr r e b
  let c := hdrOf x.hdr
  let m := poke now r (partAddr m r e b pWC) (x.expand 0 2) m
  if m.cuts.mode = 2 then (poke now r (partAddr m r e b pHDR) x.hdr m, true)
  else
    let m := setHdr now r e b { h with step := c.step, version := h.version + 1 } m
    if act = 2 then resyncBlock now r e b [] m else (m, true)

/-- What is left to do for a tiered extent when its object of the cut is at hand. -/
def tierActs (m : Module) (r : Nat) (e : Extent) (n : Nat) : List Nat :=
  let old := ((Tab.find? (m.rg r).tier.fixes e.base).map TierFix.acts).getD []
  (List.range n).map (fun b => if m.cuts.mode = 2 ∨ old[b]? = some 2 then 2 else rollbackAct m r e b)

/-- The extent goes back to COLD under the KEY of the cut; a FAILED one stays FAILED (R149). Its present exchange parts come from its frame,
or from the object under its present KEY; where the frame cannot be read every block is resynced. Answers what is left to do. -/
def tierBack (now r : Nat) (e : Extent) (n : Nat) (key : List Byte) (m : Module) : Module × List Nat :=
  let i := e.base
  let x := m.tierEnt r i
  let acts := tierActs m r e n
  let held := decide (2 ≤ x.state) && decide (x.state ≤ 4)
  let prev := Tab.find? (m.rg r).tier.fixes i
  let (m, fix) : Module × TierFix := match prev with
    | some f => (m, { f with acts := acts })
    | none =>
      if acts.all (· == 2) then (m, { acts := acts })
      else if !held then (m, { old := x.key, acts := acts })
      else match storedObject now r 7 (frameAt m r x) (coldSlots x) m with
        | (m, some obj) => (m, { present := obj, acts := acts })
        | (m, none) => (m, { acts := acts.map (fun _ => 2) })
  let same : Bool := prev.isNone && acts.all (· == 0) && x.key == key && x.state != 3 && x.state != 4
  let m := (poolDrop 4 r i (poolDrop 3 r i m)).modTier r (fun y =>
    { y with frames := y.frames.filter (fun f => f.2 ≠ i), recalls := y.recalls.filter (fun w => w.entry ≠ i)
             waitFrame := y.waitFrame.filter (fun w => w.1 ≠ i), writes := y.writes.filter (fun w => w.entry ≠ i)
             fixes := if same ∨ m.num (kXCH_CFG + r) = 0 then Tab.del y.fixes i else Tab.put y.fixes i fix })
  (setTier now r i { m.tierEnt r i with state := if x.state = 5 then 5 else 0, key := key } m, fix.acts)

/-- One block of a tiered extent whose object of the cut lies in its frame. -/
def fixBlock (now r : Nat) (e : Extent) (b act : Nat) (present : List Byte) (m : Module) : Module × Bool :=
  let t := m.tierEnt r e.base
  let per := coldSize t.home / 256
  if act = 2 then
    match readPart now r 8 e b pW m with
    | (m, none) => (m, false)
    | (m, some w) => writeAll now r [(partAddr m r e b pBASIS, w), (partAddr m r e b pRES, zeros 512)] m
  else
    let (m, ok) := writeRun now r (partAddr m r e b pBASIS) (objSlots present (coldSlots t) (per * b + 12) (per - 12)) m
    if act = 0 ∨ !ok then (m, ok)
    else match readAll now r 8 ((partAddr m r e b pW, 1024) :: carryPlaces m r e b) m with
      | (m, none) => (m, false)
      | (m, some bs) =>
        let w := carryW (bs.getD 1 []) (bs.getD 0 []) bs[2]?
        writeAll now r [(partAddr m r e b pW, w), (partAddr m r e b pWC, (wcBytes e.wfmt [] (fvs32 w)).1)]
          (setHdr now r e b { m.hdr r e b with version := (m.hdr r e b).version + 1 } m)

/-- The blocks of tier entry i. -/
def fixAll (now r i : Nat) (f : TierFix) (m : Module) : Module × Bool :=
  match (m.extents r).find? (fun e => e.form == 2 && e.base == i) with
  | none => (m, true)
  | some e => (List.range f.acts.length).foldl (fun (a : Module × Bool) b =>
      let (m, ok) := fixBlock now r e b (f.acts.getD b 0) f.present a.1
      (m, a.2 && ok)) (m, true)

/-- Apply a verified shard; false where a part of it cannot be read or written. -/
def applyShard (now : Nat) (t : ManEnt) (e : Extent) (body : List Byte) (m : Module) : Module × Bool :=
  let (xs, tail) := recsOf t.count body
  let r := t.region
  let (m, acts) := if e.form = 2 then tierBack now r e t.count (fitB 16 tail) m else (m, [])
  (List.range xs.length).foldl (fun (a : Module × Bool) i =>
    let x := xs.getD i ⟨[], [], []⟩
    let (m, ok) := if e.form = 2 then applyTiered now r e (t.first + i) (acts.getD i 0) x a.1
      else if a.1.cuts.mode = 1 then applyRollback now r e (t.first + i) x a.1 else applyRejoin now r e (t.first + i) x a.1
    (m, a.2 && ok)) (m.bump kRESTORED_BLOCKS t.count, true)

/-! ### Restore: the two passes -/

/-- A shard fails while it is applied (R364). -/
def applyFails (i reason : Nat) (m : Module) : Module :=
  (restoreBad i reason (m.setNum kRESTORE_STATUS 5)).modCuts (fun c => { c with broken := true })

/-- An entry of the pass is at hand (none: the pool lacks it, or a local copy cannot be read). A part that cannot be read or written fails
it as a missing shard does (log entry 172). -/
def entryDone (now : Nat) (t : ManEnt) (e : Extent) (body : Option (List Byte)) (m : Module) : Module :=
  let i := m.cuts.next
  let m := m.modCuts (fun c => { c with next := i + 1, data := [] })
  let reason := match body with
    | none => 1
    | some bs => shardReason m t bs
  if m.num kRESTORE_STATUS = 1 then (if reason = 0 then m else restoreBad i reason m)
  else if reason ≠ 0 then applyFails i reason m
  else
    let (m, ok) := applyShard now t e (body.getD []) m
    if ok then m else applyFails i 1 m

/-- Go on with the pass: local shards at once, the next other one by GET. -/
def restorePass (now : Nat) : Nat → Module → Module
  | 0, m => m
  | n + 1, m =>
    if m.num kRESTORE_STATUS ≠ 1 ∧ m.num kRESTORE_STATUS ≠ 2 then m
    else if manEntries m.cuts.restore ≤ m.cuts.next then m.modCuts (fun c => { c with passed := true })
    else
      let t := manEnt m.cuts.restore m.cuts.next
      match m.extent? t.region t.ext with
      | none =>
        if m.num kRESTORE_STATUS = 2 then applyFails m.cuts.next 4 m
        else restorePass now n ((restoreBad m.cuts.next 4 m).modCuts (fun c => { c with next := c.next + 1 }))
      | some e =>
        if localAll m t e then
          match shardBody now t.region e t.first t.count m with
          | (m, body) => restorePass now n (entryDone now t e body m)
        else
          match poolSend now 16 7 m.cuts.next 0 (m.snapNum kPOOL_NODE) (poolHeader 3 0 0 0 t.digest) m with
          | (m, true) => m
          | (m, false) => restorePass now n (entryDone now t e none m)

def startPass (now : Nat) (m : Module) : Module :=
  restorePass now (manEntries m.cuts.restore + 1) (m.modCuts (fun c => { c with next := 0, data := [], passed := false }))

/-- The manifest is refused. -/
def manifestBad (reason : Nat) (m : Module) : Module := (restoreBad 0xFFFFFFFF reason m).modCuts (fun c => { c with passed := true, data := [] })

/-- The manifest is at hand: its signature and LAYOUT (R364, R441). -/
def checkManifest (now : Nat) (obj : List Byte) (m : Module) : Module :=
  let n := 128 + 64 * manEntries obj
  match manifestSigned now (obj.take n) (obj.drop n) m with
  | (m, ok) =>
    if !ok ∨ obj.length ≠ n + 3088 then manifestBad 5 m
    else if sliceB obj 56 32 ≠ layoutDigest m then manifestBad 4 m
    else startPass now (m.modCuts (fun c => { c with restore := obj.take n }))

/-- Data of a restore's GET: the object goes on after a full piece. -/
def restoreData (now : Nat) (bs : List Byte) (m : Module) : Module :=
  let m := m.modCuts (fun c => { c with data := c.data ++ bs })
  let head := m.cuts.restore = []
  let t := manEnt m.cuts.restore m.cuts.next
  let key := if head then m.blob kRESTORE_KEY else t.digest
  let fails := fun (m : Module) =>
    if head then manifestBad 1 m
    else match m.extent? t.region t.ext with
      | some e => restorePass now (manEntries m.cuts.restore + 1) (entryDone now t e none m)
      | none => m
  if !lastPiece m (m.snapNum kPOOL_NODE) bs then
    match poolSend now 16 7 m.cuts.next m.cuts.data.length (m.snapNum kPOOL_NODE) (poolHeader 3 0 0 m.cuts.data.length key) m with
    | (m, true) => m
    | (m, false) => fails m
  else if head then checkManifest now m.cuts.data m
  else
    match m.extent? t.region t.ext with
    | none => m
    | some e =>
      let (m, body) := mixLocal now t e m.cuts.data m
      restorePass now (manEntries m.cuts.restore + 1) (entryDone now t e (some body) m)

/-- A restore's GET failed: the object is absent. -/
def restoreAbsent (now : Nat) (m : Module) : Module :=
  if m.cuts.restore = [] then manifestBad 1 m
  else
    let t := manEnt m.cuts.restore m.cuts.next
    match m.extent? t.region t.ext with
    | some e => restorePass now (manEntries m.cuts.restore + 1) (entryDone now t e none m)
    | none => m

/-- Start a restore (R365). -/
def startRestore (now : Nat) (m : Module) : Module :=
  let m := (m.setNum kRESTORE_STATUS 1).setBlob kRESTORE_BAD []
  let m := m.modCuts (fun c => { c with pool := c.pool.filter (fun p => p.kind ≠ 7), mode := m.num kRESTORE_MODE, restore := [], data := [],
                                        next := 0, passed := false, bad := [], resync := [], toSkip := [] })
  match poolSend now 16 7 0 0 (m.snapNum kPOOL_NODE) (poolHeader 3 0 0 0 (m.blob kRESTORE_KEY)) m with
  | (m, true) => m
  | (m, false) => manifestBad 1 m

/-- The effect of a write of RESTORE_GO; the status answered. -/
def restoreGo (now v : Nat) (m : Module) : Module × Nat :=
  if 1 < v then (m, 2)
  else if v = 0 then (m, 0)
  else if (List.range 16).any (fun r => (m.work r).flights ≠ []) then (m, 9)
  else (startRestore now m, 0)

/-- RESTORE_GO (R365). -/
def execRestoreGo (v : Nat) (s : State) : Host.Outcome State Fault Refusal :=
  s.does (fun now m => let (m, st) := restoreGo now v m; m.status st)

/-- RESTORE_VERIFIED (R364): the verification pass has ended; nothing has been written so far. -/
def execRestoreVerified (s : State) : Host.Outcome State Fault Refusal :=
  s.does (fun now m =>
    if m.num kRESTORE_STATUS ≠ 1 ∨ !m.cuts.passed then m
    else if m.cuts.bad ≠ [] then m.setNum kRESTORE_STATUS 5
    else startPass now (m.setNum kRESTORE_STATUS 2))

/-- A home block adopts its own restored BASIS (R368). -/
def rejoinHome (now r : Nat) (e : Extent) (b : Nat) (m : Module) : Module :=
  let n := m.num kTAKEOVER_ROUND + 1
  let m := clearAcc now r 4 ((m.xchEnt r e.idx).macc + 1024 * b) (setHdr now r e b { m.hdr r e b with outerRnd := n } m)
  match readPart now r 7 e b pBASIS m with
  | (m, none) => m
  | (m, some bs) => queueCommit now r { ext := e.idx, blk := b, kind := 2, round := n, src := 1, vals := words256 bs } m

/-- OPEN_BLOCKS, counted anew. -/
def countOpen (m : Module) : Module :=
  m.setNum kOPEN_BLOCKS ((m.owners.map (fun r => ((m.blocksOf r).filter (fun x => (m.hdr r x.1 x.2).isOpen)).length)).sum)

/-- Regions of the module that exchange. -/
def exchanging (m : Module) : List Nat := m.owners.filter (fun r => m.num (kXCH_CFG + r) ≠ 0)

/-- What follows the application pass (R367, R368). -/
def restoreEnds (now : Nat) (m : Module) : Module :=
  let rejoin := m.cuts.mode = 2
  let m := if !rejoin then m
    else forL (exchanging m) m (fun r m => forL (m.blocksOf r) m (fun x m =>
      if x.1.form = 1 then rejoinHome now r x.1 x.2 m
      else if x.1.form = 2 then (resyncBlock now r x.1 x.2 [] m).1
      else match readPart now r 7 x.1 x.2 pW m with
        | (m, none) => m
        | (m, some w) => (resyncBlock now r x.1 x.2 w m).1))
  let m := countOpen m
  let m := m.setNum kRESYNC_LEFT m.cuts.resync.length
  let m := (m.setNum kRESTORE_STATUS (if m.cuts.resync = [] then 4 else 3)).modCuts (fun c => { c with broken := false })
  let m := forL (exchanging m) m (fun r m => runAll now r m)
  let m := if !rejoin then m
    else forL (exchanging m) m (fun r m => forL (m.sites.filter (fun s => s ≠ m.num kSITE_ID)) m (fun s m =>
      shipState now s r ((m.blocksOf r).filter (fun x => x.1.form = 1)) m))
  let m := forL (exchanging m) m (fun r m => forL (m.rg r).tier.fixes m (fun f m => startRecall now r f.1 m))
  forL (exchanging m) m (fun r m =>
    askResync now r ((m.blocksOf r).filter (fun x => m.cuts.resync.contains (r, posOf m r x.1 x.2))) m)

/-- RESTORE_APPLIED (R366–R368). -/
def execRestoreApplied (s : State) : Host.Outcome State Fault Refusal :=
  s.does (fun now m => if m.num kRESTORE_STATUS = 2 ∧ m.cuts.passed then restoreEnds now m else m)

/-! ### The tier's commands (R148–R152) -/

/-- The object of an extent that a restore has set back is at hand: first the one that holds its present exchange parts, then that of the
cut (log entry 172). -/
def presentArrived (now r i : Nat) (f : TierFix) (data : List Byte) (m : Module) : Module :=
  let m := m.modTier r (fun y => { y with fixes := Tab.put y.fixes i { f with old := [], present := data }
                                          recalls := y.recalls.filter (fun x => x.entry ≠ i) ++ [{ entry := i }] })
  let (m, ok) := poolSend now r 3 i 0 (m.tierHdr r).pool (poolHeader 3 0 0 0 (recallKey m r i)) m
  if ok then m else recallEnds now r i m

/-- The recalled object is in its frame: WARM, or DIRTY where a restore had more to do. -/
def recallDone (now r i : Nat) (m : Module) : Module :=
  let (m, ok) : Module × Bool := match Tab.find? (m.rg r).tier.fixes i with
    | some f => fixAll now r i f m
    | none => (m, true)
  let st := if (Tab.find? (m.rg r).tier.fixes i).isSome then 3 else 2
  if !ok then recallEnds now r i m
  else
    serveFrames now r ((setTier now r i { m.tierEnt r i with state := st } (m.bump kRECALLS 1)).modTier r (fun y =>
      { y with late := y.late.filter (· ≠ i), deadlines := Tab.del y.deadlines i, fixes := Tab.del y.fixes i }))

/-- The recalled object is checked against its key and placed (R149); a frame slot that cannot be written fails the recall (R135). -/
def recallArrived (now r i : Nat) (m : Module) : Module :=
  match (m.rg r).tier.recalls.find? (fun x => x.entry == i) with
  | none => m
  | some x =>
    if !x.full then m
    else
      let t := m.tierEnt r i
      let key := recallKey m r i
      let m := m.modTier r (fun y => { y with recalls := y.recalls.filter (fun x => x.entry ≠ i) })
      if (shake256 32 x.data).take 16 ≠ key then
        serveFrames now r (post now 2 7 (srcRegion r) (leBytes 2 i ++ zeros 2 ++ key.take 8) (setFailed now r i m))
      else match (Tab.find? (m.rg r).tier.fixes i).filter (fun f => f.old != []) with
        | some f => presentArrived now r i f x.data m
        | none =>
          let (m, ok) := placeObject now r 8 (frameAt m r t) (coldSlots t) x.data m
          if ok then recallDone now r i m else recallEnds now r i m

/-- RECALL_ARRIVAL (R149). -/
def execRecallArrival (r e : Nat) (s : State) : Host.Outcome State Fault Refusal :=
  guarded (okR r) (s.does (fun now m => recallArrived now r e m))

/-- The deadline passes: the update descriptors that need the extent complete with 0x06 (R151). -/
def recallLate (now r i : Nat) (m : Module) : Module :=
  let m := m.modTier r (fun y => { y with deadlines := Tab.del y.deadlines i })
  let st := (m.tierEnt r i).state
  if 2 ≤ st ∧ st ≤ 4 then m
  else
    let m := (m.bump kRECALL_LATE 1).modTier r (fun y => { y with late := if y.late.contains i then y.late else y.late ++ [i] })
    let hit := fun (x : Flight) => x.d.cls == 5 && x.phase == 4 && match m.extent? r (updOf x.d).extent with
      | some e => e.form == 2 && e.base == i
      | none => false
    forL ((m.work r).flights.filter hit) m (fun x m =>
      endFlight r x.id 6 x.flags x.aux now (m.modTrain r (fun t => { t with commits := t.commits.filter (fun c => c.flight ≠ x.id + 1) })))

/-- RECALL_DEADLINE_EXPIRY (R151). -/
def execRecallDeadlineExpiry (r e : Nat) (s : State) : Host.Outcome State Fault Refusal :=
  let d := Tab.find? (s.mod.rg r).tier.deadlines e
  guarded (okR r) (s.doesWhen d.isSome (d.getD 0) (fun now m => recallLate now r e m))

/-- WRITE_BACK (R152). -/
def execWriteBack (r e : Nat) (s : State) : Host.Outcome State Fault Refusal :=
  guarded (okR r) (s.does (fun now m => if m.num (kTIER_CFG + r) = 0 then m else startWriteBack now r e m))

/-- Write back every DIRTY extent. -/
def tierFlush (now r v : Nat) (m : Module) : Module × Nat :=
  if 1 < v then (m, 2)
  else if v = 0 ∨ m.num (kTIER_CFG + r) = 0 then (m, 0)
  else (forN (m.tierHdr r).entries m (fun i m => startWriteBack now r i m), 0)

/-- TIER_FLUSH (R152). -/
def execTierFlush (r v : Nat) (s : State) : Host.Outcome State Fault Refusal :=
  guarded (okR r) (s.does (fun now m => let (m, st) := tierFlush now r v m; m.status st))

/-! ### Replies of the pool (R359) -/

/-- What a reply brings, by the kind of the request. -/
def poolDone (now : Nat) (q : PoolReq) (p : PoolReply) (m : Module) : Module :=
  let bs := p.data.take p.len
  match q.kind with
  | 1 =>
    if p.pstatus = 0 then
      shardAcked now q.region ((m.bump kDEDUP_SHARDS 1).bump kDEDUP_BYTES (((m.rg q.region).cut.drain.map Drain.size).getD 0))
    else if p.pstatus = 1 then shardAbsent now q.region m else drainFailed now q.region m
  | 2 =>
    if p.pstatus ≠ 0 then drainFailed now q.region m
    else
      let m := m.modCut q.region (fun c => { c with drain := c.drain.map (fun d => { d with left := d.left - 1 }) })
      if ((m.rg q.region).cut.drain.map Drain.left).getD 1 = 0 then shardAcked now q.region m else m
  | 3 =>
    if p.pstatus ≠ 0 then recallEnds now q.region q.item m
    else
      let full := lastPiece m q.node bs
      let m := m.modTier q.region (fun t => { t with recalls := t.recalls.map (fun x => if x.entry = q.item then { x with data := x.data ++ bs, full := full } else x) })
      if full then m
      else
        let off := q.off + bs.length
        match poolSend now q.region 3 q.item off q.node (poolHeader 3 0 0 off (recallKey m q.region q.item)) m with
        | (m, true) => m
        | (m, false) => recallEnds now q.region q.item m
  | 4 =>
    if p.pstatus ≠ 0 then writeBackFailed now q.region q.item m
    else
      match (m.rg q.region).tier.writes.find? (fun w => w.entry == q.item) with
      | none => m
      | some w =>
        if w.left ≤ 1 then writeBackDone now q.region q.item w.key m
        else m.modTier q.region (fun t => { t with writes := t.writes.map (fun x => if x.entry = q.item then { x with left := x.left - 1 } else x) })
  | 5 =>
    if p.pstatus ≠ 0 then drainFailed now 0 m
    else
      let m := m.modCuts (fun c => { c with putLeft := c.putLeft - 1 })
      if m.cuts.putLeft ≠ 0 then m
      else match poolSend now 16 6 0 0 q.node (poolHeader 4 0 0 0 m.cuts.digest) m with
        | (m, true) => m
        | (m, false) => drainFailed now 0 m
  | 6 => if p.pstatus = 0 then manifestDone now m else drainFailed now 0 m
  | _ => if p.pstatus = 0 then restoreData now bs m else restoreAbsent now m

/-- A pool request fails for good: refused, or unanswered eight times (R149, R352). -/
def poolFails (now : Nat) (q : PoolReq) (m : Module) : Module :=
  match q.kind with
  | 1 => drainFailed now q.region m
  | 2 => drainFailed now q.region m
  | 3 => recallEnds now q.region q.item m
  | 4 => writeBackFailed now q.region q.item m
  | 5 => drainFailed now 0 m
  | 6 => drainFailed now 0 m
  | _ => restoreAbsent now m

/-- The pool request that waits under a tag. -/
def poolOf (m : Module) (tag : Nat) : Option (Req × PoolReq) :=
  match m.fabric.reqs.find? (fun q => q.tag == tag) with
  | none => none
  | some q => match q.owner with
    | .pool k => (m.cuts.pool.find? (fun p => p.k == k)).map (fun p => (q, p))
    | _ => none

def ownedByPool (q : Req) : Bool := match q.owner with
  | .pool _ => true
  | _ => false

/-- Has the generation of a tag's pool request moved on (R394)? -/
def poolLate (m : Module) (tag : Nat) : Bool :=
  m.fabric.reqs.any (fun q => q.tag == tag && ownedByPool q && q.gen != m.holderGen q.holder)

/-- A reply under a tag: the tag is free, the request done. A reply to a request that was given up frees its tag; one to a request of an
older generation is late. -/
def poolReply (now tag : Nat) (kinds : List Nat) (p : PoolReply) (m : Module) : Module :=
  if poolLate m tag then m.bump kLATE_REPLY 1
  else match poolOf m tag with
  | none => m.modFab (fun x => { x with reqs := x.reqs.filter (fun y => !(y.tag == tag && ownedByPool y)) })
  | some (_, q) =>
    if !kinds.contains q.kind then m
    else
      poolDone now q p ((m.modFab (fun x => { x with reqs := x.reqs.filter (fun y => y.tag ≠ tag) })).modCuts (fun c =>
        { c with pool := c.pool.filter (fun y => y.k ≠ q.k) }))

/-- POOL_QUERY_REPLY (R352). -/
def execPoolQueryReply (tag : Nat) (p : PoolReply) (s : State) : Host.Outcome State Fault Refusal :=
  s.does (fun now m => poolReply now tag [1] p m)

/-- POOL_PUT_REPLY (R352). -/
def execPoolPutReply (tag : Nat) (p : PoolReply) (s : State) : Host.Outcome State Fault Refusal :=
  s.does (fun now m => poolReply now tag [2, 4, 5] p m)

/-- POOL_GET_REPLY (R149). -/
def execPoolGetReply (tag : Nat) (p : PoolReply) (s : State) : Host.Outcome State Fault Refusal :=
  s.does (fun now m => poolReply now tag [3, 7] p m)

/-- POOL_COMMIT_REPLY (R358). -/
def execPoolCommitReply (tag : Nat) (p : PoolReply) (s : State) : Host.Outcome State Fault Refusal :=
  s.does (fun now m => poolReply now tag [6] p m)

/-- Put a tag in quarantine for twice a timeout (R242). -/
def quarantineTag (now tag timeout : Nat) (m : Module) : Module :=
  m.modFab (fun x => { x with reqs := x.reqs.filter (fun q => q.tag ≠ tag), quarantine := x.quarantine ++ [(tag, now + 2 * timeout)] })

/-- A pool request without an answer: sent again under a new tag, until its eighth try has failed (R149). -/
def poolRetry (now tag : Nat) (m : Module) : Module :=
  match poolOf m tag with
  | none => m
  | some (_, q) =>
    let m := quarantineTag now tag (50 * ms) (m.bump kTIMEOUTS 1)
    let forget := fun (m : Module) => m.modCuts (fun c => { c with pool := c.pool.filter (fun y => y.k ≠ q.k) })
    if 8 ≤ q.tries then poolFails now q (forget m)
    else
      let m := m.modCuts (fun c => { c with pool := c.pool.map (fun y => if y.k = q.k then { y with tries := y.tries + 1 } else y) })
      let (m, st) := issue now q.region (.pool q.k) noCtx (m.mkReq opPOOL (q.region % 16) (m.holderGen q.region) (mkAddr q.node 0 0) 0 q.body) m
      if st = 8 then poolFails now q (forget m) else m

/-- POOL_TIMEOUT (R149): 50 ms after the request was sent. -/
def execPoolTimeout (tag : Nat) (s : State) : Host.Outcome State Fault Refusal :=
  let q := (poolOf s.mod tag).filter (fun x => !x.1.parked)
  s.doesWhen q.isSome ((q.map (fun x => x.1.sentAt)).getD 0 + 50 * ms) (fun now m => poolRetry now tag m)

end Sys2Proof.Machine
end

