-- ==== Sys2Proof/Machine/Keys.lean ====
section
/-! DEFINITION. Line keys: opening frames (R437), handshakes (R433, R434), key updates and limits (R438, R439). -/

namespace Sys2Proof.Machine

/-! ### Slots -/

/-- The slot of the key that protects traffic on a way to a node (R432). -/
def slotOf (via : Via) (node : Nat) : Option Nat := match via with
  | .port p => if p < 88 then some (portSlot p) else none
  | .edge _ => some (edgeSlot node)
  | .mesh => none

/-- The node at the far end of a slot's key; a site switch is addressed as 32,767 (log entry 30). -/
def peerNode (m : Module) (slot : Nat) : Nat :=
  if slot < 56 then m.node / 8 * 8 + setPeer (m.node % 8) slot else if slot < 256 then 32767 else slot - 256

/-- The number that events give: the port, or the node. -/
def slotName (slot : Nat) : Nat := if slot < 256 then slot else slot - 256

def Module.protectsSlot (m : Module) (slot : Nat) : Bool := if slot < 256 then m.protectsPort slot else m.protectsEdge

/-- The retry window W (R439). -/
def retryWindow (slot : Nat) : Nat := if slot < 256 then 8 * us else 2 * sec

/-- PORT_KEY and EDGE_KEYS follow the keys (R443). -/
def noteKeys (slot : Nat) (m : Module) : Module :=
  let k := m.key slot
  if slot < 96 then m.setNum (kPORT_KEY + slot) (if k.recvOld.isSome then 3 else if k.established then 2 else if k.hs ≠ 0 then 1 else 0)
  else m.setNum kEDGE_KEYS ((m.security.keys.filter (fun x => decide (256 ≤ x.1) && x.2.established)).length)

def discardKey (slot : Nat) (m : Module) : Module := noteKeys slot (m.modKey slot (fun _ => {}))

/-- Chanter treats the node of an edge slot as held from now, where no key is in place (R432). -/
def keyGone (now slot : Nat) (m : Module) : Module :=
  if slot < 256 ∨ m.keyUsable slot then m else m.modKey slot (fun k => { k with gone := some (k.gone.getD now) })

/-- A key is discarded: the frames that need it wait, to an edge peer as to a held node (R437). -/
def loseKey (now slot : Nat) (m : Module) : Module :=
  let since := (m.key slot).gone
  keyGone now slot ((discardKey slot m).modKey slot (fun k => { k with gone := since }))

/-- A key is in place: the node that was held for want of it, since `gone`, is up again, unless Chanter holds it for its silence. -/
def keyBack (now slot : Nat) (gone : Option Nat) (m : Module) : Module :=
  match gone with
  | none => m
  | some g =>
    let m := m.modKey slot (fun k => { k with gone := none })
    match Tab.find? m.chanter.held (slot - 256) with
    | some h => m.bump kHELD_NS (h - g)
    | none => (m.bump kHELD_NS (now - g)).modCh (Chanter.resend (slot - 256))

/-! ### Handshake messages (R433) -/

/-- Bytes 0–1,607. -/
def kexHead (x : KexMsg) : List Byte :=
  leBytes 1 x.kind ++ zeros 1 ++ leBytes 2 x.node ++ leBytes 4 x.count ++ fitB 32 x.nonce ++ fitB 1568 x.kem

def kexBytes (x : KexMsg) : List Byte :=
  if x.kind = 3 then leBytes 1 3 ++ zeros 1 ++ leBytes 2 x.node ++ leBytes 4 x.count else kexHead x ++ sigBlock x.signature

def kexOf (b : List Byte) : KexMsg :=
  { kind := leAt b 0 1, node := leAt b 2 2, count := leAt b 4 4, nonce := sliceB b 8 32, kem := sliceB b 40 1568,
    signature := sliceB b 1616 (min 1280 (leAt b 1608 2)) }

/-- A dictionary request of Drone's. -/
def droneMsg (m : Module) (op index len : Nat) (data : List Byte) : DictMsg :=
  { ver := 1, kind := 1, op := op, flags := 0, seq := m.free % 65536, index := index, sub := 0, status := 0, len := len, offset := 0, time := 0, data := data }

/-- Send a handshake's request: for a port key on its link, for an edge key on an interface towards the peer. Could it be sent? -/
def kexTry (now slot kind : Nat) (x : DictMsg) (m : Module) : Module × Bool :=
  match m.newTag 16 with
  | none => (m, false)
  | some t =>
    let f := { m.mkReq opDICT 0 (m.dieGen 0) (mkAddr (peerNode m slot) 0 0) 0 (dictBytes x) with tag := t }
    let (m, ok) : Module × Bool :=
      if slot < 256 then (if m.up slot then (sendPort now slot f m, true) else (m, false)) else let (m, st) := send now f m; (m, st = 0)
    if ok then
      (m.modFab (fun y => { y with reqs := y.reqs ++ [{ tag := t, holder := 16, owner := .kex slot kind, gen := m.dieGen 0, frame := f, sentAt := now, parked := waitsAtPort m f }] }), true)
    else (m, false)

/-- A handshake message as a WRITE to the peer's KEX_MAILBOX. -/
def kexMail (m : Module) (x : KexMsg) : DictMsg := droneMsg m 2 0x9020 (kexBytes x).length (kexBytes x)

/-- The response message to a dictionary request (R301). -/
def dictAnswer (now : Nat) (x : DictMsg) (st : Nat) (data : List Byte) : DictMsg :=
  { x with kind := 2, status := st, len := data.length, time := now, data := data }

/-- Answer the INIT that waited. -/
def answerHeld (now slot st : Nat) (m : Module) : Module :=
  let m := m.status st
  match (m.key slot).hsFrame with
  | none => m
  | some (f, via) => sendVia now via (f.answer st 0 (dictBytes (dictAnswer now (dictOfBytes f.body) st []))) (m.modKey slot (fun k => { k with hsFrame := none }))

/-- The initiator is the end with the lower node number; the module always initiates towards a switch. -/
def initiates (m : Module) (slot : Nat) : Bool := (decide (56 ≤ slot) && decide (slot < 256)) || decide (m.node < peerNode m slot)

/-- Is a public key the one that the trust table names for the slot's peer? -/
def trustedPeer (m : Module) (slot : Nat) (pub : List Byte) : Bool :=
  if 56 ≤ slot ∧ slot < 256 then m.trusts 2 none (fingerprint pub) else m.trusts 0 (some (peerNode m slot)) (fingerprint pub)

def endHandshake (slot : Nat) (m : Module) : Module := noteKeys slot (m.modKey slot (fun k => { k with hs := 0, hsWait := none }))

/-- A handshake ends that could not send its request, or had no answer: its initiator begins it again (log entry 186). -/
def kexLater (slot : Nat) (m : Module) : Module := (endHandshake slot m).modKey slot (fun k => { k with want := initiates m slot })

/-- "handshake refused" (R433, R442): the node, and the fingerprint found; zeros where no key has been read. -/
def kexRefusal (now slot : Nat) (print : List Byte) (m : Module) : Module := post now 10 3 srcDrone (leBytes 2 (slotName slot) ++ print.take 10) m

/-- A handshake is refused, and ends. -/
def kexRefused (now slot : Nat) (print : List Byte) (m : Module) : Module := kexRefusal now slot print (endHandshake slot m)

/-- The fingerprint of the peer's key as read last. -/
def printFound (m : Module) (slot : Nat) : List Byte := if (m.key slot).peerPub = [] then zeros 16 else fingerprint (m.key slot).peerPub

/-- A message that fails a check is answered with 0x02, and its refusal posted. -/
def kexStray (now slot : Nat) (m : Module) : Module := kexRefusal now slot (printFound m slot) m

/-- Read the peer's IDENTITY_PUBKEY. A responder that cannot refuses the INIT that waits. -/
def readPeerKey (now slot : Nat) (m : Module) : Module :=
  match kexTry now slot 1 (droneMsg m 1 0x9001 1793 []) m with
  | (m, true) => m
  | (m, false) => if (m.key slot).hs = 3 then answerHeld now slot 2 (kexRefused now slot (zeros 16) m) else kexLater slot m

/-- Begin a handshake as its initiator. -/
def startHandshake (now slot : Nat) (m : Module) : Module :=
  if !m.protectsSlot slot ∨ !initiates m slot ∨ m.security.disabled then m
  else readPeerKey now slot (noteKeys slot (m.modKey slot (fun k => { k with hs := 1, want := false })))

/-- A fresh handshake (R437, R438). The end that does not initiate asks the other by a write of its REKEY, while a key is in place (DESIGN
CHOICE, log entry 186). -/
def freshHandshake (now slot : Nat) (m : Module) : Module :=
  if initiates m slot then startHandshake now slot m
  else if m.protectsSlot slot ∧ m.keyUsable slot then dictWriteTo now (peerNode m slot) kREKEY 2 m.node m
  else m

/-- Handshakes that could not be sent begin again, at each beat of Drone (log entry 186). -/
def retryKex (now : Nat) (m : Module) : Module :=
  forL ((m.security.keys.filter (fun k => k.2.want && k.2.hs == 0)).map (·.1)) m (fun slot m => startHandshake now slot m)

/-- The master of a handshake (R434). -/
def kexMaster (m : Module) (slot peer : Nat) (ss init reply : List Byte) : List Byte :=
  let lo := if initiates m slot then m.node else peer
  let hi := if initiates m slot then peer else m.node
  let label : List Byte := [0x48, 0x58, 0x39, 0x36, 0x31, 0x36, 0x20, 0x6C, 0x69, 0x6E, 0x65]
  shake256 64 (label ++ ss ++ shake256 32 (init ++ reply) ++ leBytes 2 lo ++ leBytes 2 hi)

/-- The engine loads the keys of a handshake: index 0 in both directions, under the next epoch after the one in force. Are they in place? -/
def installKeys (now slot : Nat) (master : List Byte) (m : Module) : Module × Bool :=
  match engineOp now 4 m with
  | (m, false) => (endHandshake slot m, false)
  | (m, true) =>
    let gone := (m.key slot).gone
    (keyBack now slot gone (noteKeys slot ((m.modKey slot (fun k =>
      { peerPub := k.peerPub, hsFrame := k.hsFrame, master := master, established := true, since := now,
        sendBase := if k.established then (k.sendIdx + k.sendBase + 1) % 2 else 0,
        recvBase := if k.established then (k.recvIdx + k.recvBase + 1) % 2 else 0 })).bump kHANDSHAKES 1)), true)

/-- The initiator sends INIT. -/
def sendInit (now slot : Nat) (m : Module) : Module :=
  match engineOp now 2 m with
  | (m, false) => endHandshake slot m
  | (m, true) =>
    let seed := m.free
    let x : KexMsg := { kind := 1, node := m.node, count := 0, nonce := Config.randomBytes m.free 32, kem := Config.kemPublic seed, signature := [] }
    match engineSign now (kexHead x) m.useFree with
    | (m, none) => endHandshake slot m
    | (m, some sig) =>
      let x := { x with signature := sig }
      match kexTry now slot 2 (kexMail m x) (m.modKey slot (fun k => { k with hs := 2, hsSeed := seed, hsMsg := kexBytes x })) with
      | (m, true) => m
      | (m, false) => kexLater slot m

/-- The responder has the initiator's key: INIT is verified, encapsulated to, and answered with REPLY. -/
def answerInit (now slot : Nat) (m : Module) : Module :=
  let k := m.key slot
  match k.hsWait with
  | none => m
  | some x =>
    let fail := fun (m : Module) => answerHeld now slot 2 (kexRefused now slot (fingerprint k.peerPub) m)
    match engineVerify now k.peerPub (kexHead x) x.signature m with
    | (m, false) => fail m
    | (m, true) => match engineOp now 2 m with
      | (m, false) => fail m
      | (m, true) =>
        let (ss, ct) := Config.kemEncaps x.kem m.free
        let y : KexMsg := { kind := 2, node := m.node, count := 0, nonce := Config.randomBytes m.free 32, kem := ct, signature := [] }
        match engineSign now (kexHead y ++ shake256 32 (kexBytes x)) m.useFree with
        | (m, none) => fail m
        | (m, some sig) =>
          let y := { y with signature := sig }
          -- REPLY leaves before the keys that it establishes
          match kexTry now slot 3 (kexMail m y) m with
          | (m, false) => fail m
          | (m, true) => match engineOp now 3 (answerHeld now slot 0 m) with
            | (m, false) => endHandshake slot m
            | (m, true) => (installKeys now slot (kexMaster m slot x.node ss (kexBytes x) (kexBytes y)) m).1

/-- An INIT arrives; its answer may wait for the initiator's key. -/
def takeInit (now slot : Nat) (x : KexMsg) (held : Option (Frame × Via)) (m : Module) : Module :=
  let m := m.modKey slot (fun k => { k with hsFrame := held })
  if m.protectsSlot slot ∧ initiates m slot then answerHeld now slot 9 m
  else if !m.protectsSlot slot ∨ x.node ≠ peerNode m slot ∨ m.security.disabled then answerHeld now slot 2 (kexStray now slot m)
  else readPeerKey now slot (noteKeys slot (m.modKey slot (fun k => { k with hs := 3, hsWait := some x })))

/-- A REPLY arrives. Answers its status. -/
def takeReply (now slot : Nat) (x : KexMsg) (m : Module) : Module × Nat :=
  let k := m.key slot
  if !m.protectsSlot slot ∨ k.hs ≠ 2 then (kexStray now slot m, 2)
  else
    let refused := fun (m : Module) => (kexRefused now slot (fingerprint k.peerPub) m, 2)
    match engineVerify now k.peerPub (kexHead x ++ shake256 32 k.hsMsg) x.signature m with
    | (m, false) => refused m
    | (m, true) => match engineOp now 2 m with
      | (m, false) => refused m
      | (m, true) => match engineOp now 3 m with
        | (m, false) => refused m
        | (m, true) => match installKeys now slot (kexMaster m slot x.node (Config.kemDecaps k.hsSeed x.kem) k.hsMsg (kexBytes x)) m with
          | (m, false) => refused m
          | (m, true) => (m, 0)

/-- An UPDATE arrives: key n + 1 beside key n (R439). -/
def takeUpdate (now slot : Nat) (x : KexMsg) (m : Module) : Module × Nat :=
  let k := m.key slot
  if !m.protectsSlot slot ∨ !k.established then (kexStray now slot m, 2)
  else if k.recvOld.isSome then (m, 9)
  else if x.count ≠ k.recvIdx + 1 then (kexStray now slot m, 2)
  else match engineOp now 3 m with
    | (m, false) => (m, 2)
    | (m, true) => match engineOp now 4 m with
    | (m, false) => (m, 2)
    | (m, true) =>
      (noteKeys slot (m.modKey slot (fun k =>
        { k with recvOld := some k.recvIdx, recvIdx := k.recvIdx + 1, oldFirst := none, oldWindow := k.window, window := [] })), 0)

/-- A write to KEX_MAILBOX: the message is taken by its KIND; the status where the answer is not held. -/
def takeKex (now slot : Nat) (x : KexMsg) (held : Option (Frame × Via)) (m : Module) : Module × Option Nat :=
  if x.kind = 1 then (takeInit now slot x held m, none)
  else if x.kind = 2 then let (m, st) := takeReply now slot x m; (m, some st)
  else if x.kind = 3 then let (m, st) := takeUpdate now slot x m; (m, some st)
  else (kexStray now slot m, some 2)

/-- The response to a handshake's request, or its failure with a status. -/
def kexResponse (now slot kind st : Nat) (data : List Byte) (m : Module) : Module :=
  let k := m.key slot
  match kind with
  | 1 =>
    if k.hs ≠ 1 ∧ k.hs ≠ 3 then m
    else
      let m := m.modKey slot (fun k => { k with peerPub := data })
      if k.hs = 1 ∧ (st = 4 ∨ st = 8) then kexLater slot m
      else if st ≠ 0 ∨ !trustedPeer m slot data then
        let m := kexRefused now slot (fingerprint data) m
        if k.hs = 3 then answerHeld now slot 2 m else m
      else if k.hs = 1 then sendInit now slot m else answerInit now slot m
  | 2 => if st = 0 then m else if st = 4 ∨ st = 8 then kexLater slot m else endHandshake slot m
  | 3 => if st = 0 then m else loseKey now slot m
  | _ =>
    if st = 0 then
      match engineOp now 4 m with
      | (m, false) => m.modKey slot (fun k => { k with updating := false })
      | (m, true) =>
        let gone := (m.key slot).gone
        keyBack now slot gone ((m.bump kKEY_UPDATES 1).modKey slot (fun k =>
          { k with updating := false, sendIdx := k.sendIdx + 1, sendCounts := [], since := now, limitPosted := false, retryAt := none }))
    else if st = 9 then m.modKey slot (fun k => { k with retryAt := some (now + 2 * retryWindow slot) })
    else m.modKey slot (fun k => { k with updating := false })

/-- Send an UPDATE under the key in force (R439); one that cannot be sent stays due. -/
def sendUpdate (now slot : Nat) (m : Module) : Module :=
  match engineOp now 3 m with
  | (m, false) => m
  | (m, true) =>
    match kexTry now slot 4 (kexMail m { kind := 3, node := m.node, count := (m.key slot).sendIdx + 1, nonce := [], kem := [], signature := [] }) m with
    | (m, false) => m
    | (m, true) => m.modKey slot (fun k => { k with updating := true, retryAt := none })

/-! ### Opening a frame (R436, R437) -/

/-- The slot whose key protects a received frame: the port's, or that of the far node. -/
def recvSlot (via : Via) (f : Frame) : Option Nat := slotOf via (if f.rsp then addrNode f.addr else f.srcNode)

/-- May a frame with this security word be taken after those in a window? -/
def windowTakes (isPort : Bool) (w : List Nat) (word : Nat) : Bool :=
  let count := bits word 61 0
  if isPort then w.all (fun x => decide (bits x 61 0 < count))
  else !w.contains word && w.all (fun x => bits x 63 62 != bits word 63 62 || decide (bits x 61 0 < count + 4096))

/-- A window after a frame has been taken: what can still be told apart from a repeat. -/
def windowAdd (isPort : Bool) (w : List Nat) (word : Nat) : List Nat :=
  if isPort then [word]
  else
    let top := (word :: w).foldl (fun a x => if bits x 63 62 = bits word 63 62 then max a (bits x 61 0) else a) 0
    word :: w.filter (fun x => bits x 63 62 != bits word 63 62 || decide (top < bits x 61 0 + 4096))

/-- A tag failure: counted; after 16 under one key within 1 s the key is discarded and a fresh handshake runs. -/
def tagFailed (now slot idx : Nat) (m : Module) : Module :=
  let m := (m.bump kAUTH_FAIL 1).bump kBAD_FRAME 1
  let m := m.modKey slot (fun k => { k with fails := (k.fails.filter (fun t => decide (now < t.2 + sec))) ++ [(idx, now)] })
  if ((m.key slot).fails.filter (fun t => t.1 == idx)).length < 16 then m
  else
    let lost := fun (m : Module) => post now 10 2 srcDrone (leBytes 2 (slotName slot) ++ leBytes 4 idx) (loseKey now slot m)
    if initiates m slot then freshHandshake now slot (lost m) else lost (freshHandshake now slot m)

/-- Open a frame that carries ENC or AUTH. None: dropped. -/
def openFrame (now slot : Nat) (f : Frame) (m : Module) : Module × Option Frame :=
  let k := m.key slot
  let isPort := decide (slot < 256)
  let cur := k.established && (k.recvIdx + k.recvBase) % 2 == f.epoch
  let old := k.recvOld.isSome && ((k.recvOld.getD 0) + k.recvBase) % 2 == f.epoch
  if !k.established then ((m.bump kAUTH_FAIL 1).bump kBAD_FRAME 1, none)
  else if !cur ∧ !old then (m.bump kOLD_EPOCH_DROP 1, none)
  else
    let idx := if cur then k.recvIdx else k.recvOld.getD 0
    let (key, salt) := deriveKey k.master (1 - m.sendDir slot) idx
    let nonce := salt ++ leBytes 8 f.sec
    let aad := f.header 0 ++ leBytes 8 f.sec
    let plain := if f.enc then Config.gcmBody key nonce f.body else f.body
    let tag := if f.enc then Config.gcmTag key nonce aad plain else Config.gcmTag key nonce (aad ++ f.body) []
    if tag ≠ f.mac.take 16 then (tagFailed now slot idx m, none)
    else if !windowTakes isPort (if cur then k.window else k.oldWindow) f.sec then (m.bump kREPLAY_DROP 1, none)
    else
      let m := m.modKey slot (fun k =>
        if cur then { k with window := windowAdd isPort k.window f.sec, oldFirst := if k.recvOld.isSome then some (k.oldFirst.getD now) else none }
        else { k with oldWindow := windowAdd isPort k.oldWindow f.sec })
      (m, some { f with body := plain, enc := false, auth := false, epoch := 0, sec := 0, mac := f.mac.drop 16 })

/-- A received frame, checked by LINE_ENC (R432): opened, taken in clear, or dropped. -/
def admitFrame (now : Nat) (via : Via) (f : Frame) (m : Module) : Module × Option Frame :=
  match recvSlot via f with
  | none => (m, some f)
  | some slot =>
    if f.enc ∨ f.auth then
      if m.protectsSlot slot then openFrame now slot f m else (m.bump kBAD_FRAME 1, none)
    else if m.protectsSlot slot ∧ !f.kexClear then (m.bump kCLEAR_DROP 1, none)
    else (m, some f)

/-! ### Peers -/

/-- Nodes with an edge key: FLAGS[0] entries that an edge interface leads to (R433). -/
def edgePeers (m : Module) : List Nat :=
  ((m.trust.filter (fun t => t.flags.testBit 0)).map (·.node)).filter (fun n =>
    n != m.node && n / 8 != m.node / 8 && !(m.kindOf n == 0 && m.siteOf n == m.siteOf m.node) && m.kindOf n != 3)

/-- The timer of KEX_HOURS. -/
def tKEX : Nat := 1

/-- Handshakes with every peer: edge keys, and port keys under LINE_ENC 2. -/
def handshakeAll (now : Nat) (ports : Bool) (m : Module) : Module :=
  let m := forL (edgePeers m) m (fun n m => startHandshake now (edgeSlot n) m)
  if ports then forN 88 m (fun p m => if m.up p then startHandshake now (portSlot p) m else m) else m

/-- A write of REKEY (R438). -/
def rekey (now node : Nat) (m : Module) : Module :=
  let named := fun (n : Nat) => node == 0xFFFF || n == node
  let m := forL ((edgePeers m).filter named) m (fun n m => freshHandshake now (edgeSlot n) m)
  forN 88 m (fun p m => if m.up p ∧ named (peerNode m p) then freshHandshake now (portSlot p) m else m)

/-! ### The commands -/

/-- The effect of a handshake command on its slot. -/
def onSlot (via : Via) (node : Nat) (f : Nat → Module → Module) (m : Module) : Module :=
  match slotOf via node with
  | none => m
  | some slot => f slot m

def okVia (via : Via) : Bool := match via with
  | .mesh => true
  | .port p => okP p
  | .edge e => okE e

/-- INIT (R433). -/
def execInit (via : Via) (x : KexMsg) (s : State) : Host.Outcome State Fault Refusal :=
  guarded (okVia via) (s.does (fun now m => onSlot via x.node (fun slot m => takeInit now slot x none m) m))

/-- REPLY (R433). -/
def execReply (via : Via) (x : KexMsg) (s : State) : Host.Outcome State Fault Refusal :=
  guarded (okVia via) (s.does (fun now m => onSlot via x.node (fun slot m => let (m, st) := takeReply now slot x m; m.status st) m))

/-- UPDATE (R439). -/
def execUpdate (via : Via) (x : KexMsg) (s : State) : Host.Outcome State Fault Refusal :=
  guarded (okVia via) (s.does (fun now m => onSlot via x.node (fun slot m => let (m, st) := takeUpdate now slot x m; m.status st) m))

/-- HANDSHAKE_START (R433). -/
def execHandshakeStart (via : Via) (node : Nat) (s : State) : Host.Outcome State Fault Refusal :=
  guarded (okVia via) (s.does (fun now m => onSlot via node (fun slot m => startHandshake now slot m) m))

/-- REKEY (R438). -/
def execRekey (node : Nat) (s : State) : Host.Outcome State Fault Refusal :=
  s.does (fun now m => (rekey now node m).status 0)

/-- When the sending key of a slot is to be renewed: at its soft frame limit, or after KEY_UPDATE_S (R438). -/
def updateDue (m : Module) (slot : Nat) : Option Nat :=
  let k := m.key slot
  if !k.established ∨ k.updating then none
  else if 2 ^ m.num kKEY_FRAMES_LOG2 ≤ k.sent then some 0 else some (k.since + m.num kKEY_UPDATE_S * sec)

/-- KEY_UPDATE_TIMER (R438). -/
def execKeyUpdateTimer (via : Via) (node : Nat) (s : State) : Host.Outcome State Fault Refusal :=
  let slot := slotOf via node
  let d := slot.bind (updateDue s.mod)
  guarded (okVia via) (s.doesWhen d.isSome (d.getD 0) (fun now m => sendUpdate now (slot.getD 0) m))

/-- KEY_UPDATE_RETRY (R439): 2W after an answer of 0x09. -/
def execKeyUpdateRetry (via : Via) (node : Nat) (s : State) : Host.Outcome State Fault Refusal :=
  let slot := slotOf via node
  let d := slot.bind (fun n => (s.mod.key n).retryAt)
  guarded (okVia via) (s.doesWhen d.isSome (d.getD 0) (fun now m => sendUpdate now (slot.getD 0) m))

/-- KEY_RETIRE (R439): 2W after the first frame under the newer key. -/
def execKeyRetire (via : Via) (node : Nat) (s : State) : Host.Outcome State Fault Refusal :=
  let slot := slotOf via node
  let d := slot.bind (fun n => (s.mod.key n).oldFirst)
  guarded (okVia via) (s.doesWhen d.isSome (d.getD 0 + 2 * retryWindow (slot.getD 0)) (fun _ m =>
    noteKeys (slot.getD 0) (m.modKey (slot.getD 0) (fun k => { k with recvOld := none, oldFirst := none, oldWindow := [] }))))

/-- KEX_HOURS_TIMER (R433). -/
def execKexHoursTimer (s : State) : Host.Outcome State Fault Refusal :=
  s.doesWhen s.mod.protectsEdge (s.mod.timer tKEX + s.mod.num kKEX_HOURS * 3600 * sec) (fun now m =>
    handshakeAll now false (m.setTimer tKEX now))

end Sys2Proof.Machine
end

