-- ==== Sys2Proof/Machine/Response.lean ====
section
/-! DEFINITION. Responses (R236, R237, R394), tags and their quarantine (R241, R242), and POOL frames (R359). -/

namespace Sys2Proof.Machine

/-! ### Owners -/

/-- A request ends without a usable response: its owner's frame takes a status. -/
def ownerFails (now holder : Nat) (o : Owner) (st : Nat) (m : Module) : Module :=
  match o with
  | .none => m
  | .flight id idx => fabricDone now holder id (noteResult holder id idx st 0 m)
  | .ring i => descResponse i st m
  | .mgmt i => mgmtResponse now i st [] m
  | .doorbell k => doorbellDone now k m
  | .pool k =>
    match m.cuts.pool.find? (fun p => p.k == k) with
    | none => m
    | some q => poolFails now q (m.modCuts (fun c => { c with pool := c.pool.filter (fun y => y.k ≠ k) }))
  | .kex slot kind => kexResponse now slot kind st [] m

/-- A pool reply from a frame body (R359). -/
def poolReplyOf (b : List Byte) : PoolReply :=
  { pstatus := leAt b 0 1, len := leAt b 2 2, size := leAt b 8 8, data := b.drop 16 }

/-- Hand a response to the owner of its request. -/
def ownerTakes (now : Nat) (q : Req) (f : Frame) (m : Module) : Module :=
  match q.owner with
  | .none => m
  | .flight id idx =>
    match (m.work q.holder).flight? id with
    | some x => flightResponse now q.holder x idx q.frame f m
    | none => m
  | .ring i => descResponse i f.status m
  | .mgmt i => mgmtResponse now i f.status f.body m
  | .doorbell k => doorbellDone now k m
  | .pool k =>
    match m.cuts.pool.find? (fun p => p.k == k) with
    | none => m
    | some p => if f.status ≠ 0 then ownerFails now q.holder q.owner f.status m
      else poolDone now p (poolReplyOf f.body) (m.modCuts (fun c => { c with pool := c.pool.filter (fun y => y.k ≠ k) }))
  | .kex slot kind =>
    let x := dictOfBytes f.body
    kexResponse now slot kind (if f.status ≠ 0 then f.status else x.status) x.data m

/-! ### Responses -/

/-- Does LEN agree with the OP of a response (R234)? -/
def rspLenOk (f : Frame) : Bool :=
  f.len == f.body.length && decide (f.len ≤ 4096) &&
    (if f.op = opWRITE ∨ f.op = opRELEASE ∨ f.op = opSIGNAL ∨ f.op = opSTAGE ∨ f.op = opCOLL ∨ f.op = opREGWR ∨ f.op = opDESC then f.len == 0 else true)

/-- Bytes of n blocks in stored form: a code word and the sectors of its two slots each (R235). -/
def storedBlocks : Nat → List Byte → Nat
  | 0, _ => 0
  | n + 1, bs =>
    let used := 8 + 32 * (sectorsOf (leAt bs 0 1 % 16) + sectorsOf (leAt bs 0 1 / 16))
    used + storedBlocks n (bs.drop used)

/-- Does LEN agree with what its request q asked for (R234, R235)? A response with a status that carries no result has no body. -/
def rspAgrees (q f : Frame) : Bool :=
  let copies := ceilDiv q.aux 2 * 8
  if f.op = opREAD then
    (if f.status ≠ 0 then f.len == 0
     else if q.stored then f.len == 8 + (((List.range (q.aux / 256)).map (fun i => 32 * sectorsOf (leAt f.body 0 8 / 16 ^ i % 16))).sum)
     else f.len == q.aux)
  else if f.op = opREGRD then f.len == (if f.status = 0 then q.aux else 0)
  else if f.op = opGATHER ∨ f.op = opREFETCH then
    f.len == 0 && f.status != 0 || (f.len == copies + (if q.stored then storedBlocks q.aux (f.body.drop copies) else 512 * q.aux))
  else if f.op = opACCUM then f.len == 0
  else if f.op = opDICT then (f.len == 0 && f.status != 0) || decide (24 ≤ f.len)
  else if f.op = opPOOL then (f.len == 0 && f.status != 0) || decide (16 ≤ f.len)
  else true

/-- Has the requester's generation moved on since the request was sent (R394)? -/
def lateFor (m : Module) (q : Req) (f : Frame) : Bool :=
  f.gen != m.holderGen q.holder || (decide (q.holder < 16) && decide (q.ctx < 8) && m.cgen q.holder q.ctx != q.ctxGen)

/-- Take a response: dropped as bad, misrouted or late, or its tag is free and its owner goes on. -/
def takeResponse (now : Nat) (f : Frame) (via : Via) (m : Module) : Module :=
  let m := takeFrame via f m
  if f.ver ≠ 1 ∨ !f.rsp ∨ opReserved f.op ∨ !rspLenOk f ∨ f.enc ∨ f.auth then m.bump kBAD_FRAME 1
  else if f.srcNode ≠ m.node then m.bump kMISROUTED 1
  else
    match m.fabric.reqs.find? (fun q => q.tag == f.tag) with
    | none => m.bump kLATE_REPLY 1
    | some q =>
      if lateFor m q f then m.bump kLATE_REPLY 1
      else if q.frame.op ≠ f.op ∨ !rspAgrees q.frame f then m.bump kBAD_FRAME 1
      else ownerTakes now q f (m.modFab (fun x => { x with reqs := x.reqs.filter (fun y => y.tag ≠ f.tag) }))

/-- FABRIC_RESPONSE (R252, R394). -/
def execFabricResponse (f : Frame) (via : Via) (s : State) : Host.Outcome State Fault Refusal :=
  s.does (fun now m => takeResponse now f via m)

/-! ### Tags (R241, R242) -/

/-- The first request of a holder that waits for a tag takes one. -/
def tagAcquire (now holder : Nat) (m : Module) : Module :=
  match m.fabric.waiting.find? (fun w => w.holder == holder), m.newTag holder with
  | some w, some t =>
    let m := m.modFab (fun x => { x with waiting := x.waiting.erase w })
    let (m, st) := sendTagged now t holder w.owner w.ctx w.frame (m.bump kTAG_WAIT_NS (now - w.since))
    if st = 0 then m else ownerFails now holder w.owner st m
  | _, _ => m

/-- TAG_ACQUIRE (R241). -/
def execTagAcquire (holder : Nat) (s : State) : Host.Outcome State Fault Refusal :=
  guarded (decide (holder < 18)) (s.does (fun now m => tagAcquire now holder m))

/-- A request that has no response in time completes with 0x04; its tag is quarantined. A pool request is sent again. -/
def requestTimeout (now tag : Nat) (m : Module) : Module :=
  match m.fabric.reqs.find? (fun q => q.tag == tag) with
  | none => m
  | some q =>
    if (poolOf m tag).isSome then poolRetry now tag m
    else ownerFails now q.holder q.owner 4 (quarantineTag now tag (timeoutOf q.frame.op) (m.bump kTIMEOUTS 1))

/-- REQUEST_TIMEOUT (R242): counted from the first send. -/
def execRequestTimeout (tag : Nat) (s : State) : Host.Outcome State Fault Refusal :=
  let q := s.mod.fabric.reqs.find? (fun q => q.tag == tag && !q.parked)
  s.doesWhen q.isSome ((q.map (fun x => x.sentAt + timeoutOf x.frame.op)).getD 0) (fun now m => requestTimeout now tag m)

/-- TAG_QUARANTINE_END (R242): twice the timeout after the tag's request timed out. -/
def execTagQuarantineEnd (tag : Nat) (s : State) : Host.Outcome State Fault Refusal :=
  let q := s.mod.fabric.quarantine.find? (fun x => x.1 == tag)
  s.doesWhen q.isSome ((q.map (·.2)).getD 0) (fun _ m =>
    m.modFab (fun x => { x with quarantine := x.quarantine.filter (fun y => y.1 ≠ tag) }))

/-! ### POOL (R359) -/

/-- POOL (R359): a reply ends the request under its tag. A module serves no pool request: it answers one with 0x02. -/
def execPool (f : Frame) (via : Via) (s : State) : Host.Outcome State Fault Refusal :=
  s.does (fun now m =>
    if f.rsp ∧ f.op = opPOOL then takeResponse now f via m
    else serve now opPOOL f via false (respond now f 2 0 []) m)

end Sys2Proof.Machine
end

