-- ==== Sys2Proof/Machine/Links.lean ====
section
/-! DEFINITION. Links: acknowledgement, replay and retraining (R238, R239), credits (R240), port states (R230, R256, R257), and
what edge interfaces receive (R253, R254, R261). -/

namespace Sys2Proof.Machine

/-! ### Leaving a port -/

/-- Send a frame again on another way, with RETRY = 1 when it had been sent; without one its request completes with 0x08. -/
def reroute (now : Nat) (retry : Bool) (f : Frame) (m : Module) : Module :=
  let (m, st) := send now { f with retry := f.retry || retry } m
  if st = 0 ∨ f.rsp then m
  else
    match m.fabric.reqs.find? (fun q => q.tag == f.tag && q.frame.op == f.op) with
    | none => m
    | some q => ownerFails now q.holder q.owner 8 (m.modFab (fun x => { x with reqs := x.reqs.filter (fun y => y.tag ≠ f.tag) }))

/-- The frames of a port that is out of service go elsewhere. -/
def emptyPort (now p : Nat) (m : Module) : Module :=
  let x := m.port p
  let m := m.modPort p (fun x => { x with unacked := [], waiting := [], replayed := [], ackDue := false, nakSent := false })
  let m := forL x.unacked m (fun u m => reroute now true u.2.1 m)
  forL x.waiting m (fun f m => reroute now false f m)

/-- A port starts training (R239); its key is discarded (R434). -/
def startTraining (p : Nat) (m : Module) : Module :=
  let m := (m.setPortState p 1).bump (kRETRAINS + p) 1
  let m := m.modPort p (fun x => { x with attempts := 0 })
  if p < 88 then discardKey (portSlot p) m else m

/-- An UP port leaves service for TRAINING (R239). -/
def retrain (now p : Nat) (m : Module) : Module := emptyPort now p (startTraining p m)

/-! ### Acknowledgement and replay (R238) -/

/-- Frames before sequence number n, among unacknowledged ones. -/
def framesBefore (n : Nat) (us : List (Nat × Frame × Nat)) : Nat :=
  if us.any (fun u => u.1 == n) then (us.takeWhile (fun u => u.1 != n)).length else 0

/-- Free the first n unacknowledged frames. -/
def freeUnacked (p n : Nat) (m : Module) : Module :=
  if n = 0 then m
  else m.modPort p (fun x => { x with unacked := x.unacked.drop n, replayed := (x.unacked.take n).foldl (fun t u => Tab.del t u.1) x.replayed })

/-- A port is out of service: what is not acknowledged or not sent goes elsewhere. -/
def portOff (now p : Nat) (m : Module) : Module :=
  let m := (m.setPortState p 4).modPort p (fun x => { x with drainUntil := none, enableAfter := false })
  emptyPort now p (if p < 88 then discardKey (portSlot p) m else m)

/-- A port leaves service with its disable (R257), and "function disabled" is posted. -/
def portEnds (now p : Nat) (m : Module) : Module :=
  let x := m.port p
  let m := post now 11 4 srcDrone ([3] ++ leBytes 1 p) (portOff now p m)
  if x.enableAfter then startTraining p m else m

/-- The link of a port is lost: it retrains, or, while it drains for its disable, it is out of service (R239, R257). -/
def linkLost (now p : Nat) (m : Module) : Module := if m.portState p = 3 then portEnds now p m else retrain now p m

/-- Replay every unacknowledged frame; when one has been replayed 4 times, the link is lost. -/
def replay (now p : Nat) (m : Module) : Module :=
  let x := m.port p
  if x.unacked = [] then m
  else if 4 ≤ x.replays then linkLost now p m
  else
    let m := (m.bump (kREPLAYS + p) 1).modPort p (fun x =>
      { x with replayed := x.unacked.foldl (fun t u => Tab.put t u.1 (Tab.get 0 t u.1 + 1)) x.replayed,
               unacked := x.unacked.map (fun u => (u.1, u.2.1, now)) })
    forL x.unacked m (fun u m => transmitPort now p u.1 u.2.1 m)

/-- Send the frames that wait at an UP port, in order on each channel; a fenced port sends none. Those that need a key which the port
lacks go to siblings (R437, R438). -/
def flushWaiting (now p : Nat) (m : Module) : Module :=
  let ws := (m.port p).waiting
  if ws = [] ∨ m.up p = false then m else forL ws (m.modPort p (fun x => { x with waiting := [] })) (fun f m =>
    if m.lacksKey p f then reroute now false f m else sendPort now p f m)

/-- A port whose link runs: UP, or draining. -/
def Module.linked (m : Module) (p : Nat) : Bool := decide (p < 88) && !m.bellows.failing && (m.portState p == 2 || m.portState p == 3)

/-- LINK_ACK (R238): every frame up to `seq` is acknowledged. -/
def execLinkAck (p seq : Nat) (s : State) : Host.Outcome State Fault Refusal :=
  guarded (okP p) (s.does (fun now m =>
    if !m.linked p then m
    else
      let us := (m.port p).unacked
      flushWaiting now p (freeUnacked p (if us.any (fun u => u.1 == seq) then framesBefore seq us + 1 else 0) m)))

/-- LINK_NAK (R238): frames before `seq` are acknowledged, the rest is replayed. -/
def execLinkNak (p seq : Nat) (s : State) : Host.Outcome State Fault Refusal :=
  guarded (okP p) (s.does (fun now m =>
    if !m.linked p then m else replay now p (freeUnacked p (framesBefore seq (m.port p).unacked) m)))

/-- LINK_REPLAY_TIMEOUT (R238): the oldest unacknowledged frame has waited 1.5 µs. -/
def execLinkReplayTimeout (p : Nat) (s : State) : Host.Outcome State Fault Refusal :=
  let u := (s.mod.port p).unacked.head?
  guarded (okP p) (s.doesWhen (s.mod.linked p && u.isSome) ((u.map (fun x => x.2.2)).getD 0 + 1500) (fun now m => replay now p m))

/-- LINK_CREDIT (R240). -/
def execLinkCredit (p vc n : Nat) (s : State) : Host.Outcome State Fault Refusal :=
  guarded (okP p && decide (vc < 4)) (s.does (fun now m =>
    flushWaiting now p (m.modPort p (fun x => x.setCredit vc (min 768 (x.credit vc + n))))))

/-- LINK_FRAME_RECEIVE (R238): in sequence, or discarded with a NAK; a frame already accepted is discarded. A sealed frame is opened before
the link acknowledges it, and one that is dropped then is answered with a NAK (R437, R439). -/
def linkReceive (now p seq : Nat) (crcOk : Bool) (f : Frame) (m : Module) : Module :=
  let x := m.port p
  let owe := fun (m : Module) => m.modPort p (fun x => { x with ackDue := true, ackAt := if x.ackDue then x.ackAt else now + 500 })
  let behind := (x.recvSeq + 4096 - seq % 4096) % 4096
  if crcOk ∧ behind = 0 then
    let take := fun (m : Module) => owe (m.modPort p (fun x => { x with recvSeq := (x.recvSeq + 1) % 4096, nakSent := false }))
    match admitFrame now (.port p) f m with
    | (m', none) =>
      if m.protectsPort p ∧ (f.enc ∨ f.auth) then
        flushWaiting now p ((m'.modPort p (fun x => { x with nakSent := true })).emit (.linkNak p x.recvSeq))
      else (take m').emit (.linkCredit p f.vc f.credits)
    | (m', some g) => (take m').modPort p (fun x => { x with rx := x.rx ++ [g], rxCost := x.rxCost ++ [f.credits] })
  else if crcOk ∧ behind ≤ 2048 then owe m
  else if x.nakSent then m
  else (m.modPort p (fun x => { x with nakSent := true })).emit (.linkNak p x.recvSeq)

def execLinkFrameReceive (p seq : Nat) (crcOk : Bool) (f : Frame) (s : State) : Host.Outcome State Fault Refusal :=
  guarded (okP p) (s.does (fun now m => if m.linked p then linkReceive now p seq crcOk f m else m))

/-- ACK_SEND_TIMER (R238): 0.5 µs after the first frame that an acknowledgement has not covered. -/
def execAckSendTimer (p : Nat) (s : State) : Host.Outcome State Fault Refusal :=
  guarded (okP p) (s.doesWhen (s.mod.port p).ackDue (s.mod.port p).ackAt (fun _ m =>
    (m.modPort p (fun x => { x with ackDue := false })).emit (.linkAck p (((m.port p).recvSeq + 4095) % 4096))))

/-! ### Training (R230, R239) -/

/-- LANE_LOCK_LOSS (R239). -/
def execLaneLockLoss (p : Nat) (s : State) : Host.Outcome State Fault Refusal :=
  guarded (okP p) (s.does (fun now m => if m.up p ∨ (m.linked p ∧ m.portState p = 3) then linkLost now p m else m))

/-- PORT_SIGNAL_DETECT (R256): the first signal since reset. -/
def execPortSignalDetect (p : Nat) (s : State) : Host.Outcome State Fault Refusal :=
  guarded (okP p) (s.does (fun _ m => if m.portState p = 0 then startTraining p m else m))

/-- Is another port UP on a failed port's route (R392)? -/
def siblingUp (m : Module) (p : Nat) : Bool :=
  if p < 56 then ((setPortsTo (m.node % 8) (setPeer (m.node % 8) p)) ++ sitePorts).any (fun q => m.up q)
  else if p < 88 then sitePorts.any (fun q => m.up q)
  else
    let role := m.edgeRole ((p - 88) / 2)
    (List.range 4).any (fun e => m.edgeUp e && (List.range 3).any (fun k => roleServes k role && roleServes k (m.edgeRole e)))

/-- "port failed" (R239). -/
def portFails (now p : Nat) (m : Module) : Module :=
  let m := m.setPortState p 5
  let peer := if p < 56 then peerNode m p else 0
  advise now 1 (postF (!siblingUp m p) now 3 2 (srcPort p) (leBytes 1 p ++ [0] ++ leBytes 2 peer) m)

/-- The node check of a set port (R230): the expected node, and the same port index i. -/
def wiredRight (m : Module) (p node index : Nat) : Bool :=
  decide (56 ≤ p) || (node == peerNode m p && index == p % 8)

/-- An edge interface that is up begins the handshakes with the peers that have no key (R433). -/
def edgeShake (now e : Nat) (m : Module) : Module :=
  if !m.edgeUp e then m
  else forL ((edgePeers m).filter (fun n => !(m.key (edgeSlot n)).established && (m.key (edgeSlot n)).hs == 0)) m (fun n m => startHandshake now (edgeSlot n) m)

/-- A port comes UP: sequence numbers and credits start afresh, and its key, or those of an edge interface, are agreed on. -/
def portUp (now p : Nat) (m : Module) : Module :=
  let m := (m.setPortState p 2).modPort p (fun x =>
    { x with sendSeq := 0, recvSeq := 0, unacked := [], replayed := [], credits := [], attempts := 0, ackDue := false, nakSent := false })
  if p < 88 then startHandshake now (portSlot p) m else edgeShake now ((p - 88) / 2) m

/-- After a successful attempt each end of a link sends its node number and its port index (R230, R239). -/
def sendPortId (p : Nat) (m : Module) : Module := if p < 88 then m.emit (.portId p m.node (p % 8)) else m

/-- A training attempt ends. -/
def attemptEnds (now p : Nat) (ok : Bool) (node index : Nat) (m : Module) : Module :=
  if m.portState p ≠ 1 then m
  else if ok then
    let m := sendPortId p m
    if wiredRight m p node index then portUp now p m
    else post now 3 1 (srcPort p) (leBytes 1 p ++ leBytes 1 index ++ leBytes 2 node) (m.setPortState p 5)
  else
    let m := m.modPort p (fun x => { x with attempts := x.attempts + 1 })
    if (m.port p).attempts < 3 then m else portFails now p m

/-! ### Disabling (R257, R395–R397) -/

/-- The ports that PORT_DISABLE of a port acts on: an edge interface's ports go together. -/
def disabledWith (p : Nat) : List Nat := if p < 88 then [p] else [p / 2 * 2, p / 2 * 2 + 1]

/-- The die that carries a port (R229). -/
def portDie (p : Nat) : Nat := if p < 56 then p % 8 / 2 else if p < 58 then 0 else if p < 88 then (p - 58) / 10 + 1 else 0

/-- A write of PORT_DISABLE: the fence sends what the port has not sent elsewhere. While the port's die is in reset it acts at the end of
recovery. -/
def portDisable (now p v : Nat) (m : Module) : Module :=
  forL (disabledWith p) m (fun p m =>
    let m := m.setNum (kPORT_DISABLE + p) (min v 1)
    let st := m.portState p
    if m.dieInReset (portDie p) then m
    else if v ≠ 0 then
      if st = 3 ∨ st = 4 then m
      else
        let ws := (m.port p).waiting
        let m := (m.setPortState p 3).modPort p (fun x => { x with waiting := [], drainUntil := some (now + m.num kDRAIN_TIMEOUT_MS * ms), enableAfter := false })
        forL ws m (fun f m => reroute now false f m)
    else if st = 3 then m.modPort p (fun x => { x with enableAfter := true })
    else if st = 4 then startTraining p m
    else m)

/-- PORT_DISABLE (R257). -/
def execPortDisable (p v : Nat) (s : State) : Host.Outcome State Fault Refusal :=
  guarded (okP p) (s.does (fun now m => if 1 < v then m.status 2 else (portDisable now p v m).status 0))

/-- A drain ends, by its timeout where a frame is not acknowledged. -/
def portDrained (now p : Nat) (m : Module) : Module :=
  portEnds now p (if (m.port p).unacked = [] then m else m.bump kDRAIN_TIMEOUTS 1)

/-- PORT_DRAIN_END (R257): every frame is acknowledged, or DRAIN_TIMEOUT_MS has passed. -/
def execPortDrainEnd (p : Nat) (s : State) : Host.Outcome State Fault Refusal :=
  let x := s.mod.port p
  guarded (okP p) (s.doesWhen (decide (s.mod.portState p = 3)) (if x.unacked = [] then 0 else x.drainUntil.getD 0) (fun now m => portDrained now p m))

/-! ### Edge interfaces (R253, R254, R261) -/

def ownEdgeAddr (m : Module) (a : List Byte) : Bool := (List.range 4).any (fun e => edgeAddr m m.node e == a)

/-- NEIGHBOR_SOLICITATION (R254). -/
def execNeighborSolicitation (e : Nat) (src target : List Byte) (s : State) : Host.Outcome State Fault Refusal :=
  guarded (okE e) (s.does (fun _ m => if m.edgeUp e ∧ ownEdgeAddr m target then m.emit (.neighbor e (fitB 6 (m.blob kEDGE_GW_MAC)) src target) else m))

/-- A frame reaches the receive queue of a host-role interface: 1 MiB (R260, R261). -/
def hostQueue (now e : Nat) (f : Frame) (m : Module) : Module :=
  if f.sender ≠ m.num kHOST_NODE then m.bump kHOST_FOREIGN 1
  else if 1048576 < (((m.edge e).hostRx.map Frame.bytes).sum) + f.bytes then m.bump kHOST_DROP 1
  else m.modEdge e (fun x => { x with hostRx := x.hostRx ++ [f], rung := if rings f then x.rung ++ [(f, now)] else x.rung })

/-- EDGE_PACKET_RECEIVE (R253). -/
def execEdgePacketReceive (e : Nat) (pkt : EdgePkt) (s : State) : Host.Outcome State Fault Refusal :=
  guarded (okE e) (s.does (fun now m =>
    if !m.edgeUp e ∨ m.edgeRole e = 0 then m
    else if pkt.extHeaders ∨ !pkt.udpOk ∨ pkt.dstPort ≠ m.num kKG_UDP_PORT then m.bump kEDGE_DROP 1
    else
      match admitFrame now (.edge e) pkt.frame m with
      | (m, none) => m
      | (m, some f) => if m.edgeRole e = 2 then hostQueue now e f m else m.modEdge e (fun x => { x with rx := x.rx ++ [f] })))

end Sys2Proof.Machine
end

