-- ==== Sys2Proof/Machine/Staging.lean ====
section
/-! DEFINITION. Register windows: blocks and groups (R277, R278), what a register reads, strobe groups (R282), staged fields
(R280, R281), claims and staging. -/

namespace Sys2Proof.Machine

/-! ### Blocks and strobe groups (R277, R282) -/

def regionBlock (b : Nat) : Bool := decide (0x010 ≤ b) && decide (b < 0x020)
def dieBlock (b : Nat) : Bool := decide (0x020 ≤ b) && decide (b < 0x024)
def clusterBlock (b : Nat) : Bool := decide (0x100 ≤ b) && decide (b < 0x200)
def portBlock (b : Nat) : Bool := decide (0x200 ≤ b) && decide (b < 0x260)
def bridgeBlock (b : Nat) : Bool := decide (0x300 ≤ b) && decide (b < 0x303)

/-- A block id that a block uses. -/
def blockUsed (b : Nat) : Bool :=
  decide (b ≤ 2) || b == 4 || regionBlock b || dieBlock b || clusterBlock b || portBlock b || bridgeBlock b

/-- The strobe group of a block. -/
def groupOfBlock (b : Nat) : Nat :=
  if b ≤ 1 then 28
  else if b = 2 then 21
  else if b = 4 then 20
  else if regionBlock b then b - 0x010
  else if dieBlock b then 16 + (b - 0x020)
  else if clusterBlock b then (b - 0x100) / 16
  else if portBlock b then 16 + portDie (b - 0x200)
  else 24

/-- The strobe group of a dictionary entry; 0xFF for entries outside R282 (R302). -/
def groupOfKey (row : DictRow) (key : Nat) : Nat :=
  match row.grp with
  | .region => key % 256 - 1
  | .port => 16 + portDie (key % 256 - 1)
  | .fixed g => g
  | .none => 0xFF

/-- Is the domain of a strobe group in reset (R284, R286)? -/
def groupInReset (m : Module) (g : Nat) : Bool :=
  if g < 16 then m.inReset g else if g < 20 then m.dieInReset (g - 16) else m.resets.any (fun x => x.dom == .warm || x.dom == .cold)

/-! ### Groups within a window (R278) -/

/-- The offset within a group of G bytes whose span starts at `base`: the aliasing rule. -/
def inGroup (base size off : Nat) : Nat := base + (off - base) % size

/-- The register that an offset of a window reaches; none where no span holds the offset. The spec gives no size and span
for most groups: theirs are the smallest that hold their registers, and 256 B (log entry 50). -/
def canonOff (b off : Nat) : Option Nat :=
  let within := fun (lo n : Nat) => decide (lo ≤ off) && decide (off < lo + n)
  if b = 0 then (if within 0 0x20 then some off else none)
  else if b = 2 then (if within 0 0x20 || within 0x100 0x200 then some off else none)
  else if regionBlock b then
    (if within 0x1000 0x800 || within 0x2000 0x400 || within 0x3000 0x80 || within 0x8000 0x4000 then some off
     else if within 0x100 0x100 then some (inGroup 0x100 0x80 off)
     else if within 0 0x100 || within 0x200 0x100 then some (inGroup (off / 0x100 * 0x100) 0x08 off)
     else if within 0x400 0x100 || within 0x800 0x100 then some (inGroup (off / 0x100 * 0x100) 0x20 off)
     else none)
  else if clusterBlock b then
    (if within 0 0x20 then some off
     else if within 0x800 0x100 then some (inGroup 0x800 0x20 off)
     else if within 0x1000 0x800 then some (inGroup (off / 0x100 * 0x100) 0x20 off)
     else none)
  else if dieBlock b then (if within 0x100 0x100 then some (inGroup 0x100 0x20 off) else none)
  else if b = 0x300 then (if within 0 0x2000 then some off else none)
  else if b = 0x301 then (if within 0 0x800 then some off else none)
  else if b = 0x302 then some off
  else none

/-! ### What registers read -/

/-- REGION_STATUS, CTX_CTRL, the cluster control group, queues, progress, sync counters, next events and program slots of
region r, by 8 B word (R99, R166). -/
def regionWord (m : Module) (now r w : Nat) : Nat :=
  let k := m.work r
  let q := (w - 0x1000) / 0x20
  let x := k.queue q
  if w = 0x0000 then
    place (m.gen r) 31 24 + place (maskOf (k.flights.map (fun y => y.d.ctx))) 23 16 + place k.active 10 8
      + place (b2n k.switching) 1 1 + place (b2n (m.refusesWork r)) 0 0
  else if w = 0x0100 then k.accepted
  else if w = 0x0108 then k.completed
  else if w = 0x0110 then k.flushed
  else if w = 0x0118 then k.heartbeat
  else if w = 0x0120 then k.flights.length
  else if w = 0x0128 then k.lastCpl
  else if w = 0x0130 then k.refused
  else if w = 0x0138 then k.hintMiss
  else if w = 0x0140 then k.refusalLost
  else if w = 0x0200 then place k.quantum 31 16
  else if w = 0x0400 then (m.rg r).train.ulaneFlags
  else if w = 0x0800 then place k.fenced 31 16 + place k.fence 15 0
  else if w = 0x0808 then k.keep
  else if w = 0x0810 then (List.range 16).foldl (fun a c => a + (m.cl r c).sleep * 8 ^ c) 0
  else if 0x1000 ≤ w ∧ w < 0x1800 then
    (if w % 0x20 = 0x00 then place x.ctx 15 13 + place (b2n x.enable) 12 12 + place (b2n x.halted) 11 11
     else if w % 0x20 = 0x08 then x.cplBase
     else if w % 0x20 = 0x10 then place x.log2 24 20 + place x.head 19 0
     else place x.tail 63 44 + place ((k.flights.filter (fun y => y.d.queue == q)).length) 12 0)
  else if 0x2000 ≤ w ∧ w < 0x2400 then k.counter ((w - 0x2000) / 4) + k.counter ((w - 0x2000) / 4 + 1) * 2 ^ 32
  else if 0x3000 ≤ w ∧ w < 0x3080 then m.nextEvent now r ((w - 0x3000) / 8)
  else if 0x8000 ≤ w ∧ w < 0xC000 then leAt (Tab.get [] (m.rg r).train.progs ((w - 0x8000) / 0x400)) (w % 0x400) 8
  else 0

/-- BUF_WAIT, CONV_FLAGS and the unit groups of a cluster (R47–R49, R63, R74). -/
def clusterWord (m : Module) (r c w : Nat) : Nat :=
  let u := m.un r c ((w - 0x1000) / 0x100)
  let busy := fun (cls : Nat) => (m.work r).live.any (fun x => x.d.cls == cls && x.d.cluster == c && (x.unit.getD x.d.unit) == (w - 0x1000) / 0x100)
  if w = 0 then (m.cl r c).bufWait
  else if w = 0x800 then (m.cl r c).convFlags
  else if 0x1000 ≤ w ∧ w < 0x1800 then
    (if w % 0x20 = 0x00 then u.flags
     else if w % 0x20 = 0x08 then
       place (b2n u.hold) 2 2 + place (b2n (busy 2)) 1 1 + place (b2n (busy 1)) 0 0
         + (if u.taintAll then 5 else min 4 u.taints.length) * 2 ^ 32
     else if w % 0x20 = 0x10 then u.arrayCycles
     else u.vectorCycles)
  else 0

/-- The Bellows block (R344). -/
def bellowsWord (m : Module) (now w : Nat) : Nat :=
  let r := (w - 0x100) / 0x20
  let p := (m.rg r).power
  if w = 0x00 then m.num kCTRL_MODE
  else if w = 0x08 then m.bellows.bucketNj / 1000000
  else if 0x100 ≤ w ∧ w < 0x300 then
    (if w % 0x20 = 0x00 then
       place p.gate 30 24 + place p.fpoint 23 21 + place (b2n p.stretch) 20 20
         + place ((List.range 16).filter (fun c => (m.cl r c).waiting.isSome)).length 12 8 + place (p.ramp.filter (fun x => decide (now < x.2))).length 7 6
     else if w % 0x20 = 0x08 then f32Milli p.estMw
     else if w % 0x20 = 0x10 then f32Milli p.measMw
     else place (p.railMa / 10) 31 16 + place (railMv m now r) 15 0)
  else 0

/-- Groups that hold staged entries (R288). -/
def Module.claimed (m : Module) : Nat := maskOf ((m.staging.filter (fun g => g.2.items ≠ [])).map (·.1))

/-- Commit and lock registers (R288). -/
def controlWord (m : Module) (w : Nat) : Nat :=
  if w = 0x08 then m.num kCOMMIT_STATUS else if w = 0x10 then m.num kLOCK else if w = 0x18 then m.claimed else 0

/-- Ring groups, doorbells and completion doorbells (R270, R274, R288). -/
def bridgeWord (m : Module) (b w : Nat) : Nat :=
  if b = 0x301 then (m.ring (w / 8)).tail
  else if b = 0x302 then Tab.get 0 m.bridge.doorbells (w / 8)
  else
    let x := m.ring (w / 0x20)
    if w % 0x20 = 0x00 then x.base
    else if w % 0x20 = 0x08 then
      place (b2n x.enable) 31 31 + place x.kind 30 30 + place (b2n x.halted) 29 29 + place x.tregion 27 24
        + place x.log2 20 16 + place x.tnode 14 0
    else if w % 0x20 = 0x10 then x.head
    else place x.errStatus 31 24 + place x.errIndex 19 0

/-- The 8 B word at offset w of a block's window, w reached by `canonOff` and a multiple of 8. -/
def regWord (m : Module) (now b w : Nat) : Nat :=
  if b = 0 then controlWord m w
  else if b = 2 then bellowsWord m now w
  else if regionBlock b then regionWord m now (b - 0x010) w
  else if clusterBlock b then clusterWord m ((b - 0x100) / 16) (b % 16) w
  else if dieBlock b then (if w = 0x100 then Tab.get 0 m.fabric.collFlags (b - 0x020) else 0)
  else if bridgeBlock b then bridgeWord m b w
  else 0

/-! ### Staged fields (R280, R281) -/

/-- The staged fields of an 8 B word: high and low bit. -/
def stagedFields (b w : Nat) : List (Nat × Nat) :=
  if regionBlock b then
    (if w = 0x0200 then [(31, 16)]
     else if w = 0x0808 then [(15, 0)]
     else if 0x1000 ≤ w ∧ w < 0x1800 then
       (if w % 0x20 = 0x00 then [(15, 13), (12, 12)] else if w % 0x20 = 0x08 then [(55, 0)]
        else if w % 0x20 = 0x10 then [(24, 20)] else [])
     else if 0x8000 ≤ w ∧ w < 0xC000 then
       (if w % 0x400 = 0 then [(6, 0)] else if w % 0x400 ≤ 8 * 68 then [(63, 28)] else [])
     else [])
  else if b = 0x300 then
    (if w % 0x20 = 0x00 then [(40, 0)] else if w % 0x20 = 0x08 then [(31, 31), (30, 30), (27, 24), (20, 16), (14, 0)] else [])
  else []

/-- A register that holds both direct and staged fields. -/
def mixedWord (b w : Nat) : Bool :=
  (regionBlock b && (w == 0x0200 || (decide (0x1000 ≤ w) && decide (w < 0x1800) && (w % 0x20 == 0 || w % 0x20 == 0x10))))
    || (b == 0x300 && w % 0x20 == 0x08)

/-- The key of a staged register field. -/
def fieldKey (b w lo : Nat) : Nat := (b * 65536 + w) * 64 + lo

/-! ### Staging and claims (R280, R284, R285) -/

def Module.grp (m : Module) (g : Nat) : GroupSt := Tab.get {} m.staging g

def Staged.same (a b : Staged) : Bool := a.dict == b.dict && a.key == b.key

/-- Stage an item: a field that is staged already keeps its entry. -/
def putItem (xs : List Staged) (x : Staged) : List Staged :=
  if xs.any (fun y => y.same x) then xs.map (fun y => if y.same x then x else y) else xs ++ [x]

/-- The status of a staged write to a group: locked, claimed by another source, or full. -/
def stageStatus (m : Module) (src : Source) (g : Nat) (xs : List Staged) : Nat :=
  let q := m.grp g
  if (m.num kLOCK).testBit g then 8
  else if q.items ≠ [] ∧ q.claim ≠ some src then 9
  else if 512 < (xs.foldl putItem q.items).length then 7
  else 0

/-- Put items into a group's staging, all or none. -/
def stage (now : Nat) (src : Source) (g : Nat) (xs : List Staged) (m : Module) : Module × Nat :=
  if xs = [] then (m, 0)
  else
    let st := stageStatus m src g xs
    if st ≠ 0 then (m, st)
    else ({ m with staging := Tab.put m.staging g { items := xs.foldl putItem (m.grp g).items, claim := some src, lastWrite := now } }, 0)

/-- Empty a group's staging and release its claim. -/
def clearGroup (g : Nat) (m : Module) : Module := { m with staging := Tab.del m.staging g }

/-- The fields that a write of `width` bytes at word w, byte `at_` of it, stages: the bits covered take the value written, the others keep
what is staged or in force. -/
def fieldItems (m : Module) (now b w at_ width v : Nat) : List Staged :=
  let old := regWord m now b w
  let cov := (2 ^ (8 * width) - 1) * 2 ^ (8 * at_)
  let new := (v % 2 ^ (8 * width)) * 2 ^ (8 * at_)
  (stagedFields b w).filterMap (fun f =>
    let mask := bits cov f.1 f.2
    let val := bits new f.1 f.2 &&& mask
    let cur := bits old f.1 f.2
    let held := ((m.grp (groupOfBlock b)).items.find? (fun y => !y.dict && y.key == fieldKey b w f.2)).map Staged.value
    let base := held.getD cur
    if mask = 0 ∨ (mixedWord b w ∧ val = cur &&& mask) then none
    else some { dict := false, key := fieldKey b w f.2, width := f.1 + 1 - f.2, value := val ||| (base - (base &&& mask)), bytes := [] })

end Sys2Proof.Machine
end

