-- ==== Sys2Proof/Machine/Cycle.lean ====
section
/-! DEFINITION. Taking a function out of service: fence, drain, abort (R395–R397), and region recovery (R177, R178). -/

namespace Sys2Proof.Machine

/-! ### Region recovery (R177, R178) -/

/-- A commit of the Chanter helper that runs again from its start after recovery: a delta's formation, an outer update. -/
def Commit.restarts (c : Commit) : Bool := c.flight == 0 && (c.kind == 3 || c.kind == 4)

/-- What commits that are given up leave: their waits are accounted for (R183) and their shadow halves are free (R171, R177). -/
def leaveCommits (now r : Nat) (cs : List Commit) (m : Module) : Module := forL cs m (fun c m => freeShadow now r c (noteWait now c m))

/-- Commits of a region at steps 1–6 are abandoned (R396). -/
def dropCommits (now r : Nat) (p : Commit → Bool) (m : Module) : Module :=
  let m := leaveCommits now r ((m.rg r).train.commits.filter p) m
  m.modTrain r (fun t => { t with commits := t.commits.filter (fun c => !p c) })

/-- Commits at steps 1–6 end; shadow halves and retained copies are free; lease counts are 0; under norm STATE 0 the arrival
counts too (R177, R178); sums U and W are cleared (R70). -/
def recoverRegion (now r : Nat) (m : Module) : Module :=
  let m := (leaveCommits now r (m.rg r).train.commits m).modTrain r (fun t =>
    { t with commits := (t.commits.filter Commit.restarts).map (fun c => { c with step := 1, half := none, parts := [], out := [], sums := none, since := now })
             retainUsed := [], uwr := [], unmapped := 0, closing := [] })
  let fresh := (m.normRec r).state = 0
  forL (m.blocksOf r) m (fun x m =>
    let h := m.hdr r x.1 x.2
    setHdr now r x.1 x.2 { h with relcount := 0, retrel := 0, retained := false, astep := if fresh then 0 else h.astep, arrived := if fresh then 0 else h.arrived } m)

/-! ### What a function still has under way (R396) -/

/-- Is a logic test running in the region (R414)? -/
def testRuns (m : Module) (r : Nat) : Bool := m.test.reqs.any (fun b => b.kind == 1 && b.region == r && b.running.isSome)

/-- Has the drain of a function nothing left to wait for? -/
def funcIdle (m : Module) (f : Func) : Bool :=
  match f with
  | .region r => (m.work r).live.isEmpty && !(m.fabric.reqs.any (fun q => q.holder == r)) && (m.rg r).held.isEmpty && !testRuns m r
  | .context r c => !((m.work r).live.any (fun x => x.d.ctx == c))
  | .port _ => false
  | .chanter => true
  | .ring i => (m.ring i).inFlight.isNone
  | .stageQueue i =>
    let q := m.sqRec i
    let s := m.sq i
    if q.out then !((List.range 16).any (fun r => (m.work r).live.any (fun x => stageOf x.d == some i))) && s.owed == 0 else s.parts.isEmpty && s.arrivedN == s.freedN

/-- The function's code, number and context in "function disabled" (R392). -/
def funcName : Func → Nat × Nat × Nat
  | .region r => (1, r, 0)
  | .context r c => (2, r, c)
  | .port p => (3, p, 0)
  | .chanter => (4, 0, 0)
  | .ring i => (5, i, 0)
  | .stageQueue i => (6, i, 0)

/-- The generation that "function disabled" reports: 0 where the abort increments none (R396). -/
def funcGen (m : Module) : Func → Nat
  | .region r => m.gen r
  | .context r c => m.cgen r c
  | .chanter => m.num kCHANTER_GEN
  | _ => 0

/-! ### Generations (R393) -/

def bumpKey (k : Nat) (m : Module) : Module := m.setNum k ((m.num k + 1) % 256)
def bumpGen (r : Nat) (m : Module) : Module := bumpKey (kREGION_GEN + r) m
def bumpCtx (r c : Nat) (m : Module) : Module := { m with ctxGen := Tab.set 1 m.ctxGen (8 * r + c) ((m.cgen r c + 1) % 256) }

/-! ### Stage queues (R192, R193) -/

/-- A stage queue starts in its initial state: an inbound end grants its entries, an outbound end asks for a grant. -/
def startStageQ (now i : Nat) (m : Module) : Module :=
  let q := m.sqRec i
  sendCredit now i (if q.out then 0 else q.slots) ((settleStalls now i m).modSq i (fun _ => { gen := m.gen q.region }))

/-- Has a stage queue entries or credits in flight (R194)? -/
def stageBusy (m : Module) (i : Nat) : Bool := !funcIdle m (.stageQueue i)

/-! ### Abort (R396) -/

/-- A descriptor is aborted: it completes with 0x03 and a record. -/
def abortFlight (now r : Nat) (x : Flight) (m : Module) : Module :=
  complete now r { x with status := 3, flags := 0, aux := 0, start := if x.phase = 0 then now else x.start } m

/-- Abort the accepted descriptors that a test names, and with them their commits; answers how many. -/
def abortFlights (now r : Nat) (p : Flight → Bool) (m : Module) : Module × Nat :=
  let xs := (m.work r).flights.filter (fun x => x.phase ≠ 3 && p x)
  (forL xs (dropCommits now r (fun c => xs.any (fun x => c.flight == x.id + 1)) m) (fun x m => abortFlight now r x m), xs.length)

/-- Requests of a holder that have no tag yet are dropped. -/
def dropWaiting (holder : Nat) (p : TagWait → Bool) (m : Module) : Module :=
  m.modFab (fun x => { x with waiting := x.waiting.filter (fun w => !(w.holder == holder && p w)) })

/-- Requests from others that a region had taken and not answered are answered with 0x08. -/
def refuseHeld (now r : Nat) (m : Module) : Module :=
  let hs := (m.rg r).held ++ m.fabric.collWaiting.filter (fun x => addrRegion x.1.addr == r)
  let m := forL m.fabric.collWaiting m (fun x m => if addrRegion x.1.addr = r then takeFrame x.2 x.1 m else m)
  let m := m.modFab (fun y => { y with collWaiting := y.collWaiting.filter (fun x => addrRegion x.1.addr != r) })
  forL hs (m.modR r (fun g => { g with held := [] })) (fun x m => if x.1.op = opCREDIT then m else refuseOnce now r x.1 8 (respond now x.1 8 0 [] m))

/-- DESC requests held for a place are submitted, and so refused with 0x08. -/
def refuseHeldDesc (now r : Nat) (m : Module) : Module := admitHeld now r m

/-- Helper work that Chanter aborts; deltas that were formed travel, and an open merge waits for the enable. -/
def abortHelper (now : Nat) (m : Module) : Module :=
  let m := forN 16 m (fun r m => dropCommits now r (fun c => c.flight == 0) m)
  let m := if m.chanter.merging.isSome then m.modCh (fun c => { c with merging := none, due := true, holdUntil := some now }) else m
  forL m.owners m (fun r m => formEnd now r m)

/-- Accesses of a management ring to the bridge itself are forgotten (R266, R275). -/
def dropRing (i : Nat) (m : Module) : Module :=
  { m with heldAccess := m.heldAccess.filter (fun h => h.asker != .ring i),
           drone := { m.drone with bandQ := m.drone.bandQ.filter (fun q => q.ring != some i), parked := m.drone.parked.filter (fun q => q.ring != some i) } }

/-- The abort phase of a function; answers the descriptors aborted. Of a stage queue those are the sends that have been dispatched and whose
entry has not been acknowledged (DEDUCED, log entry 173). -/
def abortFunc (now : Nat) (f : Func) (m : Module) : Module × Nat :=
  match f with
  | .region r =>
    let (m, n) := abortFlights now r (fun _ => true) (refuseHeld now r m)
    (bumpGen r (dropWaiting r (fun _ => true) m), n)
  | .context r c =>
    let (m, n) := abortFlights now r (fun x => x.d.ctx == c) m
    (admitHeld now r (bumpCtx r c (dropWaiting r (fun w => w.ctx == c) m)), n)
  | .port _ => (m, 0)
  | .chanter => (bumpKey kCHANTER_GEN (abortHelper now m), 0)
  | .ring i => (dropRing i (dropReqs (ofRing i) (m.modRing i (fun x => { x with inFlight := none }))), 0)
  | .stageQueue i =>
    let (m, n) := (List.range 16).foldl (fun (a : Module × Nat) r =>
      let (m, k) := abortFlights now r (fun x => x.phase ≠ 0 && stageOf x.d == some i) a.1
      (m, a.2 + k)) (m, 0)
    ((settleStalls now i m).modSq i (fun _ => {}), n)

/-! ### Enabling (R397) -/

/-- Chanter is enabled again: what was not acknowledged is due, and a merge whose deadline has passed runs. -/
def enableChanter (now : Nat) (m : Module) : Module :=
  mergeIfReady now ((m.setNum kCHANTER_FSTATE 0).modCh (fun c =>
    { c with streams := c.streams.map (fun s => (s.1, { s.2 with frags := s.2.frags.map (fun f => { f with sentAt := none }) })) }))

/-- A disabled function is enabled; a region that self-test has failed is not (R406). -/
def enableNow (now : Nat) (f : Func) (m : Module) : Module :=
  match f with
  | .region r => if m.fstate r = 3 ∧ !m.env.regionsDown.testBit r then m.setNum (kREGION_FSTATE + r) 0 else m
  | .context _ _ => m
  | .port p => portDisable now p 0 m
  | .chanter => if m.num kCHANTER_FSTATE = 3 then enableChanter now m else m
  | .ring i => m.modRing i (fun x => { x with enable := true, head := 0, tail := 0 })
  | .stageQueue i => startStageQ now i m

/-! ### The cycle (R395) -/

/-- The function reads disabled, and Drone says so; an enable that waited is applied. -/
def endCycle (now : Nat) (f : Func) (m : Module) : Module :=
  match m.cycles.find? (fun x => x.func == f) with
  | none => m
  | some x =>
    let m := { m with cycles := m.cycles.filter (fun y => y.func ≠ f) }
    let m := match f with
      | .region r => m.setNum (kREGION_FSTATE + r) (if m.env.regionsDown.testBit r then 4 else 3)
      | .chanter => m.setNum kCHANTER_FSTATE 3
      | _ => m
    let (a, b, c) := funcName f
    let m := post now 11 4 srcDrone (leBytes 1 a ++ leBytes 1 b ++ leBytes 1 c ++ leBytes 1 (funcGen m f) ++ leBytes 4 x.aborted) m
    if x.enableAfter then restall now (enableNow now f m) else m

/-- The abort phase: what remains is aborted and the generation increments. A region's recovery of 20 ms follows before it reads
disabled. -/
def abortPhase (now : Nat) (f : Func) (m : Module) : Module :=
  let (m, n) := abortFunc now f m
  let m := { m.bump kABORTED n with cycles := m.cycles.map (fun x => if x.func = f then { x with aborted := n, until_ := now + 20 * ms } else x) }
  restall now (match f with
  | .region r => recoverRegion now r (m.setNum (kREGION_FSTATE + r) 2)
  | _ => endCycle now f m)

/-- Start the cycle of a function that is in service. -/
def beginCycle (now : Nat) (f : Func) (m : Module) : Module :=
  { m with cycles := m.cycles ++ [{ func := f, until_ := now + m.num kDRAIN_TIMEOUT_MS * ms }] }

/-- An enable written while the function drains waits for the end of its abort. -/
def laterEnable (f : Func) (m : Module) : Module :=
  { m with cycles := m.cycles.map (fun x => if x.func = f then { x with enableAfter := true } else x) }

/-- A write of REGION_DISABLE. While the region is in reset the value acts at the end of recovery. -/
def regionDisable (now r v : Nat) (m : Module) : Module :=
  let m := m.setNum (kREGION_DISABLE + r) v
  if m.inReset r then m
  else if v = 1 then
    if m.fstate r = 0 then refuseHeldDesc now r (beginCycle now (.region r) (m.setNum (kREGION_FSTATE + r) 1)) else m
  else if m.cycling (.region r) then laterEnable (.region r) m
  else restall now (enableNow now (.region r) m)

/-- A write of CTX_DISABLE: bits that become set start the cycle of their context, bits that become clear end it. -/
def ctxDisable (now r mask : Nat) (m : Module) : Module :=
  let old := m.num (kCTX_DISABLE + r)
  let m := m.setNum (kCTX_DISABLE + r) mask
  restall now <| forN 8 m (fun c m =>
    let f := Func.context r c
    if old.testBit c = mask.testBit c then m
    else if mask.testBit c then
      if m.inReset r ∨ m.cycling f then m
      else
        let m := refuseHeldDesc now r (beginCycle now f m)
        if (m.work r).active = c then
          match nextCtx m r with
          | some k => m.modWork r (requestSwitch k)
          | none => m.modWork r (requestSwitch ((c + 1) % 8))
        else m
    else if m.cycling f then laterEnable f m else m)

/-- Chanter's domain is the module: CHANTER_GEN is incremented by a module reset alone (R398). -/
def Module.moduleInReset (m : Module) : Bool := m.resets.any (fun x => x.dom == .warm || x.dom == .cold)

/-- A write of CHANTER_DISABLE. While the module is in reset the value acts at the end of recovery. -/
def chanterDisable (now v : Nat) (m : Module) : Module :=
  let m := m.setNum kCHANTER_DISABLE v
  if m.moduleInReset then m
  else if v = 1 then (if m.num kCHANTER_FSTATE = 0 then beginCycle now .chanter (m.setNum kCHANTER_FSTATE 1) else m)
  else if m.cycling .chanter then laterEnable .chanter m
  else enableNow now .chanter m

/-- A commit clears ENABLE of a ring: forwarding stops, and a DESC in flight drains. -/
def ringDisable (now i : Nat) (m : Module) : Module :=
  let m := m.modRing i (fun x => { x with enable := false })
  if (m.ring i).inFlight.isSome ∧ !m.cycling (.ring i) then beginCycle now (.ring i) m else m

/-- A commit sets ENABLE of a ring: HEAD and the latched TAIL become 0 (R266). -/
def ringEnable (now i : Nat) (m : Module) : Module :=
  if m.cycling (.ring i) then laterEnable (.ring i) (m.modRing i (fun x => { x with enable := false })) else enableNow now (.ring i) m

/-- A commit clears ENABLE of a stage queue. -/
def stageDisable (now i : Nat) (m : Module) : Module :=
  if stageBusy m i ∧ !m.cycling (.stageQueue i) then beginCycle now (.stageQueue i) m else m

/-- A commit sets ENABLE of a stage queue. -/
def stageEnable (now i : Nat) (m : Module) : Module :=
  if m.cycling (.stageQueue i) then laterEnable (.stageQueue i) m else enableNow now (.stageQueue i) m

/-! ### The commands -/

/-- Do a function's numbers name a part? -/
def okFunc : Func → Bool
  | .region r => okR r
  | .context r c => okR r && decide (c < 8)
  | .port p => okP p
  | .chanter => true
  | .ring i => okRing i
  | .stageQueue i => decide (i < 32)

/-- REGION_DISABLE (R396). -/
def execRegionDisable (r v : Nat) (s : State) : Host.Outcome State Fault Refusal :=
  guarded (okR r) (s.does (fun now m => if 1 < v then m.status 2 else (regionDisable now r v m).status 0))

/-- CTX_DISABLE (R396). -/
def execCtxDisable (r mask : Nat) (s : State) : Host.Outcome State Fault Refusal :=
  guarded (okR r && decide (mask < 256)) (s.does (fun now m => (ctxDisable now r mask m).status 0))

/-- CHANTER_DISABLE (R396). -/
def execChanterDisable (v : Nat) (s : State) : Host.Outcome State Fault Refusal :=
  s.does (fun now m => if 1 < v then m.status 2 else (chanterDisable now v m).status 0)

/-- The enable of a function, however it is written. -/
def functionEnable (now : Nat) (f : Func) (m : Module) : Module :=
  match f with
  | .region r => regionDisable now r 0 m
  | .context r c => ctxDisable now r (clrBit (m.num (kCTX_DISABLE + r)) c) m
  | .port p => portDisable now p 0 m
  | .chanter => chanterDisable now 0 m
  | .ring i => if (m.ring i).enable then m else ringEnable now i m
  | .stageQueue i => if (m.sqRec i).enable then stageEnable now i m else m

/-- FUNCTION_ENABLE (R397). -/
def execFunctionEnable (f : Func) (s : State) : Host.Outcome State Fault Refusal :=
  guarded (okFunc f) (s.does (fun now m => (functionEnable now f m).status 0))

/-- Is a region past its abort, recovering? -/
def recovering (m : Module) (f : Func) : Bool := match f with
  | .region r => m.fstate r == 2 && m.cycling f
  | _ => false

/-- The work of a draining function has ended: its abort phase follows. A region's recovery after an abort has ended: it
reads disabled. A port's drain ends by its own rule (R257). -/
def drainEnd (now : Nat) (f : Func) (m : Module) : Module :=
  match f with
  | .port p => if m.portState p = 3 ∧ (m.port p).unacked = [] then portDrained now p m else m
  | _ => if recovering m f then endCycle now f m else if m.cycling f ∧ funcIdle m f then abortPhase now f m else m

/-- When a function's present phase ends. -/
def cycleUntil (m : Module) (f : Func) : Nat := ((m.cycles.find? (fun x => x.func == f)).map Cycle.until_).getD 0

/-- DRAIN_END (R395). -/
def execDrainEnd (f : Func) (s : State) : Host.Outcome State Fault Refusal :=
  guarded (okFunc f) (s.doesAt (if recovering s.mod f then cycleUntil s.mod f else 0) (fun now m => drainEnd now f m))

/-- A drain ends by its timeout; a logic test runs to its end first (R414). -/
def drainTimeout (now : Nat) (f : Func) (m : Module) : Module :=
  match f with
  | .port p => if m.portState p = 3 then portDrained now p m else m
  | .region r => if m.cycling f ∧ m.fstate r = 1 ∧ !testRuns m r then abortPhase now f (m.bump kDRAIN_TIMEOUTS 1) else m
  | _ => if m.cycling f then abortPhase now f (m.bump kDRAIN_TIMEOUTS 1) else m

/-- When DRAIN_TIMEOUT_MS has passed. -/
def drainDeadline (m : Module) (f : Func) : Nat :=
  match f with
  | .port p => if m.portState p = 3 then (m.port p).drainUntil.getD 0 else 0
  | .region r => if m.fstate r = 1 then cycleUntil m f else 0
  | _ => cycleUntil m f

/-- DRAIN_TIMEOUT (R395). -/
def execDrainTimeout (f : Func) (s : State) : Host.Outcome State Fault Refusal :=
  guarded (okFunc f) (s.doesAt (drainDeadline s.mod f) (fun now m => drainTimeout now f m))

end Sys2Proof.Machine
end

