-- ==== Sys2Proof/Machine/Entries.lean ====
section
/-! DEFINITION. Dictionary values: their encodings and the check of a written value on its own (R291, R292), what is stored, and
which entries a reset returns to their defaults (R293, R379). -/

namespace Sys2Proof.Machine

/-- Bytes of a fixed-size type, by its code: BOOL, U8, U16, U32, U64, I32, F32, TIME64. -/
def tySize (ty : Nat) : Nat := [0, 1, 1, 2, 4, 8, 4, 4, 8].getD ty 0

/-- A row whose values are numbers. -/
def DictRow.numeric (row : DictRow) : Bool := decide (row.ty ≤ 8)

/-- Is a binary32 pattern a finite number, and neither subnormal nor outside lo to hi (positive patterns)? -/
def f32In (lo hi v : Nat) : Bool :=
  let w := if v = 0x80000000 then 0 else v
  (decide (w = 0) || (decide (1 ≤ v / 2 ^ 23 % 256) && decide (v / 2 ^ 23 % 256 < 255))) && decide (lo ≤ w) && decide (w ≤ hi)

/-- Does a number lie in an entry's stated range? -/
def Rng.ok : Rng → Nat → Bool
  | .any, _ => true
  | .between lo hi, v => decide (lo ≤ v) && decide (v ≤ hi)
  | .zeroOr lo hi, v => decide (v = 0) || (decide (lo ≤ v) && decide (v ≤ hi))
  | .oneOf vs, v => vs.contains v
  | .f32 lo hi, v => f32In lo hi v

/-- The check of a value on its own (R291): size, a BOOL's byte, a binary32 that is finite and normal or zero, the range. -/
def valueOk (row : DictRow) (bs : List Byte) : Bool :=
  if row.numeric then
    bs.length == tySize row.ty && (row.ty != 1 || decide (leNat bs ≤ 1)) && (row.ty != 7 || f32In 0 0xFFFFFFFF (leNat bs)) && row.rng.ok (leNat bs)
  else if row.whole then bs.length == row.size else decide (bs.length ≤ row.size)

/-- The bits that byte i of an entry's value keeps: its reserved ones read as 0 whatever is written (R4): those of DELTA_SEED (R125), of the
stage queue records (R192), of the home table (R201) and of a site layout (R202). -/
def keptBits (key : Nat) (bs : List Byte) (i : Nat) : Byte :=
  if key = kDELTA_SEED then (if i = 3 then 0 else 255)
  else if kSTAGEQ ≤ key ∧ key < kSTAGEQ + 32 then
    (if i = 7 then 0xC0 else if i = 10 ∨ i = 21 then 0xF0
     else if i = 8 ∧ (leAt bs 7 1).testBit 7 then 0
     else if (16 ≤ i ∧ i < 21) ∨ 24 ≤ i then 0 else 255)
  else if key = kHOME_TABLE then
    (if (2 ≤ i ∧ i < 8) ∨ (16 ≤ i ∧ i < 16 + 16 * leAt bs 0 2 ∧ 13 ≤ i % 16) then 0 else 255)
  else if kSITE_LAYOUT ≤ key ∧ key < kSITE_LAYOUT + 64 then
    (let list := 8 + 16 * leAt bs 0 2
     if 4 ≤ i ∧ i < 8 then 0 else if list ≤ i ∧ i < list + 2 * leAt bs 2 2 ∧ i % 2 = 1 then 0x7F else 255)
  else 255

/-- A value with its reserved bits 0. -/
def cleanValue (key : Nat) (bs : List Byte) : List Byte := bs.mapIdx (fun i b => b &&& keptBits key bs i)

/-- An entry's value as it is stored: a number's bytes, or a blob, empty where it stands at its default. -/
def rawEntry (m : Module) (row : DictRow) (key : Nat) : List Byte := if row.numeric then leBytes (tySize row.ty) (m.num key) else m.blob key

/-- Put a dictionary value in force: numbers and blobs have one home each. -/
def putEntry (key : Nat) (bs : List Byte) (m : Module) : Module :=
  match dictRow? key with
  | some row => if row.numeric then m.setNum key (leNat bs) else m.setBlob key bs
  | none => m

/-- The entries of a row. -/
def DictRow.keys (row : DictRow) : List Nat := (List.range (row.hi + 1 - row.lo)).map (fun i => dkey row.idx (row.lo + i))

/-- Entries that the configuration record holds: the stored ones but for those with flash areas of their own (R296). -/
def storedRows : List DictRow := dictRows.filter (fun r => r.pers == 1 && !(r.idx == 0x7009 || (r.idx == 0xA030 && r.lo == 6) || r.idx == 0x8102))

/-! ### Resets (R293, R379, R398) -/

/-- Put an entry at its default. -/
def defaultEntry (key : Nat) (m : Module) : Module := (m.setNum key (dictDefault key)).setBlob key []

/-- Entries that Drone and Bellows maintain themselves: generations, function states, the running image, heartbeat, module state. -/
def liveEntry (key : Nat) : Bool :=
  (decide (kREGION_GEN ≤ key) && decide (key ≤ kREGION_GEN + 0x14)) || key == kFW_VERSION || key == kFW_IMAGE || key == kDRONE_HEARTBEAT
    || key == kMODULE_STATE || (decide (kPORT_STATE ≤ key) && decide (key < kPORT_STATE + 96))

/-- What a module warm reset keeps although it is volatile (R379): 0x7000–0x7FFF but for RESTORE_GO, ALLOC_MAP, counters, STORE_STATUS and
STORE_SEQ. -/
def keptWarm (key : Nat) : Bool :=
  let idx := key / 256
  (decide (0x7000 ≤ idx) && decide (idx < 0x8000)) || idx == 0x4000 || (decide (0xA000 ≤ idx) && decide (idx < 0xB000))
    || key == kSTORE_STATUS || key == kSTORE_STATUS + 1 || liveEntry key

/-- Per-region entries that a region reset keeps: ALLOC_MAP (R144), the tier record, the shard table, the exchange tables (XCH_CFG, XBUF_BASE,
XBUF_BYTES, R382), and reserve, directory and cut epoch (R349, R398). -/
def keptRegion (key : Nat) : Bool :=
  let idx := key / 256
  idx == 0x4000 || idx == 0x4200 || idx == 0x6010 || (decide (0x6205 ≤ idx) && decide (idx ≤ 0x6207)) || (decide (0x7001 ≤ idx) && decide (idx ≤ 0x7005))

/-- What a die's or a region's reset keeps: counters, which only a module reset returns to 0 (R293), and PORT_DISABLE (R397). -/
def keptGroup (key : Nat) : Bool :=
  let idx := key / 256
  (decide (0xA000 ≤ idx) && decide (idx < 0xB000)) || idx == kPORT_DISABLE / 256

/-- Return volatile entries that a test names to their defaults: those listed, and those whose default is not 0. -/
def toDefaults (p : DictRow → Nat → Bool) (m : Module) : Module :=
  let keys := m.nums.map (·.1) ++ m.blobs.map (·.1) ++ resetNums.map (·.1)
  forL keys m (fun key m => match dictRow? key with
    | some row => if row.pers = 0 ∧ p row key then defaultEntry key m else m
    | none => m)

/-- A warm reset's volatile entries (R378). -/
def warmDefaults (m : Module) : Module := toDefaults (fun _ key => !keptWarm key) m

end Sys2Proof.Machine
end

