-- ==== Sys2Proof/Machine/Firmware.lean ====
section
/-! DEFINITION. Firmware images (R424–R427) and the flash areas that wear (R420, R421). -/

namespace Sys2Proof.Machine

/-! ### Images (R424, R425) -/

/-- The largest body of an image: 24 MiB less header and signature block. -/
def fwBodyMax : Nat := 24 * 1048576 - 1792

/-- The image that bytes spell: header, body, signature block. -/
def imageOf (b : List Byte) : FwImage :=
  let n := leAt b 16 4
  { magic := leAt b 0 4, fwVersion := leAt b 4 4, svn := leAt b 8 2, bodyDigest := sliceB b 20 32, signer := sliceB b 52 32,
    header := fitB 256 b, body := sliceB b 256 n, signature := sliceB b (264 + n) (leAt b (256 + n) 2) }

/-- Are an image's fields those of its header? -/
def headerAgrees (x : FwImage) : Bool :=
  x.header.length == 256 && leAt x.header 0 4 == x.magic && leAt x.header 4 4 == x.fwVersion && leAt x.header 8 2 == x.svn
    && leAt x.header 16 4 == x.body.length && sliceB x.header 20 32 == x.bodyDigest && sliceB x.header 52 32 == x.signer

/-- The first check that an image fails, by its place in R425: MAGIC, SIGNER, the signature over the header, SVN against the rollback
fuses, BODY_DIGEST; 0 where it passes them all, as the image that the module ships with does (R461). -/
def imageCheck (m : Module) (x : FwImage) : Nat :=
  let shipped := decide (x = Config.factoryImage)
  if !shipped && (x.magic != 0x48583936 || !headerAgrees x || decide (fwBodyMax < x.body.length)) then 1
  else if !shipped && x.signer != shake256 32 Config.fwKey then 2
  else if !shipped && !Config.falconVerify Config.fwKey x.header x.signature then 3
  else if decide (x.svn < m.flash.svnFuses) || decide (64 < x.svn) then 4
  else if !shipped && x.bodyDigest != shake256 32 x.body then 5
  else 0

def imagePasses (m : Module) (x : FwImage) : Bool := imageCheck m x == 0

/-! ### Wear (R420, R421) -/

/-- Keys of the wear counts, by area: image 0 and 1, configuration slots 2 and 10, calibration 3, soft repair copies 4 and 11,
loss sectors 64 + i, counters 6. -/
def wearImage (slot : Nat) : Nat := slot
def wearCfg (slot : Nat) : Nat := if slot = 0 then 2 else 10
def wearCal : Nat := 3
def wearSoft (copy : Nat) : Nat := if copy = 0 then 4 else 11
def wearCount : Nat := 6
def wearLoss (i : Nat) : Nat := 64 + i

def Module.wearOf (m : Module) (k : Nat) : Nat := Tab.get 0 m.flash.wear k

/-- An area's highest count has reached its rating. -/
def Module.worn (m : Module) (k : Nat) : Bool := decide (100000 ≤ m.wearOf k)

def imageIn (m : Module) (slot : Nat) : Option FwImage := if slot = 0 then m.flash.image0 else m.flash.image1

/-- Count one erase. -/
def eraseArea (k : Nat) (m : Module) : Module := m.modFlash (fun f => { f with wear := Tab.mod 0 f.wear k (· + 1) })

end Sys2Proof.Machine
end

