-- ==== Sys2Proof/Machine/ConfigCommit.lean ====
section
/-! DEFINITION. Commit, discard and lock (R284, R285): values that apply, the checks of each field, and their effects. -/

namespace Sys2Proof.Machine

/-! ### Applying values -/

/-- Put a queue's staged field in force (R99). CTX changes only while the queue holds no descriptor. -/
def putQueueField (r q w lo v : Nat) (m : Module) : Module :=
  let free := !((m.work r).flights.any (fun x => x.d.queue == q))
  m.modWork r (fun k =>
    k.modQueue q (fun x => if w = 0x00 then (if lo = 13 then (if free then { x with ctx := v } else x) else { x with enable := v == 1 })
      else if w = 0x08 then { x with cplBase := v } else { x with log2 := v }))

/-- Put a ring's staged field in force (R288). -/
def putRingField (i w lo v : Nat) (m : Module) : Module :=
  m.modRing i (fun x =>
    if w = 0x00 then { x with base := v }
    else if lo = 31 then { x with enable := v == 1 }
    else if lo = 30 then { x with kind := v }
    else if lo = 24 then { x with tregion := v }
    else if lo = 16 then { x with log2 := v }
    else { x with tnode := v })

/-- Put a word of a program slot in force (R166): its count, or bits 63:28 of an instruction, whose others are reserved (R167). -/
def putProgWord (r p j v : Nat) (m : Module) : Module :=
  m.modTrain r (fun t =>
    let old := fitB 552 (Tab.get [] t.progs p)
    let v := if j = 0 then v else v * 2 ^ 28
    { t with progs := Tab.put t.progs p (sliceB old 0 (8 * j) ++ leBytes 8 v ++ sliceB old (8 * j + 8) (544 - 8 * j)) })

/-- Block, word and low bit of a register field's key. -/
def keyBlock (key : Nat) : Nat := key / 64 / 65536
def keyWord (key : Nat) : Nat := key / 64 % 65536
def keyLow (key : Nat) : Nat := key % 64

/-- Put a staged value in force. -/
def putStaged (now : Nat) (x : Staged) (m : Module) : Module :=
  if x.dict then putEntry x.key x.bytes m
  else
    let b := keyBlock x.key
    let w := keyWord x.key
    let lo := keyLow x.key
    if regionBlock b then
      let r := b - 0x010
      if w = 0x0200 then m.modWork r (fun k => { k with quantum := x.value, quantumStart := now })
      else if w = 0x0808 then m.modWork r (fun k => { k with keep := x.value })
      else if w < 0x1800 then putQueueField r ((w - 0x1000) / 0x20) (w % 0x20) lo x.value m
      else putProgWord r ((w - 0x8000) / 0x400) (w % 0x400 / 8) x.value m
    else if b = 0x300 then putRingField (w / 0x20) (w % 0x20) lo x.value m
    else m

/-! ### Checks -/

/-- A check that failed: its item, the error field that it writes (key and value, where it has one), and the status. -/
structure Bad where
  group : Nat
  item : Nat
  err : Option (Nat × Nat) := none
  st : Nat := 2
  deriving DecidableEq, Repr

/-- Two byte ranges (start, length) overlap. -/
def clash (a b : Nat × Nat) : Bool := decide (0 < a.2) && decide (0 < b.2) && decide (a.1 < b.1 + b.2) && decide (b.1 < a.1 + a.2)

/-- A range lies in the data range. -/
def inData (a : Nat × Nat) : Bool := decide (a.1 + a.2 ≤ dataEnd)

/-- Do the ranges of index i leave the data range, or overlap one of `others`, an earlier index's or each other? Of two that overlap
the later one is named (DESIGN CHOICE, log entry 167). -/
def overlapsAt (rs : List (List (Nat × Nat))) (others : List (Nat × Nat)) (i : Nat) : Bool :=
  let mine := rs.getD i []
  let before := (rs.take i).flatten
  !mine.all inData || mine.any (fun a => (others ++ before).any (clash a))
    || (List.range mine.length).any (fun j => (mine.take j).any (clash (mine.getD j (0, 0))))

/-- The first entry of a table that is refused for what it says alone, or for the ranges that it takes. -/
def firstRefused {α : Type} (es : List α) (alone : α → Bool) (ranges : α → List (Nat × Nat)) (others : List (Nat × Nat)) : Option Nat :=
  (List.range es.length).find? (fun i => (es[i]?).any alone || overlapsAt (es.map ranges) others i)

/-- Shadow and retention areas of a region (R172, R180). -/
def sparesOf (m : Module) (r : Nat) : List (Nat × Nat) :=
  [(m.num (kSHADOW_BASE + r), 4096 * m.num (kSHADOW_COUNT + r)), (m.num (kRETAIN_BASE + r), 512 * m.num (kRETAIN_COUNT + r))]

/-- Frame and stage areas of a tier record (R145). -/
def tierAreas (m : Module) (r : Nat) : List (Nat × Nat) :=
  if m.num (kTIER_CFG + r) = 0 then []
  else let h := m.tierHdr r; [(h.frameBase, h.frames * h.frameBytes), (h.stageBase, h.stages * 4194304)]

/-- Entries of a region's tier record. -/
def tierEntries (m : Module) (r : Nat) : List TierEnt :=
  if m.num (kTIER_CFG + r) = 0 then [] else (List.range (m.tierHdr r).entries).map (m.tierEnt r)

/-- The first offending entry of a tier record (R147); 0xFFFF for the header. -/
def tierBad (old new : Module) (r : Nat) : Option Nat :=
  match (tierEntries old r).findIdx? (fun t => t.state == 1 || t.state == 4) with
  | some i => some i
  | none =>
    let cfg := new.num (kTIER_CFG + r)
    if cfg = 0 then none
    else
      let h := new.tierHdr r
      let n := h.entries
      let areas := tierAreas new r
      if new.num (kTIER_POLICY + r) = 0 ∨ n = 0 ∨ h.frames = 0 ∨ h.stages = 0 ∨ h.frameBase % 2097152 ≠ 0 ∨ h.stageBase % 2097152 ≠ 0
          ∨ h.frameBytes % 2097152 ≠ 0 ∨ !inData (cfg, 64 + 32 * n) ∨ overlapsAt [areas] [] 0 then some 0xFFFF
      else
        firstRefused (tierEntries new r)
          (fun t => t.blocks = 0 || decide (4096 < t.blocks) || decide (h.frameBytes < t.blocks * coldSize t.home) || (t.home && decide (2 ≤ new.num kEXCH_POLICY)))
          (fun t => [(t.compact, 576 * t.blocks)]) areas

/-- Is an entry of a shard table within its fields' ranges (R161)? -/
def extentOk (new : Module) (r : Nat) (e : Extent) : Bool :=
  decide (e.form ≤ 2) && (e.wfmt == 1 || e.wfmt == 3) && decide (1 ≤ e.blocks)
    && (if e.form = 2 then (match (tierEntries new r)[e.base]? with
          | some t => t.blocks == e.blocks
          | none => false)
        else e.base % 256 == 0 && e.acc % 256 == 0)

/-- Part arrays and accumulators of an extent, whatever its tier state. -/
def extentAreas (new : Module) (r : Nat) (e : Extent) : List (Nat × Nat) :=
  if e.form = 2 then [((new.tierEnt r e.base).compact, 576 * e.blocks)] else extentRanges new r e ++ [(e.acc, 1024 * e.blocks)]

/-- The first offending entry of a shard table (R162); 0xFFFF for the header, and where work in flight forbids the commit (DESIGN CHOICE,
log entry 167). -/
def shardBad (old new : Module) (r : Nat) : Option Nat :=
  let cfg := new.num (kSHARD_CFG + r)
  let es := new.extents r
  let n := es.length
  if (old.work r).flights.any (fun x => x.d.cls == 5 && x.phase != 3) ∨ (old.rg r).train.commits.any (fun c => c.half.isSome) then some 0xFFFF
  else if cfg = 0 then none
  else if n = 0 ∨ 4096 < n ∨ !inData (cfg, 64 + 32 * n) then some 0xFFFF
  else firstRefused es (fun e => !extentOk new r e) (extentAreas new r) (sparesOf new r ++ tierAreas new r)

/-- Is a stage queue record refused (R192)? An all-zero record, which names no queue, is accepted (log entry 40). -/
def stageBad (old new : Module) (i : Nat) : Bool :=
  let q := new.sqRec i
  let o := old.sqRec i
  let ring := fun (x : SqRec) => (addrOff x.ring, x.slots * x.entry * 256)
  if (new.blob (kSTAGEQ + i)).all (· == 0) ∧ !o.enable then false
  else q.slots = 0 || decide (64 < q.slots) || q.entry = 0 || q.ring % 256 ≠ 0
    || (o.enable && (o.slots != q.slots || o.entry != q.entry || o.ring != q.ring))
    || (!q.out && (q.freeSig = 255 || addrNode q.ring ≠ new.node || !inData (ring q)
        || (new.extents (addrRegion q.ring)).any (fun e => (extentAreas new (addrRegion q.ring) e).any (clash (ring q)))
        || (List.range 32).any (fun j =>
            let p := new.sqRec j
            j != i && !p.out && p.slots != 0 && addrRegion p.ring == addrRegion q.ring && clash (ring p) (ring q))))

/-- Some owned block is open, or an exchange buffer holds a payload (R204). -/
def exchangeOpen (m : Module) : Bool :=
  m.regions.any (fun g => g.2.xch.payloads ≠ [])
    || m.owners.any (fun r => (m.extents r).any (fun e => (List.range e.blocks).any (fun b => (m.hdr r e b).isOpen)))

/-- The first bad range of the home table (R201); 0xFFFF for the header. -/
def homeBad (new : Module) : Option Nat :=
  let t := new.blob kHOME_TABLE
  let n := leAt t 0 2
  let first := fun e => leAt t (16 + 16 * e) 8
  let count := fun e => leAt t (24 + 16 * e) 4
  let site := fun e => leAt t (28 + 16 * e) 1
  if n = 0 ∨ 4096 < n ∨ t.length < 16 + 16 * n then some 0xFFFF
  else match (List.range n).find? (fun e => count e = 0 || first e ≠ (if e = 0 then 0 else first (e - 1) + count (e - 1))
      || decide (63 < site e) || new.blob (kSITE_LAYOUT + site e) = []) with
    | some e => some e
    | none => if first (n - 1) + count (n - 1) = leAt t 8 8 then none else some 0xFFFF

/-- Is a site layout out of its ranges, or does it not cover the model's indices once each (R202)? -/
def layoutBad (new : Module) (site : Nat) : Bool :=
  let b := new.blob (kSITE_LAYOUT + site)
  let segs := leAt b 0 2
  let nodes := leAt b 2 2
  let seg := fun j => (leAt b (8 + 16 * j) 8, leAt b (16 + 16 * j) 4)
  let total := if new.blob kHOME_TABLE = [] then (List.range segs).foldl (fun a j => max a ((seg j).1 + (seg j).2)) 0 else leAt (new.blob kHOME_TABLE) 8 8
  segs = 0 || decide (8 < segs) || nodes = 0 || decide (8192 < nodes) || decide (b.length < 8 + 16 * segs + 2 * nodes)
    || (List.range segs).any (fun j =>
        let q := leAt b (20 + 16 * j) 2
        q = 0 || decide (8192 < q) || decide (nodes < leAt b (22 + 16 * j) 2 + q) || decide (total < (seg j).1 + (seg j).2)
          || (List.range j).any (fun i => clash (seg i) (seg j)))
    || ((List.range segs).map (fun j => (seg j).2)).sum ≠ total

/-- Is an entry of an exchange table refused for what it says alone (R204)? -/
def xchEntBad (new : Module) (r : Nat) (e : Extent) : Bool :=
  let x := new.xchEnt r e.idx
  let own := new.num kSITE_ID
  let home := new.homeSite x.gfirst
  x.stride = 0
    || (List.range e.blocks).any (fun b => match new.ownerAt own (new.gidx r e b) with
        | some o => o.1 != new.node || o.2.1 != r
        | none => true)
    || (List.range e.blocks).any (fun b => new.homeRange (new.gidx r e b) ≠ new.homeRange x.gfirst)
    || (e.form == 1) != (home == some own)
    || x.snap % 256 ≠ 0 || x.macc % 256 ≠ 0
    || (x.snap = 0 && decide (2 ≤ new.num kEXCH_POLICY)) || (e.form = 1 && x.macc = 0)

/-- The first offending entry of an exchange table (R204, R214). -/
def xchBad (new : Module) (r : Nat) : Option Nat :=
  if new.num (kXCH_CFG + r) = 0 then none
  else
    let es := new.extents r
    let arrays := fun (e : Extent) =>
      let x := new.xchEnt r e.idx
      (if x.snap = 0 then [] else [(x.snap, 1024 * e.blocks)]) ++ (if e.form = 1 then [(x.macc, 1024 * e.blocks)] else [])
    let others := es.flatMap (extentAreas new r) ++ sparesOf new r ++ tierAreas new r ++ [(new.num (kXBUF_BASE + r), new.num (kXBUF_BYTES + r))]
    match firstRefused es (xchEntBad new r) arrays others with
    | some i => some i
    | none =>
      if resultReserve es ≠ 0 ∧ new.num (kXBUF_BYTES + r) ≤ resultReserve es then es.findIdx? (fun e => e.form = 1) else none

/-- XBUF_BYTES alone does not exceed the reserve that the table in force needs (R214). -/
def xbufBad (new : Module) (r : Nat) : Bool :=
  new.num (kXCH_CFG + r) ≠ 0 && resultReserve (new.extents r) ≠ 0 && decide (new.num (kXBUF_BYTES + r) ≤ resultReserve (new.extents r))

/-- The group at which a group table is out of range, or lacks this node (R248, log entry 108); a header with MEMBERS 0 ends the table (log
entry 41). A header beyond the data range is a group out of range, named 0xFFFE. -/
def collBad (new : Module) : Nat → Nat → Option Nat
  | 0, _ => none
  | n + 1, off =>
    if dataEnd < off + 16 then some 0xFFFE
    else
      let cnt := new.peek 0 (off + 2) 2
      if cnt = 0 then none
      else if 32768 < cnt ∨ dataEnd < off + 16 + 4 * cnt ∨ (List.range cnt).all (fun i => bits (new.peek 0 (off + 16 + 4 * i) 4) 18 4 ≠ new.node) then
        some (new.peek 0 off 2)
      else collBad new n (off + 16 + 4 * cnt)

/-- HOST_NODE lies in a set of kind 2 at the module's own site (R260). -/
def hostNodeOk (new : Module) : Bool := let h := new.num kHOST_NODE; new.kindOf h == 2 && new.siteOf h == new.num kSITE_ID

/-- The combinations of role entries (R383, R386). -/
def roleBad (new : Module) : Bool :=
  let role := new.num kMODULE_ROLE
  (role ≠ 1 && (List.range 4).any (fun e => new.edgeRole e == 2))
    || (role = 1 && !hostNodeOk new)
    || (role = 2 && (List.range 16).any (fun r => new.num (kSHARD_CFG + r) ≠ 0 || new.num (kXCH_CFG + r) ≠ 0))

/-- SNAP_POLICY without a pool (R386). -/
def poolBad (new : Module) : Bool :=
  new.num kSNAP_POLICY ≠ 0 && (new.kindOf (new.num kPOOL_NODE) ≠ 1 || (List.range 4).all (fun e => new.edgeRole e ≠ 3 && new.edgeRole e ≠ 4))

/-- A cut drains, its manifest is being written, or a restore runs (R363). -/
def cutBusy (m : Module) : Bool := m.num kCUT_STATE = 1 || m.num kCUT_STATE = 2 || (decide (1 ≤ m.num kRESTORE_STATUS) && decide (m.num kRESTORE_STATUS ≤ 3))

/-- Trust table: counts, reserved fields, and one line peer per node (R430). -/
def trustBad (new : Module) : Bool :=
  let b := new.blob kTRUST_TABLE
  let n := leAt b 0 2
  let node := fun i => leAt b (16 + 24 * i) 2
  let fl := fun i => leAt b (18 + 24 * i) 1
  decide (4096 < n) || decide (b.length < 16 + 24 * n) || leAt b 2 14 ≠ 0
    || (List.range n).any (fun i => decide (8 ≤ fl i) || leAt b (19 + 24 * i) 5 ≠ 0
        || ((fl i).testBit 0 && (List.range i).any (fun j => (fl j).testBit 0 && node j == node i)))

/-- The image that FW_STAGE and FW_LEN name (R427); none where it does not lie in this module's data range. -/
def stagedImage (new : Module) : Option FwImage :=
  let a := new.num kFW_STAGE
  let n := new.num kFW_LEN
  if addrNode a = new.node ∧ inData (addrOff a, n) then
    let b := new.peekB (addrRegion a) (addrOff a) n
    if n = 1544 + leAt b 16 4 then some (imageOf b) else none
  else none

/-- A calibration image: SERIAL, its digest (R419). -/
def calBad (b : List Byte) : Bool :=
  b.length ≤ 32 || Config.calSerial b ≠ serialBytes || b.drop (b.length - 32) ≠ shake256 32 (b.take (b.length - 32))

/-- Does a queue group's CPL_BASE name a node that is no kind 0 of SET_TABLE (R273)? -/
def cplKindBad (new : Module) (x : QueueSt) : Bool := new.kindOf (addrNode x.cplBase) != 0

/-- Is there a queue group in force that a SET_TABLE would leave so, but for groups at their reset values (DEDUCED, log entry 150)? -/
def cplLeftBad (new : Module) : Bool :=
  new.regions.any (fun g => g.2.work.queues.any (fun x => (x.2.cplBase != 0 || x.2.log2 != 0) && cplKindBad new x.2))

/-- Is a key one of an entry's per-part keys (base, parts)? -/
def ofKey (k base n : Nat) : Bool := decide (base ≤ k) && decide (k < base + n)

/-- The check of a dictionary value at its commit: error field and status, where it fails. `xs` are all values of the commit. -/
def dictBad (old new : Module) (xs : List Staged) (k : Nat) : Option (Option (Nat × Nat) × Nat) :=
  let plain := fun (b : Bool) => if b then some (none, 2) else none
  let named := fun (base : Nat) (e : Option Nat) => e.map (fun v => (some (base, v), 2))
  let staged := fun (key : Nat) => xs.any (fun x => x.dict && x.key == key)
  let short := xs.any (fun x => x.dict && x.key == k && (dictRow? k).any (fun row => !row.numeric && row.whole && x.bytes.length != row.size))
  if short then some (none, 2)
  else if ofKey k kTIER_CFG 16 then named (kTIER_ERROR + (k - kTIER_CFG)) (tierBad old new (k - kTIER_CFG))
  else if ofKey k kTIER_POLICY 16 then
    let r := k - kTIER_POLICY
    let busy := old.num (kTIER_POLICY + r) = 1 && (tierEntries old r).any (fun t => t.state == 1 || t.state == 3 || t.state == 4)
    named (kTIER_ERROR + r) (if new.num k = 0 ∧ (new.num (kTIER_CFG + r) ≠ 0 ∨ busy) then some 0xFFFF else none)
  else if ofKey k kSHARD_CFG 16 then
    let r := k - kSHARD_CFG
    match named (kSHARD_ERROR + r) (shardBad old new r) with
    | some x => some x
    | none => plain (roleBad new && new.num k ≠ 0 && new.num kMODULE_ROLE = 2)
  else if ofKey k kSHADOW_BASE 16 ∨ ofKey k kSHADOW_COUNT 16 ∨ ofKey k kRETAIN_BASE 16 ∨ ofKey k kRETAIN_COUNT 16 then
    let r := k % 256 - 1
    plain ((old.rg r).train.commits.any (fun c => c.half.isSome) || (old.rg r).train.retainUsed ≠ []
      || new.num (kSHADOW_BASE + r) % 4096 ≠ 0 || new.num (kRETAIN_BASE + r) % 256 ≠ 0)
  else if ofKey k kNORM_BASE 16 then plain (new.num k % 32 ≠ 0)
  else if ofKey k kSTAGEQ 32 then named kSTAGEQ_ERROR (if stageBad old new (k - kSTAGEQ) then some (k - kSTAGEQ) else none)
  else if k = kHOME_TABLE then
    match named kHOME_ERROR (homeBad new) with
    | some x => some x
    | none => plain (exchangeOpen old)
  else if ofKey k kSITE_LAYOUT 64 then plain (exchangeOpen old || layoutBad new (k - kSITE_LAYOUT))
  else if ofKey k kXCH_CFG 16 then
    let r := k - kXCH_CFG
    match named kXCH_ERROR (xchBad new r) with
    | some x => some x
    | none => plain (exchangeOpen old || (new.num k ≠ 0 && new.num kMODULE_ROLE = 2))
  else if ofKey k kXBUF_BASE 16 then plain (new.num k % 2097152 ≠ 0)
  else if ofKey k kXBUF_BYTES 16 then named kXCH_ERROR (if xbufBad new (k - kXBUF_BYTES) then some 0xFFFF else none)
  else if k = kEXCH_POLICY then
    if 2 ≤ new.num k then
      match (List.range 16).findSome? (fun r => ((tierEntries new r).findIdx? TierEnt.home).map (fun i => (r, i))) with
      | some (r, i) => some (some (kTIER_ERROR + r, i), 2)
      | none =>
        match (List.range 16).findSome? (fun r => if new.num (kXCH_CFG + r) = 0 then none
            else (new.extents r).findIdx? (fun e => (new.xchEnt r e.idx).snap = 0)) with
        | some i => some (some (kXCH_ERROR, i), 2)
        | none => plain (exchangeOpen old)
    else plain (exchangeOpen old)
  else if k = kSITE_ID then plain (exchangeOpen old || (new.num kMODULE_ROLE = 1 && !hostNodeOk new))
  else if k = kROUND_STEPS then plain (exchangeOpen old)
  else if k = kCOLL_BASE then
    if old.fabric.reqs ≠ [] then some (none, 2)
    else named kCOLL_ERROR (if new.num k = 0 then none else collBad new 1024 (addrOff (new.num k)))
  else if k = kNODE_ID ∨ k = kSITE_PREFIX ∨ k = kKG_UDP_PORT then plain (old.fabric.reqs ≠ [])
  else if k = kSET_TABLE then plain (old.fabric.reqs ≠ [] || cplLeftBad new || poolBad new || (new.num kMODULE_ROLE = 1 && !hostNodeOk new))
  else if k = kMODULE_ROLE then plain (roleBad new)
  else if k = kHOST_NODE then plain (new.num kMODULE_ROLE ≠ 1 || !hostNodeOk new)
  else if ofKey k kEDGE_ROLE 4 then plain ((new.num k = 2 && decide (2 ≤ k - kEDGE_ROLE)) || (new.num k = 2 && roleBad new) || poolBad new)
  else if k = kSNAP_POLICY then
    plain (poolBad new || (decide (2 ≤ new.num k) && (List.range 16).any (fun r => new.num (kRESERVE_COUNT + r) = 0)))
  else if k = kPOOL_NODE then plain (poolBad new)
  else if ofKey k kRESERVE_BASE 16 ∨ ofKey k kRESERVE_COUNT 16 ∨ ofKey k kRESERVE_HCOUNT 16 ∨ ofKey k kRDIR_BASE 16 then
    let r := k % 256 - 1
    plain (cutBusy old || new.num (kRESERVE_BASE + r) % 2097152 ≠ 0 || new.num (kRDIR_BASE + r) % 256 ≠ 0
      || (new.num (kRESERVE_COUNT + r) ≠ 0 && new.num (kRDIR_BASE + r) = 0)
      || ((List.range 16).any (fun q => new.num (kRESERVE_COUNT + q) = 0) && decide (2 ≤ new.num kSNAP_POLICY)))
  else if k = kCAL_IMAGE then
    if calBad (new.blob k) then some (none, 2) else if old.worn wearCal ∨ old.flash.calBusy.isSome then some (none, 9) else none
  else if k = kFW_STAGE ∨ k = kFW_LEN then
    if staged kFW_STAGE ∧ staged kFW_LEN then
      match stagedImage new with
      | some x => if !imagePasses old x then some (none, 2) else if old.flash.fwBusy.isSome ∨ old.worn (wearImage (1 - old.flash.running)) then some (none, 9) else none
      | none => some (none, 2)
    else none
  else if k = kTRUST_TABLE then plain (trustBad new)
  else none

/-- The check of a register field at its commit: does it fail? -/
def fieldBad (old new : Module) (k : Nat) : Bool :=
  let b := keyBlock k
  let w := keyWord k
  if regionBlock b then
    let x := (new.work (b - 0x010)).queue ((w - 0x1000) / 0x20)
    if 0x1000 ≤ w ∧ w < 0x1800 then
      (w % 0x20 = 0x08 && x.cplBase % 32 ≠ 0) || (w % 0x20 = 0x10 && decide (20 ≤ x.log2)) || cplKindBad new x
    else false
  else if b = 0x300 then
    let i := w / 0x20
    let x := new.ring i
    let o := old.ring i
    x.tnode / 8 ≠ new.node / 8 || decide (x.log2 < 4) || decide (16 < x.log2) || x.base % 4096 ≠ 0
      || !inData (spaceOff x.base, (if x.kind = 0 then 64 else 128) * 2 ^ x.log2)
      || (o.enable && (o.base != x.base || o.kind != x.kind || o.log2 != x.log2 || o.tnode != x.tnode || o.tregion != x.tregion))
  else false

/-- ITEM of a staged value: the register's offset, or the subindex (R288). -/
def itemOf (x : Staged) : Nat := if x.dict then x.key % 256 else keyWord x.key

/-- The entry that COMMIT_STATUS names for a value that does not stand with others: of a role, the entry that the role does not admit
(R383); of SNAP_POLICY, the RESERVE_COUNT that it needs (R386, worked example), even where that entry is in force and not selected. -/
def blamed (new : Module) (k : Nat) : Nat :=
  let regions := fun (base : Nat) => (List.range 16).map (fun r => base + r)
  if k = kMODULE_ROLE ∧ new.num k ≠ 1 then
    let tables := if new.num k = 2 then (regions kSHARD_CFG ++ regions kXCH_CFG).filter (fun e => new.num e ≠ 0) else []
    (tables ++ ((List.range 4).filter (fun e => new.edgeRole e == 2)).map (fun e => kEDGE_ROLE + e)).headD k
  else if k = kSNAP_POLICY ∧ !poolBad new then ((regions kRESERVE_COUNT).filter (fun e => new.num e = 0)).headD k
  else k

/-- A dictionary value that fails its check, as COMMIT_STATUS names it. -/
def badEntry (new : Module) (g : Nat) (x : Staged) (e : Option (Nat × Nat) × Nat) : Bad :=
  let k := if e.1.isNone then blamed new x.key else x.key
  { group := if k = x.key then g else ((dictRow? k).map (fun row => groupOfKey row k)).getD g, item := k % 256, err := e.1, st := e.2 }

/-- The first value of the selected groups that fails its check. -/
def firstBad (old new : Module) (gs : List (Nat × Staged)) : Option Bad :=
  gs.findSome? (fun x =>
    if x.2.dict then (dictBad old new (gs.map (·.2)) x.2.key).map (badEntry new x.1 x.2)
    else if fieldBad old new x.2.key then some { group := x.1, item := itemOf x.2 } else none)

/-! ### Effects -/

/-- Keys whose commit in RUN acts from the next round boundary (R382). -/
def deferredKey (k : Nat) : Bool :=
  k == kDEADLINE_MS || k == kQUORUM || k == kQUORUM_HOLD_MS || k == kS_MAX || ofKey k kSTALE_W 8 || k == kTIME_ALIGN || k == kTIME_REF
    || k == kROUND_T0 || k == kROUND_PERIOD_NS

/-- Keys of the snapshot policy, whose commit in RUN acts from the next step close (R382). -/
def snapKey (k : Nat) : Bool := k == kSNAP_POLICY || k == kSNAP_EVERY || k == kSNAP_MIN_STEPS || k == kADVISE_MASK || k == kPOOL_NODE

/-- What the commit of one entry does beside its value. -/
def entryEffect (now : Nat) (old : Module) (k : Nat) (m : Module) : Module :=
  if ofKey k kTIER_CFG 16 then
    let r := k - kTIER_CFG
    forN (tierEntries m r).length (m.modTier r (fun _ => {})) (fun i m =>
      setTier now r i { m.tierEnt r i with state := 0, frame := 0, stage := 0xFFFF } m)
  else if k = kCOMP_WORKING then
    forN 16 m (fun r m => if m.num (kSHARD_CFG + r) = 0 then m.modTrain r (fun t => { t with compWorking := m.num k == 1 }) else m)
  else if ofKey k kSTAGEQ 32 then
    let i := k - kSTAGEQ
    if (m.sqRec i).enable ∧ !(old.sqRec i).enable then stageEnable now i m
    else if (old.sqRec i).enable ∧ !(m.sqRec i).enable then stageDisable now i m
    else m
  else if k = kPOWER_CAP_W then
    (m.setNum kSHORT_TERM_W (m.num k * 7 / 6)).modBel (fun b => { b with bucketNj := min b.bucketNj (bucketMax (sustained m)) })
  else if ofKey k kRESERVE_BASE 16 ∨ ofKey k kRESERVE_COUNT 16 ∨ ofKey k kRESERVE_HCOUNT 16 ∨ ofKey k kRDIR_BASE 16 then
    let r := k % 256 - 1
    ((((forN 16 m (fun q m => m.modCut q (fun _ => { failed := true }))).setNum (kCUT_EPOCH + r) 0).setNum kCUT_STATE 0).setNum kCUT_STEP 0).setNum kDRAIN_LEFT 0
  else if k = kCAL_IMAGE then
    ((eraseArea wearCal m).modFlash (fun f => { f with calBusy := some (now + 4 * sec, m.blob k), cal := none })).setBlob k (old.blob k)
  else if k = kFW_LEN then
    match stagedImage m with
    | some x =>
      let slot := 1 - m.flash.running
      (((eraseArea (wearImage slot) m).modFlash (fun f =>
        { (if slot = 0 then { f with image0 := none } else { f with image1 := none }) with fwBusy := some (now + 30 * sec, slot, x) })).setNum kFW_UPDATE_STATUS 1)
    | none => m
  else if snapKey k ∧ old.inRun then
    m.modCuts (fun c => if (Tab.find? c.params k).isSome then c else { c with params := Tab.put c.params k (old.num k) })
  else if deferredKey k ∧ old.inRun then
    m.modCh (fun c => if (Tab.find? c.params k).isSome then c else { c with params := Tab.put c.params k (old.num k) })
  else m

/-- What the commit of one register field does beside its value: the start and the end of a ring (R266). -/
def fieldEffect (now : Nat) (old : Module) (k : Nat) (m : Module) : Module :=
  if keyBlock k = 0x300 ∧ keyWord k % 0x20 = 0x08 ∧ keyLow k = 31 then
    let i := keyWord k / 0x20
    if (m.ring i).enable ∧ !(old.ring i).enable then ringEnable now i m
    else if (old.ring i).enable ∧ !(m.ring i).enable then ringDisable now i m
    else m
  else m

/-! ### Commit, discard, lock (R284, R285) -/

/-- The selected groups that a commit treats as groups: not locked. -/
def selected (m : Module) (mask : Nat) : List Nat := (List.range 29).filter (fun g => mask.testBit g && !(m.num kLOCK).testBit g)

/-- The firmware image takes part where both entries are committed together. -/
def effectKeys (xs : List Staged) : List Staged :=
  if xs.any (fun x => x.dict && x.key == kFW_STAGE) then xs else xs.filter (fun x => !(x.dict && x.key == kFW_LEN))

/-- The tables that a commit takes from memory: shard tables first, whose extents say how long an exchange table is (R161, R203). -/
def takeTables (xs : List Staged) (m : Module) : Module :=
  let has := fun (k : Nat) => xs.any (fun x => x.dict && x.key == k)
  forN 16 (forN 16 m (fun r m => if has (kSHARD_CFG + r) then takeShard r m else m)) (fun r m => if has (kXCH_CFG + r) then takeXch r m else m)

/-- Bytes of a group table from its start, by its groups (R248). -/
def collBytes (m : Module) : Nat → Nat → Nat
  | 0, _ => 0
  | n + 1, off => let cnt := m.peek 0 (off + 2) 2; if cnt = 0 ∨ 32768 < cnt then 16 else 16 + 4 * cnt + collBytes m n (off + 16 + 4 * cnt)

/-- What the check of an entry reads from memory: region, offset, bytes, and the error field that names it. -/
def tableOf (new : Module) (k : Nat) : Option (Nat × Nat × Nat × Option Nat) :=
  if new.num k = 0 then none
  else if ofKey k kSHARD_CFG 16 then let r := k - kSHARD_CFG; some (r, new.num k, 64 + 32 * (new.extents r).length, some (kSHARD_ERROR + r))
  else if ofKey k kXCH_CFG 16 then let r := k - kXCH_CFG; some (r, new.num k, 32 * (new.extents r).length, some kXCH_ERROR)
  else if ofKey k kTIER_CFG 16 then let r := k - kTIER_CFG; some (r, new.num k, 64 + 32 * (new.tierHdr r).entries, some (kTIER_ERROR + r))
  else if k = kCOLL_BASE then some (0, addrOff (new.num k), collBytes new 1024 (addrOff (new.num k)), some kCOLL_ERROR)
  else if k = kFW_LEN then some (addrRegion (new.num kFW_STAGE), addrOff (new.num kFW_STAGE), new.num k, none)
  else none

/-- Drone reads the tables that a commit names (R134). One that cannot be read refuses the commit with 0x01 (log entry 171). -/
def readTables (now : Nat) (new : Module) (xs : List (Nat × Staged)) (m : Module) : Module × Option Bad :=
  (xs.filter (fun x => x.2.dict)).foldl (fun (a : Module × Option Bad) x =>
    match tableOf new x.2.key with
    | none => a
    | some (r, off, n, err) =>
      match memRead now r 9 off n a.1 with
      | (m, st, _) => (m, a.2 <|> (if st = 1 then some { group := x.1, item := itemOf x.2, err := err.map (fun e => (e, 0xFFFF)), st := 1 } else none))) (m, none)

/-- The security engine checks a staged image's signature (R427, R431): without it the commit is refused with 0x02. -/
def checkImage (now : Nat) (new : Module) (xs : List (Nat × Staged)) (m : Module) : Module × Option Bad :=
  match xs.find? (fun x => x.2.dict && x.2.key == kFW_LEN) with
  | none => (m, none)
  | some x =>
    if !xs.any (fun y => y.2.dict && y.2.key == kFW_STAGE) ∨ stagedImage new = none then (m, none)
    else match engineOp now 5 m with
      | (m, true) => (m, none)
      | (m, false) => (m, some { group := x.1, item := itemOf x.2 })

/-- The error fields that name what the last commit refused name nothing before a commit is checked (R197, R258). -/
def clearErrors (m : Module) : Module := (m.setNum kSTAGEQ_ERROR 0xFF).setNum kCOLL_ERROR 0xFFFF

/-- Regions with a selected group whose PLL is stopped: a commit wakes them first (R284, R286). -/
def asleepGroups (m : Module) (mask : Nat) : List Nat := (selected m mask).filter (fun g => decide (g < 16) && (m.rg g).power.pllOff)

/-- A write to MODULE_COMMIT with DISCARD = 0; answers the status. -/
def commitGroups (now : Nat) (src : Source) (mask : Nat) (m : Module) : Module × Nat :=
  let gs := selected m mask
  if gs.any (fun g => groupInReset m g || ((m.grp g).items ≠ [] && (m.grp g).claim ≠ some src)) then
    (m.setNum kCOMMIT_STATUS (place 9 31 24), 9)
  else
    let m := clearErrors m
    let xs := gs.flatMap (fun g => (m.grp g).items.map (fun x => (g, x)))
    let staged := fun (m : Module) => takeTables (xs.map (·.2)) (forL xs m (fun x m => putStaged now x.2 m))
    let (m, unread) := readTables now (staged m) xs m
    let (m, forged) := checkImage now (staged m) xs m
    let new := staged m
    match unread <|> forged <|> firstBad m new xs with
    | some b =>
      let m := match b.err with
        | some (k, v) => m.setNum k v
        | none => m
      (m.setNum kCOMMIT_STATUS (place b.st 31 24 + place b.group 23 19 + place b.item 15 0), b.st)
    | none =>
      let out := forL (effectKeys (xs.map (·.2))) new (fun x n => if x.dict then entryEffect now m x.key n else fieldEffect now m x.key n)
      (((forL gs out clearGroup).bump kCONFIG_COMMITS 1).setNum kCOMMIT_STATUS 0, 0)

/-- A write with DISCARD = 1; answers the status. -/
def discardGroups (now : Nat) (src : Source) (mask : Nat) (m : Module) : Module × Nat :=
  let gs := (List.range 29).filter (fun g => mask.testBit g && (m.grp g).items ≠ [])
  if gs.any (fun g => (m.grp g).claim ≠ some src && decide (now < (m.grp g).lastWrite + 10 * sec)) then (m, 9)
  else (forL gs m clearGroup, 0)

/-- A write to LOCK; answers the status. -/
def lockGroups (v : Nat) (m : Module) : Module × Nat :=
  let v := v % 2 ^ 29
  if (List.range 29).any (fun g => v.testBit g && (m.grp g).items ≠ []) then (m, 9) else (m.setNum kLOCK (m.num kLOCK ||| v), 0)

/-- Answer a status beside an effect. -/
def answered (x : Module × Nat) : Module := x.1.status x.2

end Sys2Proof.Machine
end

