-- ==== Sys2Proof/Machine/Registers.lean ====
section
/-! DEFINITION. Register accesses (R277–R281, R286): reads, writes with their direct and staged fields, accesses that a sleeping domain
holds, and the register frames. -/

namespace Sys2Proof.Machine

/-! ### Reads and writes -/

/-- The covered bits of an 8 B word, and the value written, of a write of `width` bytes at byte `at_` of it. -/
def wordMask (at_ width : Nat) : Nat := (2 ^ (8 * width) - 1) * 2 ^ (8 * at_)
def wordValue (at_ width v : Nat) : Nat := (v % 2 ^ (8 * width)) * 2 ^ (8 * at_)

/-- Read a register; an offset in no span reads 0 and counts in REG_VOID. -/
def regRead (now b off width : Nat) (m : Module) : Module × Nat :=
  match canonOff b off with
  | none => (m.bump kREG_VOID 1, 0)
  | some o => (m, regWord m now b (o / 8 * 8) / 2 ^ (8 * (o % 8)) % 2 ^ (8 * width))

/-- A write of HEAD: records that waited for a place in the ring go in (R85, R281). -/
def setHead (now r q v : Nat) (m : Module) : Module :=
  admitHeld now r (releaseRing now r q (m.modWork r (fun w => w.modQueue q (fun x => { x with head := v % 2 ^ 20 }))))

/-- Direct fields of a region controller's word. -/
def regionDirect (now r w mask v : Nat) (m : Module) : Module :=
  let q := (w - 0x1000) / 0x20
  if w = 0x0200 then (if v.testBit 0 then m.modWork r (requestSwitch (bits v 10 8)) else m)
  else if w = 0x0400 then FlagReg.clear v m (.ulane r)
  else if w = 0x0800 then (if mask.testBit 0 then setFence r (bits v 15 0) m else m)
  else if 0x1000 ≤ w ∧ w < 0x1800 then
    (if w % 0x20 = 0x00 then
      let m := if v.testBit 9 then admitHeld now r (m.modWork r (flushQueue q)) else m
      if v.testBit 10 then m.modWork r (fun k => k.modQueue q (fun x => { x with halted := false })) else m
     else if w % 0x20 = 0x10 ∧ mask.testBit 0 then setHead now r q v m
     else m)
  else if 0x2000 ≤ w ∧ w < 0x2400 then
    let k := (w - 0x2000) / 4
    let m := if mask.testBit 0 then m.modWork r (fun x => x.setCounter k v) else m
    if mask.testBit 32 then m.modWork r (fun x => x.setCounter (k + 1) (v / 2 ^ 32)) else m
  else m

/-- Direct fields of a word, with the status of a command among them. -/
def directFields (now : Nat) (src : Source) (b w mask v : Nat) (m : Module) : Module × Nat :=
  if b = 0 then
    (if w = 0x00 ∧ mask.testBit 0 then (if v.testBit 63 then discardGroups now src (bits v 31 0) m else commitGroups now src (bits v 31 0) m)
     else if w = 0x10 then lockGroups (bits v 31 0) m
     else (m, 0))
  else if regionBlock b then (restall now (regionDirect now (b - 0x010) w mask v m), 0)
  else if clusterBlock b then
    (match flagRegAt b w with
     | some x => (x.clear v m, 0)
     | none => (m, 0))
  else if dieBlock b then (if w = 0x0100 then FlagReg.clear v m (.coll (b - 0x020)) else m, 0)
  else if b = 0x300 then (if w % 0x20 = 0x08 ∧ v.testBit 28 then ringResume (w / 0x20) m else m, 0)
  else if b = 0x301 then (if mask.testBit 0 then doorbell (w / 8) v m else (m, 0))
  else if b = 0x302 then (if mask.testBit 0 then completionDoorbell now (w / 8) (v % 2 ^ 32) m else (m, 0))
  else (m, 0)

/-- A write: its direct fields apply at once, whatever becomes of its staged fields (R281, R285). -/
def regWrite (now : Nat) (src : Source) (b off width v : Nat) (m : Module) : Module × Nat :=
  if bridgeBlock b && !m.isBridge then (m, 8)
  else match canonOff b off with
    | none => (m.bump kREG_VOID 1, 0)
    | some o =>
      let w := o / 8 * 8
      let at_ := o % 8
      let items := fieldItems m now b w at_ width v
      let (m, st) := directFields now src b w (wordMask at_ width) (wordValue at_ width v) m
      let (m, st') := stage now src (groupOfBlock b) items m
      (m, if st ≠ 0 then st else st')

/-- Is an access well formed (R277): 4 or 8 bytes, aligned, a used block, bits [40:28] of the address 0? -/
def accessOk (addr width : Nat) : Bool :=
  (width == 4 || width == 8) && addr % width == 0 && bits addr 40 28 == 0 && blockUsed (bits addr 27 16)

/-! ### Domains (R286) -/

/-- The domain of a block: its region, 16 + its die, 0x100 and up its cluster; 32 the module's. -/
def domainOf (b : Nat) : Nat :=
  if regionBlock b then b - 0x010
  else if clusterBlock b then b
  else if dieBlock b then 16 + (b - 0x020)
  else if portBlock b then 16 + portDie (b - 0x200)
  else 32

/-- The region of a domain. -/
def domainRegion (d : Nat) : Option Nat := if d < 16 then some d else if 0x100 ≤ d then some ((d - 0x100) / 16) else none

/-- The die of a domain: the module's blocks stand on die 0. -/
def domainDie (d : Nat) : Nat := match domainRegion d with
  | some r => r / 4
  | none => if d < 32 then d - 16 else 0

/-- Is the domain in reset? -/
def domainInReset (m : Module) (d : Nat) : Bool := match domainRegion d with
  | some r => m.inReset r
  | none => m.dieInReset (domainDie d)

/-- Is there no answer at all: die 0 is in reset? -/
def domainSilent (m : Module) (d : Nat) : Bool := domainDie d == 0 && m.dieInReset 0

/-- Does the domain sleep, or its PLL stand? -/
def domainWaits (m : Module) (d : Nat) : Bool := match domainRegion d with
  | some r => (m.rg r).power.pllOff || (decide (0x100 ≤ d) && (m.cl r (d % 16)).sleep != 0)
  | none => false

/-- Wake a domain for an access: a cluster's start is asked for at PRIO 3; from C1 it takes 20 ns. Answers when the access may end. -/
def wakeDomain (now d : Nat) (m : Module) : Module × Nat := match domainRegion d with
  | some r =>
    if d < 0x100 then (wakePll now r m, now)
    else
      let c := d % 16
      let first := (m.cl r c).sleep = 1
      (requestStart now r c 3 m, if first then now + 20 else now)
  | none => (m, now)

/-! ### Answers -/

/-- A request whose answer is recorded: REG_WR but for doorbells, and DICT writes (R264). -/
def recordedOp (f : Frame) : Bool := (f.op == opREGWR && !rings f) || (f.op == opDICT && leAt f.body 2 1 == 2)

/-- The bridge keeps a record of each REG_WR and DICT write that it answers for the host (R264). -/
def noteHost (now : Nat) (via : Via) (f : Frame) (st : Nat) (m : Module) : Module :=
  match via with
  | .edge e =>
    if m.edgeRole e = 2 ∧ recordedOp f then
      m.modEdge e (fun x => { x with hostDups := x.hostDups ++ [(f.tag, f.srcNode, st, now)] })
    else m
  | _ => m

/-- A doorbell that is answered more than 4 µs after its frame reached the host-role interface is counted (R270, R274). -/
def countRung (now : Nat) (f : Frame) (via : Via) (m : Module) : Module :=
  match via with
  | .edge e => match (m.edge e).rung.find? (fun x => x.1 == f) with
    | some x =>
      let m := m.modEdge e (fun y => { y with rung := y.rung.erase x })
      if x.2 + 4 * us < now then m.bump kDB_LATE 1 else m
    | none => m
  | _ => m

/-- A doorbell that gets no answer is not counted. -/
def dropRung (f : Frame) (via : Via) (m : Module) : Module :=
  match via with
  | .edge e => if (m.edge e).rung.any (fun x => x.1 == f) then m.modEdge e (fun y => { y with rung := y.rung.eraseP (fun x => x.1 == f) }) else m
  | _ => m

/-- Answer a request on the way it came where it came from the host, and by its route otherwise. -/
def answerVia (now : Nat) (f : Frame) (via : Via) (st : Nat) (body : List Byte) (m : Module) : Module :=
  respond now f st 0 body (countRung now f via (noteHost now via f st m))

/-- A register request's width. -/
def regWidth (f : Frame) : Nat := if f.op = opREGRD then f.aux else f.len

/-- Carry out a register request. -/
def performReg (now : Nat) (f : Frame) (via : Via) (m : Module) : Module :=
  if f.op = opREGRD then
    let (m, v) := regRead now (regBlock f) (f.addr % 65536) (regWidth f) m
    answerVia now f via 0 (leBytes (regWidth f) v) m
  else
    let (m, st) := regWrite now (.requester f.srcNode f.srcRegion) (regBlock f) (f.addr % 65536) (regWidth f) (leNat f.body) m
    answerVia now f via st [] m

/-- The source of a register access, as claims compare sources. -/
def askedBy (asker : Asker) (f : Frame) : Source := match asker with
  | .command src => src
  | _ => .requester f.srcNode f.srcRegion

/-- Carry out an access that has waited, or that a ring makes, and give its answer. -/
def performAccess (now : Nat) (asker : Asker) (f : Frame) (via : Via) (m : Module) : Module :=
  match asker with
  | .frame => performReg now f via m
  | .command src => answered (regWrite now src (regBlock f) (f.addr % 65536) f.len (leNat f.body) m)
  | .ring i =>
    if f.op = opREGRD then
      let (m, v) := regRead now (regBlock f) (f.addr % 65536) (regWidth f) m
      mgmtResponse now i 0 (leBytes (regWidth f) v) m
    else
      let (m, st) := regWrite now (.requester f.srcNode f.srcRegion) (regBlock f) (f.addr % 65536) f.len (leNat f.body) m
      mgmtResponse now i st [] m

/-- Answer an access with a status and no effect. -/
def refuseAccess (now : Nat) (asker : Asker) (f : Frame) (via : Via) (st : Nat) (m : Module) : Module :=
  match asker with
  | .frame => answerVia now f via st [] m
  | .command _ => m.status st
  | .ring i => mgmtResponse now i st [] m

/-- The accesses of a source to one domain that are held, in order. -/
def heldFor (m : Module) (asker : Asker) (f : Frame) : List HeldAccess :=
  m.heldAccess.filter (fun h => askedBy h.asker h.frame == askedBy asker f && domainOf (regBlock h.frame) == domainOf (regBlock f))

/-- A write of MODULE_COMMIT that commits, with its mask (R284). -/
def commitMask (f : Frame) : Option Nat :=
  if f.op = opREGWR ∧ regBlock f = 0 ∧ f.addr % 65536 = 0 ∧ (leNat f.body).testBit 63 = false then some (bits (leNat f.body) 31 0) else none

/-- Does a domain that the access needs sleep: its own, or a region that it commits? -/
def accessSleeps (m : Module) (f : Frame) : Bool :=
  domainWaits m (domainOf (regBlock f)) || match commitMask f with
    | some mask => asleepGroups m mask != []
    | none => false

/-- Commits that wait, in arrival order (R284). -/
def heldCommits (m : Module) : List HeldAccess := m.heldAccess.filter (fun h => (commitMask h.frame).isSome)

/-- A WRITE of COMMIT (R297). -/
def DictReq.commits (q : DictReq) : Bool := q.msg.op == 2 && dkey q.msg.index q.msg.sub == kCOMMIT

/-- Is a commit in progress that came before number n: one of a register, or one of the dictionary that is parked (R284, R297, R305)? -/
def commitBefore (m : Module) (n : Nat) : Bool :=
  (heldCommits m).any (fun h => decide (h.id < n)) || m.drone.parked.any (fun q => q.commits && decide (q.order < n))

/-- Must an access wait: for a domain, behind an earlier one of its source, or a commit behind another? -/
def accessWaits (m : Module) (asker : Asker) (f : Frame) : Bool :=
  accessSleeps m f || heldFor m asker f != [] || ((commitMask f).isSome && commitBefore m m.nextHeld)

/-- Park a request for a wait; one that had been parked keeps its place (R305). -/
def park (q : DictReq) (w : Nat) (m : Module) : Module :=
  let fresh := q.wait = 0
  let q := if fresh then { q with id := m.drone.nextReq, order := m.nextHeld, wait := w } else { q with wait := w }
  let m := if fresh then { m with nextHeld := m.nextHeld + 1, drone := { m.drone with nextReq := m.drone.nextReq + 1 } } else m
  m.modDrone (fun d => { d with parked := d.parked.filter (fun x => decide (x.id < q.id)) ++ q :: d.parked.filter (fun x => decide (q.id < x.id)) })

/-- Wake what an access needs; answers when the access may end. -/
def wakeAccess (now : Nat) (f : Frame) (m : Module) : Module × Nat :=
  match commitMask f with
  | some mask => (forL (asleepGroups m mask) m (fun r m => wakePll now r m), now)
  | none => wakeDomain now (domainOf (regBlock f)) m

/-- Hold an access, and wake what it waits for (R286). A register command of the table is held like its source's frames (DEDUCED, log
entry 158). -/
def holdAccess (now : Nat) (asker : Asker) (f : Frame) (via : Via) (m : Module) : Module :=
  let (m, t) := wakeAccess now f m
  { m with nextHeld := m.nextHeld + 1,
           heldAccess := m.heldAccess ++ [{ id := m.nextHeld, write := f.op == opREGWR, frame := f, via := via, until_ := t, since := now, asker := asker }] }

/-- An access to a window of this module: refused, without an answer, held, or carried out (R277, R286). -/
def routeAccess (now : Nat) (asker : Asker) (f : Frame) (via : Via) (m : Module) : Module :=
  let d := domainOf (regBlock f)
  if !accessOk (f.addr % 2 ^ 41) (regWidth f) then refuseAccess now asker f via 2 m
  else if domainSilent m d then dropRung f via m
  else if domainInReset m d then refuseAccess now asker f via 9 m
  else if accessWaits m asker f then holdAccess now asker f via m
  else performAccess now asker f via m

/-- A register request: dropped, or routed to its window. -/
def serveReg (now op : Nat) (f : Frame) (via : Via) (m : Module) : Module :=
  let m := takeFrame via f m
  if badRequest op f then (dropRung f via m).bump kBAD_FRAME 1
  else if addrNode f.addr ≠ m.node then (dropRung f via m).bump kMISROUTED 1
  else routeAccess now .frame f via m

/-- A reset answers the accesses that a domain holds with 0x09, and their time counts; those to die 0 get no answer (R286). -/
def dropHeldAccess (now : Nat) (p : Nat → Bool) (m : Module) : Module :=
  let mine := m.heldAccess.filter (fun h => p (domainOf (regBlock h.frame)))
  forL mine { m with heldAccess := m.heldAccess.filter (fun h => !p (domainOf (regBlock h.frame))) } (fun h m =>
    let m := m.bump kREG_STALL_NS (now - h.since)
    if domainSilent m (domainOf (regBlock h.frame)) then dropRung h.frame h.via m else refuseAccess now h.asker h.frame h.via 9 m)

/-- A command that stands for a dictionary write: while a commit is in progress it is parked as that write (R305, R307, R380, R399). -/
def behindCommits (now key : Nat) (bs : List Byte) (k : Module → Module) (m : Module) : Module :=
  if !commitBefore m m.nextHeld then k m
  else if 8 ≤ m.drone.parked.length then m.status 9
  else
    let x : DictMsg := { ver := 1, kind := 1, op := 2, flags := 0, seq := 0, index := key / 256, sub := key % 256, status := 0, len := bs.length, offset := 0, time := 0, data := bs }
    park { src := .requester m.node 0, msg := x, addr := [], port := 0, arrived := now } 101 m

/-! ### The commands -/

/-- REG_RD (R277). -/
def execRegRd (f : Frame) (via : Via) (s : State) : Host.Outcome State Fault Refusal := s.does (fun now m => serveReg now opREGRD f via m)

/-- REG_WR (R277, R281). -/
def execRegWr (f : Frame) (via : Via) (s : State) : Host.Outcome State Fault Refusal := s.does (fun now m => serveReg now opREGWR f via m)

/-- The held access k, when its domain answers, no earlier access of its source to the domain is held, and no earlier commit. -/
def heldReady (m : Module) (k : Nat) : Option HeldAccess :=
  (m.heldAccess.find? (fun h => h.id == k)).filter (fun h =>
    !accessSleeps m h.frame && ((heldFor m h.asker h.frame).head?.map HeldAccess.id) == some k
      && ((commitMask h.frame).isNone || !commitBefore m k))

/-- HELD_ACCESS_COMPLETE (R286). -/
def execHeldAccessComplete (k : Nat) (s : State) : Host.Outcome State Fault Refusal :=
  s.doesWhen (heldReady s.mod k).isSome (((heldReady s.mod k).map HeldAccess.until_).getD 0) (fun now m =>
    match heldReady m k with
    | some h => performAccess now h.asker h.frame h.via ({ m with heldAccess := m.heldAccess.filter (fun x => x.id ≠ k) }.bump kREG_STALL_NS (now - h.since))
    | none => m)

/-- The frame that a command which writes a register stands for. -/
def writeFrame (m : Module) (block offset width v : Nat) : Frame := m.mkReq opREGWR 0 (m.dieGen 0) (block * 65536 + offset) 0 (leBytes width v)

/-- Who gives the commands that name no source (DEDUCED, log entry 158). -/
def Module.driver (m : Module) : Source := .requester m.node 0

/-- REGISTER_WRITE (R278, R280, R281): as a REG_WR of its source, its answer in the status; a sleeping domain is woken and holds it. -/
def execRegisterWrite (src : Source) (block offset width v : Nat) (s : State) : Host.Outcome State Fault Refusal :=
  s.does (fun now m =>
    if 4096 ≤ block ∨ 65536 ≤ offset ∨ 8 < width then m.status 2
    else routeAccess now (.command src) (writeFrame m block offset width v) .mesh m)

/-- A command of the table that writes a register: without an answer while die 0 is in reset, refused while its domain is, held while that
sleeps or behind its source's earlier accesses, and else done by `k`, which is what the write does (R284, R286). -/
def commandWrite (now : Nat) (src : Source) (block offset width v : Nat) (k : Module → Module) (m : Module) : Module :=
  let f := writeFrame m block offset width v
  if domainSilent m (domainOf block) then m
  else if domainInReset m (domainOf block) then m.status 9
  else if accessWaits m (.command src) f then holdAccess now (.command src) f .mesh m
  else k m

/-- MODULE_COMMIT (R284): it waits for a commit in progress, and for regions whose PLL is stopped. -/
def execModuleCommit (src : Source) (mask : Nat) (s : State) : Host.Outcome State Fault Refusal :=
  s.does (fun now m => commandWrite now src 0 0 8 (mask % 2 ^ 32) (fun m => answered (commitGroups now src mask m)) m)

/-- MODULE_DISCARD (R284). -/
def execModuleDiscard (src : Source) (mask : Nat) (s : State) : Host.Outcome State Fault Refusal :=
  s.does (fun now m => commandWrite now src 0 0 8 (2 ^ 63 + mask % 2 ^ 32) (fun m => answered (discardGroups now src mask m)) m)

/-- LOCK (R285). -/
def execLock (v : Nat) (s : State) : Host.Outcome State Fault Refusal :=
  s.does (fun now m => commandWrite now m.driver 0 0x10 4 (v % 2 ^ 32) (fun m => answered (lockGroups v m)) m)

/-- A command that writes a register of region r's controller. -/
def regionWrite (now r offset width v : Nat) (k : Module → Module) (m : Module) : Module := commandWrite now m.driver (0x010 + r) offset width v k m

/-- The bits hi–lo in force of a word of region r's controller, which a write of its direct fields leaves as they are. -/
def inForceBits (m : Module) (now r w hi lo : Nat) : Nat := place (bits (regWord m now (0x010 + r) w) hi lo) hi lo

/-- QUEUE_HEAD_WRITE (R85): a 32-bit write of word 0x10 of a queue group, whose HEAD is direct and whose LOG2SIZE a commit changes alone. -/
def execQueueHeadWrite (r q word : Nat) (s : State) : Host.Outcome State Fault Refusal :=
  guarded (okR r && okQ q) (s.does (fun now m =>
    regionWrite now r (0x1010 + 0x20 * q) 4 (inForceBits m now r (0x1010 + 0x20 * q) 24 20 + bits word 19 0) (fun m => (setHead now r q (bits word 19 0) m).status 0) m))

/-- RESUME (R83). -/
def execResume (r q : Nat) (s : State) : Host.Outcome State Fault Refusal :=
  guarded (okR r && okQ q) (s.does (fun now m =>
    regionWrite now r (0x1000 + 0x20 * q) 4 (inForceBits m now r (0x1000 + 0x20 * q) 15 12 + 2 ^ 10) (fun m => restall now (m.modWork r (fun w => w.modQueue q (fun x => { x with halted := false })))) m))

/-- FLUSH (R83). -/
def execFlush (r q : Nat) (s : State) : Host.Outcome State Fault Refusal :=
  guarded (okR r && okQ q) (s.does (fun now m =>
    regionWrite now r (0x1000 + 0x20 * q) 4 (inForceBits m now r (0x1000 + 0x20 * q) 15 12 + 2 ^ 9) (fun m => restall now (admitHeld now r (m.modWork r (flushQueue q)))) m))

/-- SYNC_COUNTER_WRITE (R99). -/
def execSyncCounterWrite (r k v : Nat) (s : State) : Host.Outcome State Fault Refusal :=
  guarded (okR r && decide (k < 255)) (s.does (fun now m =>
    regionWrite now r (0x2000 + 4 * k) 4 v (fun m => restall now (m.modWork r (fun w => w.setCounter k v))) m))

/-- SWITCH (R96). -/
def execSwitch (r target : Nat) (s : State) : Host.Outcome State Fault Refusal :=
  guarded (okR r && decide (target < 8)) (s.does (fun now m =>
    regionWrite now r 0x200 4 (inForceBits m now r 0x200 31 16 + place target 10 8 + 1) (fun m => restall now (m.modWork r (requestSwitch target))) m))

/-- CLUSTER_FENCE_WRITE (R97). -/
def execClusterFenceWrite (r mask : Nat) (s : State) : Host.Outcome State Fault Refusal :=
  guarded (okR r && decide (mask < 65536)) (s.does (fun now m => regionWrite now r 0x800 4 mask (fun m => restall now (setFence r mask m)) m))

end Sys2Proof.Machine
end

