-- ==== Sys2Proof/Machine/Tick.lean ====
section
/-! DEFINITION. The always-on tick of 80 ns (R332), which is what a step does when no command waits, and the
physical faults that the surroundings may bring about in it (log entry 6). -/

namespace Sys2Proof.Machine

/-- One more symbol of a sector is in error, or off by something else (R133); a symbol that is off by nothing is not listed. -/
def Stack.upset (k : Stack) (sector pos v : Nat) : Stack :=
  let e := Tab.get [] k.errs sector
  let e := Tab.set 0 e pos (Tab.get 0 e pos ^^^ v)
  { k with errs := if e = [] then Tab.del k.errs sector else Tab.put k.errs sector e }

/-- One physical fault, by kind: 1 a symbol of a sector's codeword, 2 an uncorrectable cluster-buffer line, 3 an uncorrectable tile
row; 4 a spare row, which then fails its test (R410); any other number, no fault. The place is a free number: region, then the part. -/
def tickFault (kind place : Nat) (m : Module) : Module :=
  let r := place % 16
  let p := place / 16
  match kind with
  | 1 => m.modStack r (fun k => k.upset (p % 3221225472) (p / 3221225472 % 36) (p / 115964116992 % 255 + 1))
  | 2 => m.modCl r (p % 16) (fun x => { x with ueLines := (p / 16 % 65536) :: x.ueLines })
  | 3 => m.modUn r (p % 16) (p / 16 % 8) (fun u => { u with ueRows := (p / 128 % 2048) :: u.ueRows })
  | 4 => m.modStack r (fun k => { k with spareBad := (p % 8192, p / 8192 % 8) :: k.spareBad })
  | _ => m

/-- The effect of one tick. -/
def tickEff (m : Module) : Module :=
  (tickFault (Config.faultKind m.free) (Config.faultPlace m.free) { m with out := [] }).useFree

end Sys2Proof.Machine
end

