-- ==== Sys2Proof/Machine/Upkeep.lean ====
section
/-! DEFINITION. Upkeep of bonded memory: scrubbing (R139), row repair (R141, R142), refresh and self-refresh (R136, R137). -/

namespace Sys2Proof.Machine

/-! ### Patrol scrubbing (R139) -/

/-- Slots of a stack. -/
def stackSlots : Nat := 402653184

/-- A corrected error that a scrub visit met in a row: noted, and on a second visit the row is a repair candidate (R141). -/
def noteScrub (row : Nat) (k : Stack) : Stack :=
  if 1 ≤ Tab.get 0 k.scrubNotes row then
    { k with scrubNotes := Tab.set 0 k.scrubNotes row 2, candidates := if k.candidates.contains row then k.candidates else k.candidates ++ [row] }
  else { k with scrubNotes := Tab.set 0 k.scrubNotes row 1 }

/-- Write back the corrected codeword of a sector. -/
def Stack.correct (k : Stack) (r sector : Nat) : Stack :=
  let d := k.decode r sector
  if d.1 = 1 then k.upset sector d.2.1 d.2.2 else k

/-- One visit: the slot's stored sectors are read, corrected codewords written back, uncorrectable sectors reported; nothing is
read of a slot coded 0x8, or of one whose metadata sector cannot be read (R105). -/
def scrubVisit (now r slot : Nat) (m : Module) : Module :=
  let k := (m.rg r).stack.seen r slot
  let met := k.meetSlot r slot (k.slotSectors slot)
  let m := noteMet now r 6 met m
  let rows := (met.ces.map rowOf).eraseDups
  let m := m.modStack r (fun k =>
    rows.foldl (fun k row => noteScrub row k) { met.ces.foldl (fun k x => k.correct r x) k with scrubSlot := (slot + 1) % stackSlots })
  if slot + 1 = stackSlots then m.bump kSCRUB_PASSES 1 else m

/-- SCRUB_VISIT (R139): SCRUB_HOURS = 0 and self-refresh stop it. -/
def execScrubVisit (r slot : Nat) (s : State) : Host.Outcome State Fault Refusal :=
  guarded (okR r && decide (slot < stackSlots)) (s.does (fun now m =>
    if m.num kSCRUB_HOURS = 0 ∨ (m.rg r).stack.selfRefresh then m else scrubVisit now r slot m))

/-! ### Row repair (R141, R142) -/

/-- The bank of a row, as `rowOf` numbers rows: pseudo-channel × 16 + bank. -/
def bankOf (row : Nat) : Nat := row / 12288

/-- Spare rows in use in a bank. -/
def sparesUsed (k : Stack) (bank : Nat) : Nat :=
  ((k.soft ++ k.fuses).filter (fun x => bankOf x.1 == bank)).length

/-- The next spare row of a bank: neither in use nor failing its own memory test (R410). -/
def spareFor (k : Stack) (bank : Nat) : Option Nat :=
  (List.range 8).find? (fun n => !(k.soft ++ k.fuses).any (fun x => bankOf x.1 == bank && x.2 == n) && !k.spareBad.contains (bank, n))

/-- The records of a row's failing bits in MEMTEST_LOG say what became of it (R410): 1 repaired, 2 left in service (log entry 182). -/
def noteAction (r row act : Nat) (m : Module) : Module :=
  m.modTest (fun t => { t with memLog := t.memLog.map (fun x =>
    let a := leAt x.2 0 8
    if addrRegion a = r ∧ rowOf (addrOff a / 32) = row ∧ leAt x.2 11 1 = 0 then (x.1, x.2.take 11 ++ [BitVec.ofNat 8 act] ++ x.2.drop 12) else x) })

/-- Repair a candidate: a spare row of its bank takes its place, its codewords moved without decoding; or "repair exhausted". -/
def rowRepair (now r row : Nat) (m : Module) : Module :=
  let k := (m.rg r).stack
  if !k.candidates.contains row then m
  else
    let m := m.modStack r (fun k => { k with candidates := k.candidates.filter (· ≠ row), scrubNotes := Tab.set 0 k.scrubNotes row 0 })
    match (if k.soft.length < 2048 then spareFor k (bankOf row) else none) with
    | some n => noteAction r row 1 (m.modStack r (fun k => { k with soft := k.soft ++ [(row, n)] }))
    | none =>
      let b := bankOf row
      let m := noteAction r row 2 m
      let m := post now 2 5 (srcRegion r) (leBytes 1 r ++ leBytes 1 (b % 16) ++ leBytes 2 (b / 16) ++ leBytes 2 (row % 12288)) m
      memAdvisory now r 3 (m.bump kREPAIR_EXHAUSTED 1)

/-- ROW_REPAIR (R141, R142). -/
def execRowRepair (r row : Nat) (s : State) : Host.Outcome State Fault Refusal :=
  guarded (okR r && decide (row < 512 * 16 * 12288)) (s.does (fun now m => rowRepair now r row m))

/-- The repairs in force go into the soft repair table in flash: its two copies in turn, until the area is worn (R421). -/
def repairAppend (r : Nat) (m : Module) : Module :=
  let k := (m.rg r).stack
  if k.softFlash = k.soft ∨ m.worn (wearSoft 0) ∨ m.worn (wearSoft 1) then m
  else
    let m := eraseArea (wearSoft ((m.wearOf (wearSoft 0) + m.wearOf (wearSoft 1)) % 2)) m
    m.modStack r (fun k => { k with softFlash := k.soft })

/-- REPAIR_TABLE_APPEND (R141). -/
def execRepairTableAppend (r : Nat) (s : State) : Host.Outcome State Fault Refusal :=
  guarded (okR r) (s.does (fun _ m => repairAppend r m))

/-! ### Refresh (R136, R137) -/

/-- REFRESH_WINDOW_CHANGE (R136): 16 ms while a die reads above 85 °C; 32 ms again after 1 s at 82 °C or less. -/
def execRefreshWindowChange (r : Nat) (s : State) : Host.Outcome State Fault Refusal :=
  let k := (s.mod.rg r).stack
  let hot := decide (85000 < (s.mod.rg r).power.dramMilliC)
  guarded (okR r) (s.doesWhen (if k.hotWindow then k.coolSince.isSome else hot) (if k.hotWindow then k.coolSince.getD 0 + sec else 0) (fun _ m =>
    m.modStack r (fun k => { k with hotWindow := !k.hotWindow })))

/-- May the stack enter self-refresh: clusters asleep, update lanes idle (R137)? -/
def selfRefreshReady (m : Module) (r : Nat) : Bool :=
  !(m.rg r).stack.selfRefresh
    && (List.range 16).all (fun c => decide (3 ≤ (m.cl r c).sleep) && (m.cl r c).waking.isNone)
    && !((m.work r).live.any (fun x => x.d.cls == 5)) && (m.rg r).train.commits.isEmpty

/-- SELF_REFRESH_ENTRY (R137): 10 µs after the last request for the region's memory. -/
def execSelfRefreshEntry (r : Nat) (s : State) : Host.Outcome State Fault Refusal :=
  guarded (okR r) (s.doesWhen (selfRefreshReady s.mod r) ((s.mod.rg r).stack.lastReq + 10 * us) (fun _ m =>
    m.modStack r (fun k => { k with selfRefresh := true })))

/-- SELF_REFRESH_EXIT (R137): a request for the region's memory arrives. -/
def execSelfRefreshExit (r : Nat) (s : State) : Host.Outcome State Fault Refusal :=
  guarded (okR r) (s.does (fun now m => memRequest now r m))

end Sys2Proof.Machine
end

