-- ==== Sys2Proof/Machine/SelfTest.lean ====
section
/-! DEFINITION. Self-test and recalibration (R405–R417), and the commands at which a waiting test may begin. -/

namespace Sys2Proof.Machine

/-! ### Records (R423) -/

/-- Write a BIST_LOG record and count it in BIST_SEQ. -/
def bistRecord (now kind status target cluster start fails : Nat) (m : Module) : Module :=
  let seq := (m.num kBIST_SEQ + 1) % 2 ^ 32
  let rec_ := leBytes 4 seq ++ leBytes 1 kind ++ leBytes 1 status ++ leBytes 1 target ++ leBytes 1 cluster ++ leBytes 8 start
    ++ leBytes 4 ((now - start) / us) ++ leBytes 4 fails ++ zeros 8
  (m.setNum kBIST_SEQ seq).modTest (fun t => { t with log := Tab.put t.log (seq % 32) rec_ })

/-- BIST_PENDING follows the requests. -/
def setReqs (xs : List Bist) (m : Module) : Module :=
  (m.modTest (fun t => { t with reqs := xs })).setNum kBIST_PENDING xs.length

def modReq (id : Nat) (f : Bist → Bist) (m : Module) : Module := setReqs (m.test.reqs.map (fun b => if b.id = id then f b else b)) m
def dropReq (id : Nat) (m : Module) : Module := setReqs (m.test.reqs.filter (fun b => b.id ≠ id)) m

/-! ### Logic test (R405–R407, R412, R413) -/

/-- The lowest cluster that a request still has to test. -/
def nextCluster (b : Bist) : Option Nat := (bitList b.mask 16).head?

/-- Is a logic test running on a die? Its controller tests one cluster at a time (R405). -/
def dieTests (m : Module) (d : Nat) : Bool := m.test.reqs.any (fun b => b.kind == 1 && b.region / 4 == d && b.running.isSome)

/-- Power admission: P and the test stay within POWER_CAP_W, and the bucket is empty (R413). Tests that began since P was formed count
too; 18 W / 0.92 is taken exactly. -/
def testAdmitted (m : Module) : Bool :=
  let begun := testsRunning m - m.bellows.testsSeen
  m.bellows.bucketNj == 0 && decide (92 * usedPower m m.bellows.estMw + 1800000 * (begun + 1) ≤ 92000 * m.num kPOWER_CAP_W)

/-- One step of the pattern generator x^64 + x^4 + x^3 + x + 1 (R405), and the product of two states as polynomials. -/
def genStep (g : Nat) : Nat := (2 * g % 2 ^ 64) ^^^ (if g.testBit 63 then 0x1B else 0)

def genMul (a b : Nat) : Nat :=
  ((List.range 64).reverse).foldl (fun x i => genStep x ^^^ (if b.testBit i then a else 0)) 0

/-- x to the power of 2^n: n squarings. -/
def genPower : Nat → Nat
  | 0 => 2
  | n + 1 => genMul (genPower n) (genPower n)

/-- The generator after a scan test: 65,536 patterns of 1,024 shifts, that is 2^26 steps (DESIGN CHOICE: it steps once per shift, in Galois
form, log entry 183). -/
def genAfter (g : Nat) : Nat := genMul g (genPower 26)

/-- A die's controller begins a cluster's test: its generator is seeded from the firmware image, XORed with the cluster's number (R405). -/
def beginLogic (r c : Nat) (m : Module) : Module :=
  let x := (imageIn m m.flash.running).getD Config.factoryImage
  m.modTest (fun t => { t with logic := Tab.put t.logic (r / 4) { cluster := 16 * r + c, gen := (Config.testSeed x ^^^ c) % 2 ^ 64 } })

/-- What the controller holds when the test ends, where `fails` names the signatures that differ from the expected ones of the running
image (bits 0–8) and the array test (bit 9). -/
def endLogic (r c fails : Nat) (m : Module) : Module :=
  let x := (imageIn m m.flash.running).getD Config.factoryImage
  let sig := fun (n : Nat) => Config.testSig x c n % 2 ^ 64 ^^^ (if fails.testBit n then Config.sigDiff (m.free + n) % (2 ^ 64 - 1) + 1 else 0)
  (m.modTest (fun t =>
    { t with logic := Tab.mod {} t.logic (r / 4) (fun k =>
        { k with gen := genAfter k.gen, patterns := 65536, sigs := (List.range 9).map sig, arrayBad := fails.testBit 9 }) })).useFree

/-- Set a cluster's FENCE bit for a test, noting whether Drone has set it; a cluster without work is fenced at once. -/
def fenceFor (b : Bist) (c : Nat) (m : Module) : Module :=
  let m := if (m.work b.region).fence.testBit c then m
    else modReq b.id (fun b => { b with fencedByDrone := setBit b.fencedByDrone c }) (m.modWork b.region (fun w => { w with fence := setBit w.fence c }))
  clusterFenced b.region c m

/-- Clear a cluster's fence where Drone set it, or the driver has cleared it since (R412, R414). -/
def unfence (b : Bist) (c : Nat) (m : Module) : Module :=
  if b.fencedByDrone.testBit c ∨ b.clearAfter then
    m.modWork b.region (fun w => { w with fence := clrBit w.fence c, fenced := clrBit w.fenced c })
  else m

/-- A cluster whose wait has passed the deadline is not tested (R412). -/
def refuseCluster (now : Nat) (b : Bist) (c : Nat) (m : Module) : Module :=
  modReq b.id (fun b => { b with mask := clrBit b.mask c }) (bistRecord now 1 9 b.region c now 0 (unfence b c (m.bump kBIST_REFUSED 1)))

/-- A cluster's logic test goes on as far as it may: fence, FENCED, a free controller, power, and the cluster in C0. -/
def beginCluster (now : Nat) (b : Bist) (c : Nat) (m : Module) : Module :=
  let m := fenceFor b c m
  if !(m.work b.region).fenced.testBit c ∨ dieTests m (b.region / 4) ∨ !testAdmitted m then m
  else if (m.cl b.region c).sleep ≠ 0 then requestStart now b.region c 3 m
  else modReq b.id (fun b => { b with running := some c, until_ := now + 189 * ms }) (beginLogic b.region c m)

/-- A logic test, a cluster at a time in ascending order: past the deadline the clusters that are left are refused (R412). A request without
clusters ends at once with its one record (log entry 184). -/
def serveLogic (now : Nat) (b : Bist) (m : Module) : Module :=
  let m := forL (bitList b.mask 16) m (fun c m => match m.test.reqs.find? (fun x => x.id == b.id) with
    | none => m
    | some b =>
      if b.running.isSome ∨ nextCluster b ≠ some c then m
      else if b.deadline < now then refuseCluster now b c m
      else if m.inReset b.region then m
      else beginCluster now b c m)
  if m.test.reqs.any (fun x => x.id == b.id && x.running.isNone && (nextCluster x).isNone) then
    dropReq b.id (if b.empty then bistRecord now 1 0 b.region 0 now 0 m else m)
  else m

/-! ### The other kinds (R409, R416, R417) -/

/-- May a port be recalibrated: every other port to the same peer is UP, or all site ports are (R416)? -/
def recalReady (m : Module) (p : Nat) : Bool :=
  if p < 56 then m.up p && (List.range 8).all (fun i => m.up (p / 8 * 8 + i))
  else if p < 88 then sitePorts.all (fun q => m.up q)
  else (disabledWith p).all (fun q => m.up q)

/-- No port is being recalibrated, and 1 s has passed since the last one was (R416). -/
def recalFree (m : Module) (now : Nat) : Bool :=
  m.test.nextPort == 0 && !m.test.reqs.any (fun b => b.kind == 3 && b.running.isSome) && m.test.portRecal.all (fun x => decide (x.2 + sec ≤ now))

/-- A port leaves service for recalibration, to train once its drain has ended. -/
def startRecal (now p : Nat) (m : Module) : Module :=
  forL (disabledWith p) m (fun q m => (m.setPortState q 3).modPort q (fun x =>
    { x with drainUntil := some (now + m.num kDRAIN_TIMEOUT_MS * ms), enableAfter := true }))

/-- Is a region idle for a DRAM recalibration: no accepted descriptor, and no request served for 10 µs? -/
def dramIdle (m : Module) (now r : Nat) : Bool := (m.work r).flights == [] && decide (max (m.rg r).stack.lastReq (m.rg r).lastServed + 10 * us ≤ now) && m.fstate r == 0

/-- A request of kind 2–4 whose wait has passed the deadline is refused (R412, R417). -/
def refuseReq (now : Nat) (b : Bist) (m : Module) : Module := dropReq b.id (bistRecord now b.kind 9 b.region 0 now 0 (m.bump kBIST_REFUSED 1))

/-- One request goes on as far as it may. A memory test takes the region's controller over from background testing, whose granule is
left (R409). -/
def serveReq (now : Nat) (b : Bist) (m : Module) : Module :=
  let runs := fun (n : Nat) => modReq b.id (fun b => { b with running := some n, until_ := now }) m
  if b.kind = 1 then serveLogic now b m
  else if b.running.isSome then m
  else if b.deadline < now then refuseReq now b m
  else match b.kind with
  | 2 => match (m.rg b.region).stack.clearFrom 49152 0 with
    | some g => (runs g).modTest (fun t => { t with touched := Tab.set 0 t.touched b.region 0 })
    | none => m
  | 3 => if recalFree m now ∧ recalReady m b.region then startRecal now b.region (runs b.region) else m
  | _ =>
    if dramIdle m now b.region then
      restall now ((runs b.region).modTest (fun t => { t with dramRecal := Tab.set 0 t.dramRecal b.region (now + 2 * ms) }))
    else m

/-- Is a request the first that its target waits for? A target is a region, whatever the kind, or a port (R411). -/
def firstFor (m : Module) (b : Bist) : Bool :=
  (m.test.reqs.find? (fun x => (x.kind == 3) == (b.kind == 3) && x.region == b.region)).map Bist.id == some b.id

/-- Drone serves the pending requests in the order of their arrival; one that waits holds back no other target's (R411). -/
def serveTests (now : Nat) (m : Module) : Module :=
  if !m.env.droneUp then m
  else forL (m.test.reqs.map Bist.id) m (fun id m => match m.test.reqs.find? (fun b => b.id == id) with
    | some b => if firstFor m b then serveReq now b m else m
    | none => m)

/-! ### Requests (R411) -/

/-- A write of BIST_REQ; answers the status. -/
def bistRequest (now kind target mask deadlineMs : Nat) (m : Module) : Module × Nat :=
  if kind = 0 ∨ 4 < kind ∨ (if kind = 3 then 96 else 16) ≤ target then (m, 2)
  else if 8 ≤ m.test.reqs.length then (m, 7)
  else if kind ≠ 3 ∧ (m.fstate target = 3 ∨ m.fstate target = 4) then (m, 8)
  else
    let b : Bist := { id := m.test.nextId, kind := kind, region := target, mask := if kind = 1 then mask % 65536 else 0, empty := kind == 1 && mask % 65536 == 0,
                      deadline := now + (if deadlineMs = 0 then m.num kBIST_DEADLINE_MS else deadlineMs) * ms }
    (serveTests now (setReqs (m.test.reqs ++ [b]) (m.modTest (fun t => { t with nextId := t.nextId + 1 }))), 0)

/-- LOGIC_TEST (R412). -/
def execLogicTest (r mask deadlineMs : Nat) (s : State) : Host.Outcome State Fault Refusal :=
  s.does (fun now m => let x := bistRequest now 1 r mask deadlineMs m; x.1.status x.2)

/-- MEMORY_TEST (R409). -/
def execMemoryTest (r deadlineMs : Nat) (s : State) : Host.Outcome State Fault Refusal :=
  s.does (fun now m => let x := bistRequest now 2 r 0 deadlineMs m; x.1.status x.2)

/-- PORT_RECAL (R416). -/
def execPortRecal (p : Nat) (s : State) : Host.Outcome State Fault Refusal :=
  s.does (fun now m => let x := bistRequest now 3 p 0 0 m; x.1.status x.2)

/-- DRAM_RECAL (R417). -/
def execDramRecal (r deadlineMs : Nat) (s : State) : Host.Outcome State Fault Refusal :=
  s.does (fun now m => let x := bistRequest now 4 r 0 deadlineMs m; x.1.status x.2)

/-- A waiting test is refused at its deadline: of a logic test, the cluster that waits; its other clusters carry on (R412). -/
def bistLate (now k : Nat) (m : Module) : Module :=
  let m := serveTests now m
  match m.test.reqs.find? (fun b => b.id == k) with
  | none => m
  | some b =>
    if b.running.isSome then m
    else match b.kind, nextCluster b with
      | 1, some c => serveTests now (refuseCluster now b c m)
      | _, _ => refuseReq now b m

/-- The deadline of a request that still waits. -/
def bistDeadline? (m : Module) (k : Nat) : Option Nat := ((m.test.reqs.find? (fun b => b.id == k && b.running.isNone)).map Bist.deadline)

/-- BIST_DEADLINE (R412). -/
def execBistDeadline (k : Nat) (s : State) : Host.Outcome State Fault Refusal :=
  s.doesWhen (bistDeadline? s.mod k).isSome ((bistDeadline? s.mod k).getD 0) (fun now m => bistLate now k m)

/-! ### Ends of tests -/

/-- A region with a failed cluster leaves service: in RUN by the disable cycle, and "region lost" is posted (R406). -/
def clusterFailed (now r : Nat) (m : Module) : Module :=
  if m.env.regionsDown.testBit r then m
  else
    let m := m.modEnv (fun e => { e with regionsDown := setBit e.regionsDown r })
    let m := post now 11 3 (srcRegion r) (leBytes 1 r ++ leBytes 1 3) m
    if m.inRun then
      if m.fstate r = 0 then refuseHeldDesc now r (beginCycle now (.region r) (m.setNum (kREGION_FSTATE + r) 1))
      else if m.fstate r = 3 then m.setNum (kREGION_FSTATE + r) 4 else m
    else m.setNum (kREGION_FSTATE + r) 4

/-- The test of cluster c ends: its state is lost, its signatures are compared, its fence is lifted (R406, R407, R412). -/
def logicDone (now : Nat) (b : Bist) (c fails : Nat) (m : Module) : Module :=
  let r := b.region
  let m := endLogic r c fails ((m.bump kLBIST_RUNS 1).modCl r c (Cluster.lost now))
  let m := m.modWork r (reseed c)
  let m := bistRecord now 1 (if fails = 0 then 0 else 11) r c (b.until_ - 189 * ms) fails m
  let m := if fails = 0 then m else clusterFailed now r (m.bump kLBIST_FAILS 1)
  let m := unfence b c m
  serveTests now (modReq b.id (fun b => { b with running := none, clearAfter := false, mask := clrBit b.mask c }) m)

/-- The logic test that runs on a cluster. -/
def logicOn (m : Module) (r c : Nat) : Option Bist := m.test.reqs.find? (fun b => b.kind == 1 && b.region == r && b.running == some c)

/-- LOGIC_TEST_DONE (R406): 189 ms after its beginning. `fails` has bit n set for signature n and bit 9 for the array test. -/
def execLogicTestDone (r c fails : Nat) (s : State) : Host.Outcome State Fault Refusal :=
  guarded (okR r && okC c) (s.doesWhen (logicOn s.mod r c).isSome (((logicOn s.mod r c).map Bist.until_).getD 0) (fun now m =>
    match logicOn m r c with
    | some b => logicDone now b c (fails % 1024) m
    | none => m))

/-- A granule reads as zeros: every slot's code is 0x8, and the metadata sectors of its slots are rewritten (R105, R408). -/
def wipeGranule (g : Nat) (k : Stack) : Stack :=
  let out := fun (lo n a : Nat) => !(decide (lo ≤ a) && decide (a < lo + n))
  { k with data := k.data.filter (fun x => out (2097152 * g) 2097152 x.1), codes := k.codes.filter (fun x => out (8192 * g) 8192 x.1),
           errs := k.errs.filter (fun x => out (65536 * g) 65536 x.1 && out (metaSector (8192 * g)) 128 x.1) }

/-- A failing bit makes its row a repair candidate; its record goes to MEMTEST_LOG with ACTION 0 (R410). ROW_REPAIR then repairs the row or
leaves it in service, and the record says so. -/
def noteFail (r : Nat) (x : BitFail) (m : Module) : Module :=
  let row := rowOf (addrOff x.addr / 32)
  let m := m.modStack r (fun k => { k with candidates := if k.candidates.contains row then k.candidates else k.candidates ++ [row] })
  let rec_ := leBytes 8 (x.addr / 32 * 32) ++ leBytes 2 x.bit ++ leBytes 1 x.pattern ++ leBytes 1 0 ++ zeros 4
  (m.bump kMEMTEST_BITS 1).modTest (fun t => { t with memLog := Tab.put t.memLog (t.memSeq % 64) rec_, memSeq := t.memSeq + 1 })

/-- The memory test of a granule ends. A granule that a write has reached meanwhile gives no result (R409). -/
def granuleDone (now r g : Nat) (fails : List BitFail) (m : Module) : Module :=
  let dirty := Tab.get 0 m.test.touched r = 1
  let m := (m.modStack r (wipeGranule g)).modTest (fun t => { t with touched := Tab.set 0 t.touched r 0 })
  let m := if dirty then m else forL fails (m.bump kMEMTEST_GRANULES 1) (noteFail r)
  match m.test.reqs.find? (fun b => b.kind == 2 && b.region == r && b.running.isSome) with
  | some b =>
    let n := b.mask + (if dirty then 0 else fails.length)
    (match (if g + 1 < 49152 then (m.rg r).stack.clearFrom (49151 - g) (g + 1) else none) with
     | some g' => modReq b.id (fun b => { b with mask := n, running := some g' }) m
     | none => serveTests now (dropReq b.id (bistRecord now 2 (if n = 0 then 0 else 11) r 0 b.until_ n m)))
  | none => m.modTest (fun t => { t with granule := Tab.set 0 t.granule r ((g + 1) % 49152) })

/-- MEMTEST_GRANULE (R409): of the granule that the region's memory test has in hand. -/
def execMemtestGranule (r : Nat) (fails : List BitFail) (s : State) : Host.Outcome State Fault Refusal :=
  guarded (okR r) (s.does (fun now m => match m.underTest r with
    | some g => if m.env.rails && !m.inReset r then granuleDone now r g fails m else m
    | none => m))

/-- A recalibrated port is back, or has failed: of a request its record, of the timer the time (R416). -/
def recalEnds (now p : Nat) (m : Module) : Module :=
  let back := fun (q : Nat) => (disabledWith q).all (fun x => m.up x)
  let ended := fun (q : Nat) => back q || (disabledWith q).any (fun x => m.portState x = 5)
  let m := forL (m.test.reqs.filter (fun b => b.kind == 3 && b.running.isSome && (disabledWith b.region).contains p && ended b.region)) m (fun b m =>
    let m := if back b.region then m.bump kPORT_RECALS 1 else m
    (dropReq b.id (bistRecord now 3 (if back b.region then 0 else 11) b.region 0 b.until_ 0 m)).modTest (fun t =>
      { t with portRecal := Tab.put t.portRecal b.region now }))
  if m.test.nextPort = p + 1 ∧ ended p then
    (if back p then m.bump kPORT_RECALS 1 else m).modTest (fun t => { t with nextPort := 0, portRecal := Tab.put t.portRecal p now })
  else m

/-- TRAINING_ATTEMPT_END (R239): a recalibration ends with its port's training. -/
def execTrainingAttemptEnd (p : Nat) (ok : Bool) (node index : Nat) (s : State) : Host.Outcome State Fault Refusal :=
  guarded (okP p) (s.does (fun now m => serveTests now (recalEnds now p (attemptEnds now p ok node index m))))

/-- When a port is next due, and not before 1 s after the last recalibration of any. -/
def recalDue (m : Module) (p : Nat) : Nat :=
  max (Tab.get 0 m.test.portRecal p + m.num kPORT_RECAL_HOURS * 3600 * sec) (m.test.portRecal.foldl (fun a x => max a (x.2 + sec)) 0)

/-- The set or site port that is due first among those that may leave service now (R416). -/
def recalNext (m : Module) : Option Nat :=
  if m.num kPORT_RECAL_HOURS = 0 ∨ m.test.nextPort ≠ 0 ∨ m.test.reqs.any (fun b => b.kind == 3 && b.running.isSome) then none
  else (List.range 88).foldl (fun a p =>
    if !recalReady m p then a
    else match a with
      | none => some p
      | some q => if recalDue m p < recalDue m q then some p else some q) none

/-- PORT_RECAL_TIMER (R416): the moment at which the next port is due. -/
def execPortRecalTimer (s : State) : Host.Outcome State Fault Refusal :=
  s.doesWhen (recalNext s.mod).isSome (((recalNext s.mod).map (recalDue s.mod)).getD 0) (fun now m =>
    match recalNext m with
    | some p => startRecal now p (m.modTest (fun t => { t with nextPort := p + 1 }))
    | none => m)

/-- DRAM_TRAINING_AGE_DUE (R417). -/
def execDramTrainingAgeDue (r : Nat) (s : State) : Host.Outcome State Fault Refusal :=
  guarded (okR r) (s.doesAt ((s.mod.rg r).stack.trainTime + 720 * 3600 * sec) (fun _ m =>
    m.setNum kDRAM_RECAL_DUE (setBit (m.num kDRAM_RECAL_DUE) r)))

/-- A DRAM timing recalibration ends: the region serves again (R417). -/
def dramRecalEnds (now r : Nat) (m : Module) : Module :=
  let m := (m.setNum kDRAM_RECAL_DUE (clrBit (m.num kDRAM_RECAL_DUE) r)).bump kDRAM_RECALS 1
  let m := m.modStack r (fun k => { k with trainTime := now, trainTemps := (m.rg r).power.dramDies })
  let m := restall now (m.modTest (fun t => { t with dramRecal := Tab.del t.dramRecal r }))
  match m.test.reqs.find? (fun b => b.kind == 4 && b.region == r && b.running.isSome) with
  | some b => serveTests now (dropReq b.id (bistRecord now 4 0 r 0 b.until_ 0 m))
  | none => m

/-- DRAM_RECAL_DONE (R417): 2 ms after its beginning. -/
def execDramRecalDone (r : Nat) (s : State) : Host.Outcome State Fault Refusal :=
  guarded (okR r) (s.doesWhen (regionRetrains s.mod r) (Tab.get 0 s.mod.test.dramRecal r) (fun now m => dramRecalEnds now r m))

/-- A region reset abandons the tests that run on it, with a record; a waiting logic test fences anew (R414). -/
def abandonTests (now r : Nat) (m : Module) : Module :=
  let mine := fun (b : Bist) => b.kind != 3 && b.region == r
  let m := forL (m.test.reqs.filter (fun b => mine b && b.running.isSome)) m (fun b m =>
    dropReq b.id (bistRecord now b.kind 3 r (if b.kind = 1 then b.running.getD 0 else 0) (if b.kind = 1 then b.until_ - 189 * ms else b.until_) 0 m))
  (setReqs (m.test.reqs.map (fun b => if mine b then { b with fencedByDrone := 0, clearAfter := false } else b)) m).modTest (fun t =>
    { t with dramRecal := Tab.del t.dramRecal r })

/-! ### Commands at which a test that waits may begin -/

/-- CLUSTER_FENCED (R97). -/
def execClusterFenced (r c : Nat) (s : State) : Host.Outcome State Fault Refusal :=
  guarded (okR r && okC c) (s.does (fun now m => serveTests now (clusterFenced r c m)))

/-- CLUSTER_READY (R334): the wake latency after its admission has passed. -/
def execClusterReady (r c : Nat) (s : State) : Host.Outcome State Fault Refusal :=
  let w := (s.mod.cl r c).waking
  guarded (okR r && okC c) (s.doesWhen w.isSome (w.getD 0) (fun now m => serveTests now (clusterReady now r c m)))

/-- FAST_LOOP (R322, R327): the activity counts of the microsecond (`gatedMw`, `restMw`), and the input voltage. -/
def execFastLoop (issued moved : List Nat) (dieCounts inputMv : Nat) (s : State) : Host.Outcome State Fault Refusal :=
  s.every tFAST us (fun now m => serveTests now (fastLoop now issued moved dieCounts inputMv m))

/-- HEARTBEAT_TICK (R287): every 1 ms. Handshakes that could not be sent begin again. -/
def execHeartbeatTick (s : State) : Host.Outcome State Fault Refusal := s.every tBEAT ms (fun now m => serveTests now (retryKex now (heartbeat m)))

end Sys2Proof.Machine
end

