-- ==== Sys2Proof/Machine/Resets.lean ====
section
/-! DEFINITION. Region, die and module warm resets: what they do, their ends, requests for them (R100, R378, R379, R398–R401). -/

namespace Sys2Proof.Machine

/-! ### Beginning and end (R399, R404) -/

/-- Domain and number of LAST_RESET. -/
def domainCode : Domain → Nat × Nat
  | .region r => (0, r)
  | .die d => (1, d)
  | .warm => (2, 0)
  | .cold => (3, 0)

/-- LAST_RESET: domain, number, cause, time of the request, duration in µs. -/
def noteReset (d : Domain) (cause asked durUs : Nat) (m : Module) : Module :=
  m.setBlob kLAST_RESET (leBytes 1 (domainCode d).1 ++ leBytes 1 (domainCode d).2 ++ leBytes 1 cause ++ [0] ++ leBytes 8 asked ++ leBytes 4 durUs)

/-- "reset begun". -/
def postBegun (now : Nat) (d : Domain) (cause : Nat) (m : Module) : Module :=
  post now 11 1 srcDrone (leBytes 1 (domainCode d).1 ++ leBytes 1 (domainCode d).2 ++ leBytes 1 cause) m

/-- "reset completed", and LAST_RESET with the duration. -/
def postCompleted (now : Nat) (x : ResetSt) (m : Module) : Module :=
  let us' := (now - x.at_) / us
  post now 11 2 srcDrone (leBytes 1 (domainCode x.dom).1 ++ leBytes 1 (domainCode x.dom).2 ++ zeros 2 ++ leBytes 4 us')
    (noteReset x.dom x.cause x.asked us' m)

/-- Does the second domain lie within the first? -/
def domHolds : Domain → Domain → Bool
  | .region r, .region q => r == q
  | .die d, .region q => d == q / 4
  | .die d, .die e => d == e
  | .warm, d => d != .cold
  | .cold, _ => true
  | _, _ => false

/-- A reset starts: smaller ones in progress are abandoned. -/
def openReset (now : Nat) (d : Domain) (cause : Nat) (obs : Option StartObs) (m : Module) : Module :=
  let m := { m with resets := m.resets.filter (fun x => !domHolds d x.dom) ++ [{ dom := d, at_ := now, cause := cause, asked := now, obs := obs }] }
  postBegun now d cause (noteReset d cause now 0 m)

/-! ### A region (R100, R154, R177, R178, R398) -/

/-- Queues, rings, counters, fences, hints and progress at their reset values, context 0 active, generators at their seeds; HEARTBEAT stays. -/
def Work.reset (w : Work) (progs : Tab (List Byte)) : Work :=
  let saved := if w.active = 0 then w.saved else Tab.put w.saved w.active { progs := progs }
  { heartbeat := w.heartbeat, nextId := w.nextId, saved := saved.map (fun c => (c.1, { c.2 with gens := [] })) }

/-- The program store of context 0, which is the active one after a reset. -/
def Work.progs0 (w : Work) (progs : Tab (List Byte)) : Tab (List Byte) := if w.active = 0 then progs else (Tab.get {} w.saved 0).progs

/-- Tier entries after a region reset: RECALLING returns to COLD, WRITING to DIRTY; stages are released (R154); what a restore left to do stays to be done. -/
def resetTier (now r : Nat) (m : Module) : Module :=
  let n := if m.num (kTIER_CFG + r) = 0 then 0 else (m.tierHdr r).entries
  let recalling := (List.range n).filter (fun i => (m.tierEnt r i).state == 1)
  let m := forN n m (fun i m =>
    let t := m.tierEnt r i
    if t.state = 1 ∨ t.state = 4 ∨ t.stage ≠ 0xFFFF then setTier now r i { t with state := if t.state = 1 then 0 else if t.state = 4 then 3 else t.state, stage := 0xFFFF } m
    else m)
  m.modTier r (fun t => { fixes := t.fixes, frames := t.frames.filter (fun f => !recalling.contains f.2) })

/-- A drain under way starts its shard anew after recovery (R349). -/
def resetCut (r : Nat) (m : Module) : Module :=
  let m := m.modCut r (fun c => match c.drain with
    | some d => { c with shards := (d.ext, d.first) :: c.shards, drain := none }
    | none => c)
  m.modCuts (fun c => { c with pool := c.pool.filter (fun p => p.region ≠ r) })

/-- Cycles of a region, of its contexts and of the stage queues whose records name it end with its reset, which takes the place of their abort
(R397). -/
def dropCycles (now r : Nat) (m : Module) : Module :=
  let qs := m.cycles.filterMap (fun x => match x.func with
    | .stageQueue i => if (m.sqRec i).region = r then some i else none
    | _ => none)
  let m := forL qs m (fun i m => (settleStalls now i m).modSq i (fun _ => {}))
  { m with cycles := m.cycles.filter (fun x => match x.func with
      | .region q => q != r
      | .context q _ => q != r
      | .stageQueue i => !qs.contains i
      | _ => true) }

/-- Volatile entries, staging, claim and lock bit of a strobe group return to their reset values (R284, R285, R293). -/
def resetGroup (g : Nat) (m : Module) : Module :=
  let m := (clearGroup g m).setNum kLOCK (clrBit (m.num kLOCK) g)
  toDefaults (fun row key => groupOfKey row key == g && !keptRegion key && !keptGroup key && !liveEntry key) m

/-- The effects of a region's reset. Requests that it holds are answered with 0x08. -/
def resetRegion (now r : Nat) (m : Module) : Module :=
  let m := resetCut r (resetTier now r (recoverRegion now r (abandonTests now r (dropCycles now r (discardMerging r m)))))
  let m := dropWaiting r (fun _ => true) (refuseHeld now r (dropHeldAccess now (fun d => domainRegion d == some r) m))
  let fresh := (m.normRec r).state = 0
  let m := m.modR r (fun g =>
    { g with work := g.work.reset g.train.progs
             clusters := (List.range 16).map (fun c => (c, (g.cl c).restarted))
             stack := { g.stack with mcache := [], ueLog := [] }
             train := { g.train with progs := g.work.progs0 g.train.progs, ulaneFlags := 0,
                                     partialSum := if fresh then 0 else g.train.partialSum, complete := if fresh then 0 else g.train.complete } })
  let m := { m with norm := if r = 0 then [] else Tab.del m.norm r }
  let m := forN 8 (bumpGen r m) (fun c m => bumpCtx r c m)
  restall now (refuseHeldDesc now r (resetGroup r (m.setNum (kREGION_FSTATE + r) 2)))

/-- Chanter comes up disabled where CHANTER_DISABLE was written during the module's reset (R397). -/
def chanterBack (m : Module) : Module := if m.num kCHANTER_DISABLE = 1 then m.setNum kCHANTER_FSTATE 3 else m

/-- A region accepts work again, or stays disabled as REGION_DISABLE says (R397). -/
def regionBack (r : Nat) (m : Module) : Module :=
  (m.setNum (kREGION_FSTATE + r) (if m.num (kREGION_DISABLE + r) = 1 then 3 else 0)).modEnv (fun e => { e with regionsDown := clrBit e.regionsDown r })

/-- A region stays out of service: "region lost" (R401). -/
def regionLost (now r reason : Nat) (m : Module) : Module :=
  let m := (m.setNum (kREGION_FSTATE + r) 4).modEnv (fun e => { e with regionsDown := setBit e.regionsDown r })
  post now 11 3 (srcRegion r) (leBytes 1 r ++ leBytes 1 reason) m

/-! ### A die (R400) -/

def diePorts (d : Nat) : List Nat := (List.range 96).filter (fun p => portDie p == d)
def dieRegions (d : Nat) : List Nat := (List.range 4).map (fun i => 4 * d + i)

/-- Is a port disabled, or being disabled? -/
def Module.portOut (m : Module) (p : Nat) : Bool := m.portState p == 3 || m.portState p == 4

/-- The ports of a domain in reset enter TRAINING, but for those that are disabled or drain, which stay disabled (R397); what they carried
moves to siblings. -/
def resetPorts (now : Nat) (ps : List Nat) (m : Module) : Module :=
  let m := forL ps m (fun p m => if m.portOut p then (if p < 88 then discardKey (portSlot p) else id) (m.setPortState p 4) else startTraining p m)
  forL ps m (fun p m => (emptyPort now p m).modPort p (fun _ => {}))

/-- At the end of recovery the writes of PORT_DISABLE made meanwhile act: a port comes up DISABLED, or trains (R397). -/
def portsBack (now : Nat) (ps : List Nat) (m : Module) : Module :=
  forL ps m (fun p m =>
    if m.num (kPORT_DISABLE + p) = 1 then (if m.portState p = 4 then m else portOff now p m)
    else if m.portState p = 4 then startTraining p m else m)

/-- The port equalisation of the calibration set in flash is loaded, for a die reset the DRAM timing too (R418). -/
def reloadCal (dram : Bool) (m : Module) : Module :=
  match m.flash.cal with
  | none => m
  | some cal =>
    let x := Config.calSet cal
    { m with cal := { m.cal with portEq := x.portEq, dramTiming := if dram then x.dramTiming else m.cal.dramTiming } }

/-- The effects of a die's reset. Die 0 carries the edge interfaces too, whose keys are discarded (R439). -/
def resetDie (now d : Nat) (m : Module) : Module :=
  let m := bumpKey (kDIE_GEN + d) (dropHeldAccess now (fun x => domainDie x == d) m)
  let m := forL (dieRegions d) (resetGroup (16 + d) m) (fun r m => resetRegion now r m)
  let m := reloadCal true (resetPorts now (diePorts d) m)
  let m := m.modFab (fun x => { x with collFlags := Tab.del x.collFlags d, colls := x.colls.filter (fun c => c.region / 4 ≠ d) })
  if d = 0 then forL ((m.security.keys.map (·.1)).filter (fun k => decide (256 ≤ k))) { m with edges := [] } (fun slot m => loseKey now slot m) else m

/-- The regions of a domain after DRAM retraining: those that failed it twice are lost, and those lost already stay so (R401). -/
def regionsBack (now : Nat) (rs fails : List Nat) (m : Module) : Module :=
  forL rs m (fun r m =>
    if m.fstate r = 4 then m
    else
      let m := m.modStack r (fun k => { k with trainTime := now, trainTemps := (m.rg r).power.dramDies })
      if fails.contains r then regionLost now r 2 m else regionBack r m)

/-- What the surroundings show where a reset carries nothing. -/
def noObs : StartObs := ⟨0, [], [], [], [], 0, []⟩

/-- A die accepts work again. The stream engine of die 0 sends again what was not acknowledged. -/
def dieBack (now d : Nat) (obs : StartObs) (m : Module) : Module :=
  let m := portsBack now (diePorts d) (regionsBack now (dieRegions d) obs.trainFail m)
  if d = 0 then m.modCh (fun c => { c with streams := c.streams.map (fun s => (s.1, { s.2 with frags := s.2.frags.map (fun f => { f with sentAt := none }) })) })
  else m

/-! ### The module, warm (R378, R379) -/

/-- The Bellows group at its reset values (R344) after a warm reset: gates open, point 0 and its voltage, no stretch, no estimate, no
reading, no start waiting or ramping; gains of 1.0 and offsets of 0 as their entries then show (R345). -/
def bellowsReset (now : Nat) (m : Module) : Module :=
  let m := forN 16 m (fun r m => forN 16 m (fun c m =>
    (endStay now r c m).modCl r c (fun x => { x with sleep := 0, waking := none, waiting := none, waitPrio := 0 })))
  let m := forN 16 m (fun r m => m.modPower r (fun p =>
    { p with gate := 64, fpoint := 0, vpoint := 0, railFall := none, stretch := false, pllOff := false, pllWake := none
             estMw := 0, measMw := 0, railMa := 0, ramp := [] }))
  m.modBel (fun b => { b with badPeriods := 0, goodPeriods := 0, gains := [] })

/-- The effects of a module warm reset. What is on its way is lost, own requests and others' alike. -/
def resetWarm (now : Nat) (m : Module) : Module :=
  let m := setReqs [] { m.modFab (fun _ => {}) with heldAccess := [] }
  let m := forN 16 m (fun r m => resetRegion now r (m.modR r (fun g => { g with held := [], heldDesc := [] })))
  let m := forN 4 m (fun d m => bumpKey (kDIE_GEN + d) m)
  let m := warmDefaults (bumpKey kCHANTER_GEN m)
  let m := forN 96 m (fun p m => if m.portState p = 1 then m else startTraining p m)
  let m := { m with staging := [], ports := [], edges := [], bridge := {}, chanter := {}, stageqs := [], cycles := [], norm := [] }
  let m := forN 16 m (fun r m => (m.modR r (fun g => { g with dups := [], xch := {} })).setNum (kREGION_FSTATE + r) 2)
  let m := forN 96 m (fun p m => m.setPortState p 1)
  let m := { m with test := { nextId := m.test.nextId, portRecal := m.test.portRecal }, cuts := { m.cuts with pool := [], mode := 0, params := [] },
                    drone := { m.drone with bandQ := [], eventLog := [] },
                    security := { disabled := m.security.disabled, mismatchAt := m.security.mismatchAt } }
  bellowsReset now (reloadCal false ((m.setNum kSHORT_TERM_W (m.num kPOWER_CAP_W * 7 / 6)).setNum kMODULE_STATE 0))

/-- The ports after the training of a start: UP or miswired (R230), then those that fail (R239). -/
def startPorts (now : Nat) (obs : StartObs) (m : Module) : Module :=
  let trained := (List.range 96).filter (fun p => m.portState p == 1)
  let m := forL (trained.filter (fun p => !obs.portFail.contains p)) m (fun p m =>
    match obs.portFound.find? (fun x => x.1 == p) with
    | some x => attemptEnds now p true x.2.1 x.2.2 m
    | none => attemptEnds now p true (peerNode m p) (p % 8) m)
  forL (trained.filter obs.portFail.contains) m (fun p m => portFails now p m)

/-- The module is in CONFIG again 3.5 s after the request. -/
def warmBack (now : Nat) (x : ResetSt) (m : Module) : Module :=
  let obs := x.obs.getD noObs
  let m := chanterBack (regionsBack now (List.range 16) obs.trainFail m)
  ((portsBack now (List.range 96) (startPorts now obs m)).setNum kMODULE_STATE 1).setNum kSTART_MS ((now - x.at_) / ms)

/-! ### Requests (R399) -/

/-- May a reset of a domain begin: the module runs, no power-fail sequence, and no reset covers the domain? -/
def mayReset (m : Module) (d : Domain) : Bool :=
  m.env.droneUp && !m.bellows.failing && decide (m.mstate = 1 ∨ m.mstate = 2) && !m.resets.any (fun x => domHolds x.dom d)

/-- A request for a region's reset. -/
def askRegion (now r : Nat) (m : Module) : Module :=
  if mayReset m (.region r) then resetRegion now r (openReset now (.region r) 0 none m) else m

/-- A request for a die's reset; whether its stacks fail retraining (R401) is a free value. -/
def askDie (now d : Nat) (m : Module) : Module :=
  if mayReset m (.die d) then resetDie now d (openReset now (.die d) 0 (some (Config.startObs m.free)) m.useFree) else m

/-- A request for a module warm reset; during a start it is held. A module in FAILED takes none (R374). -/
def askWarm (now : Nat) (obs : StartObs) (m : Module) : Module :=
  if !m.env.droneUp ∨ m.bellows.failing then m
  else if m.mstate = 0 then m.modEnv (fun e => { e with resetAsked := some (match e.resetAsked with
    | some (2, o) => (2, o)
    | _ => (1, obs)) })
  else if m.mstate = 3 then m.status 8
  else resetWarm now (openReset now .warm 0 (some obs) m)

/-- A reset of a smaller domain ends. -/
def resetEnds (now : Nat) (x : ResetSt) (m : Module) : Module :=
  let m := { m with resets := m.resets.filter (fun y => y.dom ≠ x.dom) }
  match x.dom with
  | .region r => postCompleted now x ((regionBack r m).bump kRESETS_REGION 1)
  | .die d => postCompleted now x ((dieBack now d (x.obs.getD noObs) m).bump kRESETS_DIE 1)
  | .warm => postCompleted now x ((warmBack now x m).bump kRESETS_WARM 1)
  | .cold => m

/-- How long the recovery of a domain takes (R398). -/
def recoveryTime : Domain → Nat
  | .region _ => 20 * ms
  | .die _ => 1200 * ms
  | .warm => 3500 * ms
  | .cold => 17995 * ms

/-- RESET_REGION (R100). -/
def execResetRegion (mask : Nat) (s : State) : Host.Outcome State Fault Refusal :=
  s.does (fun now m => if 65536 ≤ mask then m.status 2
    else behindCommits now kRESET_REGION (leBytes 2 mask) (fun m => forL (bitList mask 16) (m.status 0) (fun r m => askRegion now r m)) m)

/-- RESET_DIE (R400); bits 7:4 are reserved. -/
def execResetDie (mask : Nat) (s : State) : Host.Outcome State Fault Refusal :=
  s.does (fun now m => if 256 ≤ mask then m.status 2
    else behindCommits now kRESET_DIE (leBytes 1 mask) (fun m => forL (bitList mask 4) (m.status 0) (fun d m => askDie now d m)) m)

/-- RESET_MODULE_WARM (R378). -/
def execResetModuleWarm (obs : StartObs) (s : State) : Host.Outcome State Fault Refusal :=
  s.does (fun now m => behindCommits now kRESET_MODULE [1] (fun m => askWarm now obs (m.status 0)) m)

/-- The reset in progress in which region r recovers: its own, its die's or a warm one; none once it is lost. -/
def regionReset? (m : Module) (r : Nat) : Option ResetSt :=
  if m.fstate r = 2 then m.resets.find? (fun x => x.dom != .cold && domHolds x.dom (.region r)) else none

/-- REGION_RECOVERY_LATE (R401): 100 ms after the region's reset. -/
def execRegionRecoveryLate (r : Nat) (s : State) : Host.Outcome State Fault Refusal :=
  guarded (okR r) (s.doesWhen (regionReset? s.mod r).isSome (((regionReset? s.mod r).map ResetSt.at_).getD 0 + 100 * ms) (fun now m =>
    regionLost now r 1 { m with resets := m.resets.filter (fun x => x.dom ≠ .region r) }))

end Sys2Proof.Machine
end

