-- ==== Sys2Proof/Machine/StartUp.lean ====
section
/-! DEFINITION. Cold start, loss of input, the reset line, thermal trips and entering RUN (R330, R333, R342, R343, R371, R372, R374–R380,
R391, R398, R399, R415, R425, R426, R448, R453, R454). -/

namespace Sys2Proof.Machine

/-! ### What a module cold reset leaves (R398) -/

/-- A region without power: its fuses and its soft repair table in flash are left. -/
def offRegion (g : Region) : Region :=
  { clusters := (List.range 16).map (fun c => (c, (g.cl c).lost 0)),
    stack := { fuses := g.stack.fuses, softFlash := g.stack.softFlash, soft := g.stack.softFlash, spareBad := g.stack.spareBad } }

/-- Flash without power: what was being programmed is lost (R295, R419, R425). -/
def offFlash (f : Flash) : Flash := { f with saving := none, calBusy := none, fwBusy := none, recovery := none }

/-- The module with Drone off: flash, fuses and pins are left; the alert of a thermal trip stays until the trip ends (R391, R453). `cause` and `asked` are those of the reset that has put it off. -/
def offModule (cause asked : Nat) (m : Module) : Module :=
  { nums := resetNums,
    regions := (List.range 16).map (fun r => (r, offRegion (m.rg r))),
    flash := offFlash m.flash,
    env := { inputMv := m.env.inputMv, resetN := m.env.resetN, alertN := m.env.alertN || !m.env.trip, trip := m.env.trip, offCause := cause, asked := asked, refLost := m.env.refLost },
    tap := m.tap, out := m.out, free := m.free }

/-- "reset begun" leaves at the start of a module cold reset, which ends all that would send it later. -/
def begunCold (now cause : Nat) (m : Module) : Module :=
  if !m.env.droneUp then m
  else
    let x := postBegun now .cold cause m
    if x.drone.outbox.length ≤ m.drone.outbox.length then x
    else match x.drone.outbox.getLast? with
      | some (a, p, d) => x.emit (.field a p d)
      | none => x

/-- A module cold reset begins. -/
def coldOff (now cause asked : Nat) (m : Module) : Module := offModule cause asked (begunCold now cause m)

/-! ### The boot ROM (R376, R425, R426) -/

/-- The first check that a slot fails; an empty slot fails the first. -/
def slotCheck (m : Module) (slot : Nat) : Nat := ((imageIn m slot).map (imageCheck m)).getD 1

/-- The configuration record in flash with the highest sequence number (R295). -/
def savedRecord (f : Flash) : Option (Nat × List (Nat × List Byte)) := match f.cfg0, f.cfg1 with
  | some a, some b => some (if a.1 < b.1 then b else a)
  | some a, none => some a
  | none, b => b

/-- The image slot that the saved record selects. -/
def bootFirst (m : Module) : Nat := ((((savedRecord m.flash).bind (fun x => Tab.find? x.2 kFW_SELECT)).map leNat).getD 0) % 2

/-- Module time when Drone has booted: the boot ROM starts 5 ms after the standby converter (R333, R376). -/
def bootTime : Nat := 1395 * ms

/-- The saved configuration is loaded (R295). -/
def loadConfig (m : Module) : Module :=
  match savedRecord m.flash with
  | none => m.setNum kSTORE_STATUS 4
  | some (seq, xs) =>
    let m := forL xs (m.setNum kSTORE_SEQ seq) (fun x m => match dictRow? x.1 with
      | some row =>
        if valueOk row x.2 then putEntry x.1 x.2 m
        else post bootTime 9 3 srcControl (leBytes 2 (x.1 / 256) ++ leBytes 1 (x.1 % 256)) m
      | none => m)
    -- no shard table is in force: COMP_WORKING acts at once (R125)
    if m.num kCOMP_WORKING = 1 then m else forN 16 m (fun r m => m.modTrain r (fun t => { t with compWorking := false }))

/-- The calibration set is loaded at a cold start (R418), with the starting gains and offsets (R322). -/
def calibrate (cal : List Byte) (m : Module) : Module :=
  let m := forN 16 (((m.setBlob kCAL_IMAGE cal).setNum kCAL_ID (leAt (Config.calId cal) 0 4))) (fun r m => m.setBlob (kVF_TABLE + r) (fitB 16 (Config.calVf cal r)))
  let x := Config.calSet cal
  { m with cal := { image := cal, trims := x.trims, energy := x.energy, portEq := x.portEq, dramTiming := x.dramTiming },
           bellows := { m.bellows with gains := (List.range 16).map (fun r => (r, x.gains.getD r (1000000, 0))) } }

/-- Does a saved record set FUSE_REPAIR? -/
def asksFuses (c : Option (Nat × List (Nat × List Byte))) : Bool := c.any (fun x => x.2.any (fun e => e.1 == kFUSE_REPAIR && leNat e.2 != 0))

/-- A saved record with FUSE_REPAIR clear. -/
def withoutFuses (c : Option (Nat × List (Nat × List Byte))) : Option (Nat × List (Nat × List Byte)) :=
  c.map (fun x => (x.1, x.2.map (fun (e : Nat × List Byte) => if e.1 = kFUSE_REPAIR then (e.1, zeros e.2.length) else e)))

/-- FUSE_REPAIR clears itself, in force and in the saved records, so that the next start burns none (R143, log entry 115). A record that
sets it is rewritten, which erases its slot; a worn area keeps it (R421). -/
def clearFuseRepair (m : Module) : Module :=
  let m := m.setNum kFUSE_REPAIR 0
  if m.worn (wearCfg 0) ∨ m.worn (wearCfg 1) then m
  else
    let erase := fun (slot : Nat) (c : Option (Nat × List (Nat × List Byte))) (m : Module) => if asksFuses c then eraseArea (wearCfg slot) m else m
    (erase 0 m.flash.cfg0 (erase 1 m.flash.cfg1 m)).modFlash (fun f => { f with cfg0 := withoutFuses f.cfg0, cfg1 := withoutFuses f.cfg1 })

/-- Soft repair entries are burnt in table order while a region's fuses last (R143). -/
def burnFuses (m : Module) : Module :=
  if m.num kFUSE_REPAIR = 0 then m
  else
    forN 16 (clearFuseRepair m) (fun r m =>
      let room := 256 - (m.rg r).stack.fuses.length
      repairAppend r (m.modStack r (fun k => { k with fuses := k.fuses ++ k.soft.take room, soft := k.soft.drop room })))

/-- Is the input in range for the start check (R376)? -/
def inputGood (obs : StartObs) : Bool := decide (48000 ≤ obs.inputMv) && decide (obs.inputMv ≤ 64000)

/-- The input check: when it passes, the rails start and fuses are burnt where the host has asked for it (R376, R377). -/
def inputCheck (at_ cause asked : Nat) (obs : StartObs) (m : Module) : Module :=
  let burn := inputGood obs && m.num kFUSE_REPAIR == 1
  let x : ResetSt := { dom := .cold, at_ := at_, cause := cause, asked := asked, obs := some { obs with fuseMs := if burn then min obs.fuseMs 4000 else 0 } }
  let m := { m with resets := [x], bellows := { m.bellows with inputMv := obs.inputMv } }
  if inputGood obs then burnFuses (m.modEnv (fun e => { e with rails := true, pwrgood := true })) else m

/-- Firmware of a slot runs: identity, counters, configuration, calibration, input check. `failed` is the slot rejected before, and its check. -/
def runFirmware (slot : Nat) (failed : Option (Nat × Nat)) (cause asked : Nat) (obs : StartObs) (m : Module) : Module :=
  let x := (imageIn m slot).getD Config.factoryImage
  let fuses := max m.flash.svnFuses x.svn
  let starts := m.flash.coldStarts + 1
  let m := m.modFlash (fun f => { f with running := slot, svnFuses := fuses, loss := Tab.del f.loss f.lossNext })
  let m := eraseArea (wearLoss m.flash.lossNext) m
  -- a worn counter area takes no further write (R421)
  let m := if m.worn wearCount then m else (eraseArea wearCount m).modFlash (fun f => { f with coldStarts := starts })
  let m := m.modEnv (fun e => { e with droneUp := true })
  let m := (((m.setNum kFW_VERSION x.fwVersion).setNum kFW_IMAGE slot).setNum kSVN_FUSED fuses).setNum kRESETS_COLD starts
  let m := loadConfig (noteReset .cold cause asked 0 m)
  let m := match failed with
    | some (s, c) => post bootTime 10 1 srcDrone (leBytes 1 s ++ leBytes 1 c) m
    | none => m
  let m := m.modDrone (fun d => { d with plcaId := m.num kFIELD_PLCA_ID, plcaCount := m.num kFIELD_PLCA_COUNT })
  let m := m.setNum kSHORT_TERM_W (m.num kPOWER_CAP_W * 7 / 6)
  match m.flash.cal with
  | some cal => inputCheck 0 cause asked obs (calibrate cal m)
  | none => post bootTime 9 4 srcDrone [] (m.setNum kMODULE_STATE 3)

/-- The boot ROM starts a module that is off: the selected image, else the other, else it waits for a recovery image (R377, R425). -/
def boot (cause asked : Nat) (obs : StartObs) (m : Module) : Module :=
  let m := m.modEnv (fun e => { e with inputMv := obs.inputMv, bootWait := false })
  let a := bootFirst m
  if slotCheck m a = 0 then runFirmware a none cause asked obs m
  else if slotCheck m (1 - a) = 0 then runFirmware (1 - a) (some (a, slotCheck m a)) cause asked obs m
  else m.modEnv (fun e => { e with bootWait := true, alertN := false })

/-- A command at which the boot ROM starts when its condition holds: module time restarts (R333). -/
def State.reboots (s : State) (c : Bool) (d : Nat) (start other : Nat → Module → Module) : Host.Outcome State Fault Refusal :=
  let m := { s.mod with out := [] }
  .next { s with time := if c then bootTime else max s.time d, mod := if c then start (max s.time d) m else other (max s.time d) m }

/-! ### The end of a start (R376, R377, R415) -/

/-- Start-up self-test: every cluster, die by die, and every granule of the stacks that have trained; failing clusters and bits are recorded. -/
def startTests (x : ResetSt) (obs : StartObs) (m : Module) : Module :=
  let trained := (List.range 16).filter (fun r => !obs.trainFail.contains r)
  let m := (m.bump kLBIST_RUNS 256).bump kMEMTEST_GRANULES (49152 * trained.length)
  let m := forL (obs.bits.filter (fun x => trained.contains (addrRegion x.addr))) m (fun x m => noteFail (addrRegion x.addr) x m)
  forN 64 m (fun pos m => forN 4 m (fun d m =>
    let r := 4 * d + pos / 16
    let c := pos % 16
    let fails := if obs.testFail.contains (16 * r + c) then max 1 (Config.testFails m.free % 1024) else 0
    -- the controller keeps what its last test left
    let m := if pos = 63 then endLogic r c fails (beginLogic r c m) else m
    if !obs.testFail.contains (16 * r + c) then m
    else
      let start := x.at_ + (obs.fuseMs + 3495 + 189 * pos) * ms
      bistRecord (start + 189 * ms) 1 11 r c start fails (m.useFree.bump kLBIST_FAILS 1)))

/-- Regions that fail DRAM training or self-test stay out of service. -/
def startLost (obs : StartObs) (m : Module) : Module :=
  forN 16 m (fun r m =>
    if obs.trainFail.contains r || obs.testFail.any (fun c => c / 16 == r) then
      (m.setNum (kREGION_FSTATE + r) 4).modEnv (fun e => { e with regionsDown := setBit e.regionsDown r })
    else m)

/-- MODULE_STATE becomes 1: "module ready". -/
def coldEnds (now : Nat) (x : ResetSt) (m : Module) : Module :=
  let obs := x.obs.getD noObs
  let m := startLost obs (startTests x obs { m with resets := [] })
  let m := chanterBack (forN 16 m (fun r m => if m.fstate r = 4 then m else regionBack r m))
  let m := forN 16 m (fun r m => m.modStack r (fun k => { k with trainTime := now, trainTemps := (m.rg r).power.dramDies }))
  let m := ((startPorts now obs m).setNum kMODULE_STATE 1).setNum kSTART_MS ((now + 5 * ms) / ms)
  let m := post now 9 1 srcDrone (leBytes 4 ((now + 5 * ms) / ms)) m
  portsBack now (List.range 96) (postCompleted now { x with at_ := 0 } m)

/-- The reset of a domain that is in progress, when it can end: a cold start goes on only with the input in range. -/
def ending? (m : Module) (d : Domain) : Option ResetSt :=
  if m.bellows.failing || !m.env.droneUp then none
  else (m.resets.find? (fun x => x.dom == d)).filter (fun x => d != .cold || (x.obs.map inputGood).getD false)

/-- When a reset in progress ends. -/
def endsAt (x : ResetSt) : Nat := x.at_ + recoveryTime x.dom + ((x.obs.map StartObs.fuseMs).getD 0) * (if x.dom = .cold then ms else 0)

/-- A module cold reset that is held until the start ends (R376). -/
def heldCold (m : Module) : Option StartObs := match m.env.resetAsked with
  | some (2, o) => some o
  | _ => none

def okDom : Domain → Bool
  | .region r => okR r
  | .die d => decide (d < 4)
  | .warm => true
  | .cold => true

/-- A module warm reset that is held until the start ends begins (R376, R399). -/
def heldWarm (now : Nat) (m : Module) : Module := match m.env.resetAsked with
  | some (1, o) => askWarm now o (m.modEnv (fun e => { e with resetAsked := none }))
  | _ => m

/-- A start: cold, or of a warm reset. -/
def isStart (d : Domain) : Bool := d == .cold || d == .warm

/-- The end of a reset; of a cold start, its end. -/
def completes (now : Nat) (x : ResetSt) (m : Module) : Module :=
  let m := if x.dom = .cold then coldEnds now x m else resetEnds now x m
  if isStart x.dom then heldWarm now m else m

/-- RESET_COMPLETED (R376, R399). -/
def execResetCompleted (d : Domain) (s : State) : Host.Outcome State Fault Refusal :=
  guarded (okDom d) (match ending? s.mod d with
    | none => s.always (fun _ m => m)
    | some x => match (if isStart d then heldCold s.mod else none) with
      | none => s.doesAt (endsAt x) (fun now m => completes now x m)
      | some o => s.reboots true (endsAt x) (fun now m => boot 0 now o (coldOff now 0 now (completes now x m))) (fun _ m => m))

/-! ### Input (R330, R371, R372, R376, R448) -/

/-- Would the boot ROM start? -/
def mayBoot (m : Module) (obs : StartObs) : Bool :=
  !m.env.droneUp && !m.env.bootWait && m.env.resetN && m.env.lossUntil.isNone && !m.env.trip && decide (44000 ≤ obs.inputMv)

/-- A repeated input check of a start that waits for it, at the present time. -/
def checkAgain (now : Nat) (obs : StartObs) (m : Module) : Module :=
  if m.env.rails ∨ m.bellows.failing then m
  else match m.resets.find? (fun x => x.dom == .cold) with
    | some x => inputCheck (now - 1595 * ms) x.cause x.asked obs (m.modEnv (fun e => { e with inputMv := obs.inputMv }))
    | none => m

/-- COLD_START (R376). -/
def execColdStart (obs : StartObs) (s : State) : Host.Outcome State Fault Refusal :=
  s.reboots (mayBoot s.mod obs) 0 (fun _ m => boot m.env.offCause m.env.asked obs m) (checkAgain · obs)

/-- The loss record (R372). -/
def lossRecordOf (now cause mv : Nat) (m : Module) : List Byte :=
  let steps := (List.range 16).map (fun r => m.num (kSTEP_CLOSED + r))
  let held := (List.range 16).any (fun r => m.num (kCUT_EPOCH + r) != 0)
  let flags := maskOf ((if held then [0] else []) ++ (if m.num kCUT_STATE = 1 then [1] else []) ++ (if m.num kCUT_STATE = 2 then [2] else []))
  let n := m.bellows.measWindow.length
  let power : Nat := if n = 0 then 0 else m.bellows.measWindow.sum / n
  let temps := fun (f : Power → Int) => f32Milli (hottest ((List.range 16).map (fun r => f (m.rg r).power)))
  let body := leBytes 8 now ++ leBytes 1 cause ++ leBytes 1 flags ++ leBytes 2 m.node ++ zeros 4
    ++ leBytes 8 (steps.foldl min (steps.headD 0)) ++ leBytes 8 (m.num kCUT_STEP) ++ leBytes 8 (m.num kDRAIN_LEFT)
    ++ fitB 24 (m.blob kMANIFEST_LAST) ++ leBytes 4 mv ++ leBytes 4 (f32Milli (power : Int))
    ++ leBytes 4 (temps Power.logicMilliC) ++ leBytes 4 (temps Power.dramMilliC) ++ steps.flatMap (leBytes 4) ++ zeros 104
  body ++ shake256 8 body

/-- The power-fail sequence begins: gates fall to 0, ports quiesce, pool requests are abandoned, the loss record is assembled. -/
def powerFail (now cause mv : Nat) (m : Module) : Module :=
  if !m.env.droneUp ∨ m.bellows.failing then m
  else
    let m := m.modEnv (fun e => { e with inputMv := mv, lossUntil := some (now + 900 * us), lossCause := cause, lossRecord := lossRecordOf now cause mv m })
    let m := (m.modBel (fun b => { b with failing := true })).modCuts (fun c => { c with pool := [] })
    forN 16 m (fun r m => m.modPower r (fun p => { p with gate := 0 }))

/-- POWER_FAIL (R330). -/
def execPowerFail (mv : Nat) (s : State) : Host.Outcome State Fault Refusal :=
  s.does (fun now m => if mv < 42000 then powerFail now 1 mv m else if 66000 < mv then powerFail now 2 mv m else m)

/-- The cause of the cold reset that follows the loss record. -/
def lossReset (e : Env) : Nat := if e.resetPending then 1 else if e.lossCause ≤ 2 then 2 else 3

/-- The loss record is in flash, in the slot erased for it, and the cold reset begins. -/
def lossWritten (now : Nat) (m : Module) : Module :=
  let m := m.modFlash (fun f => { f with loss := Tab.put f.loss f.lossNext m.env.lossRecord, lossNext := (f.lossNext + 1) % 64 })
  let m := m.modEnv (fun e => { e with trip := e.trip && !e.resetPending })
  coldOff now (lossReset m.env) (now - 900 * us) m

/-- LOSS_RECORD_WRITTEN (R371, R448). -/
def execLossRecordWritten (obs : StartObs) (s : State) : Host.Outcome State Fault Refusal :=
  let e := s.mod.env
  s.reboots (e.lossUntil.isSome && e.resetN && (!e.trip || e.resetPending) && decide (44000 ≤ obs.inputMv)) (e.lossUntil.getD 0)
    (fun now m => let m := lossWritten now m; boot m.env.offCause m.env.asked obs m)
    (fun now m => if e.lossUntil.isSome then lossWritten now m else m)

/-- The rails stop. With no input at all the standby converter stops too, and a record that is being programmed is cut off. -/
def railsStop (now mv : Nat) (m : Module) : Module :=
  let m := powerFail now 1 mv m
  let m := m.modEnv (fun e => { e with inputMv := mv, rails := false, pwrgood := false, trip := false })
  if mv = 0 then offModule 2 now m else m

/-- RAILS_STOP (R330). -/
def execRailsStop (mv : Nat) (s : State) : Host.Outcome State Fault Refusal :=
  s.always (fun now m => if mv < 38000 then railsStop now mv m else m)

/-! ### The reset line (R453, R454) and requests for a cold reset (R398, R399) -/

/-- RESET_N falls: at once, or after the loss record or the calibration set has been programmed. -/
def resetLow (now : Nat) (m : Module) : Module :=
  let m := m.modEnv (fun e => { e with resetN := false })
  if m.env.lossUntil.isSome ∨ m.flash.calBusy.isSome then m.modEnv (fun e => { e with resetPending := true })
  else coldOff now 1 now (m.modEnv (fun e => { e with trip := false }))

/-- RESET_N_LOW (R453, R454). -/
def execResetNLow (s : State) : Host.Outcome State Fault Refusal := s.always (fun now m => if m.env.resetN then resetLow now m else m)

/-- RESET_N_RISE (R453). -/
def execResetNRise (obs : StartObs) (s : State) : Host.Outcome State Fault Refusal :=
  let m := { s.mod with env := { s.mod.env with resetN := true }, tap := { s.mod.tap with drive := false } }
  { s with mod := m }.reboots (!s.mod.env.resetN && mayBoot m obs) 0 (fun _ m => boot m.env.offCause m.env.asked obs m) (fun _ m => m)

/-- RESET_MODULE_COLD (R398): held during a start. -/
def execResetModuleCold (obs : StartObs) (s : State) : Host.Outcome State Fault Refusal :=
  let m := s.mod
  let live := m.env.droneUp && !m.bellows.failing
  s.reboots (live && decide (m.mstate ≠ 0) && !commitBefore m m.nextHeld) 0 (fun now m => boot 0 now obs (coldOff now 0 now m))
    (fun now m => if live then behindCommits now kRESET_MODULE [2] (fun m => (m.modEnv (fun e => { e with resetAsked := some (2, obs) })).status 0) m else m)

/-! ### Thermal trips (R342, R343) and reference clocks (R332, R333) -/

/-- A thermal trip: the power-fail sequence, after which the module stays off. -/
def thermalTrip (now cause r : Nat) (milliC : Int) (m : Module) : Module :=
  if m.bellows.failing then m
  else
    let m := post now 7 6 srcBellows (leBytes 1 cause ++ leBytes 1 r ++ zeros 2 ++ leBytes 4 (f32Milli milliC)) m
    (powerFail now cause m.env.inputMv m).modEnv (fun e => { e with trip := true })

/-- LOGIC_THERMAL_TRIP (R342): 110 °C or more for 100 µs. -/
def execLogicThermalTrip (r : Nat) (milliC : Int) (s : State) : Host.Outcome State Fault Refusal :=
  let t := (s.mod.rg r).power.logicTripSince
  guarded (okR r) (s.doesWhen (t.isSome && decide (110000 ≤ milliC)) (t.getD 0 + 100 * us) (fun now m => thermalTrip now 3 r milliC m))

/-- DRAM_THERMAL_TRIP (R343): 100 °C or more for 1 ms. -/
def execDramThermalTrip (r : Nat) (milliC : Int) (s : State) : Host.Outcome State Fault Refusal :=
  let t := (s.mod.rg r).power.dramTripSince
  guarded (okR r) (s.doesWhen (t.isSome && decide (100000 ≤ milliC)) (t.getD 0 + ms) (fun now m => thermalTrip now 4 r milliC m))

/-- REFERENCE_CLOCK_LOST (R333): 0 the 25 MHz reference, 1–4 that of a die's ports, which go down. -/
def execReferenceClockLost (which : Nat) (s : State) : Host.Outcome State Fault Refusal :=
  guarded (decide (which < 5)) (s.does (fun now m =>
    if m.env.refLost.testBit which then m
    else
      let m := post now 8 1 srcDrone (leBytes 1 which) (m.modEnv (fun e => { e with refLost := setBit e.refLost which }))
      if which = 0 then m else forL ((diePorts (which - 1)).filter (fun p => m.portState p == 2)) m (fun p m => retrain now p m)))

/-- REFERENCE_CLOCK_RESTORED (R332). -/
def execReferenceClockRestored (which : Nat) (s : State) : Host.Outcome State Fault Refusal :=
  guarded (decide (which < 5)) (s.always (fun _ m => m.modEnv (fun e => { e with refLost := clrBit e.refLost which })))

/-! ### ALERT_ACK and RUN_ENTER (R380, R391) -/

/-- A write of ALERT_ACK; answers the status. -/
def alertAck (v : Nat) (m : Module) : Module × Nat :=
  if 1 < v then (m, 2) else (if v = 1 then m.modEnv (fun e => { e with alertN := true }) else m, 0)

/-- ALERT_ACK (R391). -/
def execAlertAck (v : Nat) (s : State) : Host.Outcome State Fault Refusal := s.does (fun _ m => answered (alertAck v m))

/-- Check 5: what an exchange policy needs. -/
def exchangeReady (m : Module) : Bool :=
  m.num kEXCH_POLICY == 0 ||
    (m.blob kHOME_TABLE != [] && m.blob (kSITE_LAYOUT + m.num kSITE_ID) != [] && m.num (kSITE_WT + m.num kSITE_ID) != 0
      && (List.range 16).all (fun r => m.num (kSHARD_CFG + r) == 0 || (m.num (kXCH_CFG + r) != 0 && decide (2097152 ≤ m.num (kXBUF_BYTES + r)))))

/-- Check 7: what line encryption needs (R430). -/
def lineReady (m : Module) : Bool :=
  m.num kLINE_ENC == 0 || (m.trusts 0 (some m.node) (fingerprint Config.identityPub) && decide (3072 ≤ m.num kEDGE_MTU))

/-- The checks of R380 in their order: pass or fail, and the status of a failure. -/
def runChecks (m : Module) : List (Bool × Nat) :=
  [ (m.num kMODULE_ROLE != 2, 2),
    (m.env.regionsDown == 0 && (List.range 16).all (fun r => m.fstate r == 0 || m.fstate r == 2), 8),
    (m.kindOf m.node == 0 && m.siteOf m.node == m.num kSITE_ID, 2),
    (m.num kMODULE_ROLE != 1 || ((List.range 4).any (fun e => m.num (kEDGE_ROLE + e) == 2)
      && m.kindOf (m.num kHOST_NODE) == 2 && m.siteOf (m.num kHOST_NODE) == m.num kSITE_ID), 2),
    (exchangeReady m, 2),
    (m.num kTIME_ALIGN != 1 || m.kindOf (m.num kTIME_REF) == 0, 2),
    (lineReady m, 2),
    (m.staging.all (fun g => g.2.items == []), 9) ]

/-- The first check that fails, by its code, and its status. -/
def firstFailing : Nat → List (Bool × Nat) → Option (Nat × Nat)
  | _, [] => none
  | k, (ok, st) :: xs => if ok then firstFailing (k + 1) xs else some (k, st)

/-- Least and greatest of a header id over blocks. -/
def lowOf (xs : List Nat) : Nat := xs.foldl min (xs.headD 0)
def highOf (xs : List Nat) : Nat := xs.foldl max 0

/-- Chanter starts from the round that the block headers record (R205, R380). -/
def startChanter (now : Nat) (m : Module) : Module :=
  if m.num kEXCH_POLICY = 0 then m
  else
    let m := forL (exchanging m) m (fun r m =>
      let hs := (m.blocksOf r).map (fun x => m.hdr r x.1 x.2)
      m.modXch r (fun x => { x with boundary := highOf (hs.map (·.deltaRnd)), signalled := lowOf (hs.map (·.adoptRnd)), codec := m.num kDELTA_CODEC,
                                    k := m.num kDELTA_K, entropy := m.num kDELTA_ENTROPY == 1, stoch := m.num kDELTA_ORND == 1 }))
    let m := m.setNum kROUND (roundOf m)
    let m := m.setNum kHOME_RND (lowOf (m.homeBlocks.map (fun x => (m.hdr x.1 x.2.1 x.2.2).outerRnd)))
    let m := countOpen (m.modCh (fun c => { c with params := [] }))
    match openRound m with
    | some n => if m.num kEXCH_POLICY = 1 then m else m.modCh (fun c => { c with deadline := some (deadlineOf m now n), due := false })
    | none => m

/-- RUN is entered. Until their keys are in place, Chanter treats the nodes of other sites as held (R432). -/
def enterRun (now : Nat) (m : Module) : Module :=
  let m := startChanter now (post now 9 2 srcDrone [] (m.setNum kMODULE_STATE 2))
  let remote := (m.sites.filter (· ≠ m.num kSITE_ID)).flatMap m.siteNodes
  let m := forL (if m.protectsEdge ∧ m.num kEXCH_POLICY ≠ 0 then remote else []) m (fun n m => keyGone now (edgeSlot n) m)
  if m.num kLINE_ENC = 0 then m else handshakeAll now (m.num kLINE_ENC == 2) (m.setTimer tKEX now)

/-- A write of RUN_ENTER; answers the status. -/
def runEnter (now v : Nat) (m : Module) : Module × Nat :=
  if 1 < v then (m, 2)
  else if v = 0 ∨ m.mstate = 2 then (m, 0)
  else if m.mstate = 0 then (m, 9)
  else if m.mstate = 3 then (m, 8)
  else match firstFailing 1 (runChecks m) with
    | some (k, st) => (m.setNum kRUN_CHECK k, st)
    | none => (enterRun now (m.setNum kRUN_CHECK 0), 0)

/-- RUN_ENTER (R380). -/
def execRunEnter (v : Nat) (s : State) : Host.Outcome State Fault Refusal := 
  s.does (fun now m => behindCommits now kRUN_ENTER (leBytes 1 v) (fun m => answered (runEnter now v m)) m)

end Sys2Proof.Machine
end

