-- ==== Sys2Proof/Machine/Dictionary.lean ====
section
/-! DEFINITION. The object dictionary: what an entry reads (R290–R292), writes and their commands (R281, R292, R297, R303), INFO (R302), saving
the configuration (R294, R295), attestation (R429), and the service of requests (R301–R307, R312, R313). -/

namespace Sys2Proof.Machine

/-! ### What an entry reads -/

/-- A value in bytes of a blob of fixed records: record n at offset size × n, zeros where none is held. -/
def ringBytes (n size : Nat) (t : Tab (List Byte)) : List Byte := (List.range n).flatMap (fun i => fitB size (Tab.get [] t i))

/-- FLASH_WEAR: the highest erase count of each area of R420. -/
def wearBytes (m : Module) : List Byte :=
  let top := fun (ks : List Nat) => leBytes 4 (ks.foldl (fun a k => max a (m.wearOf k)) 0)
  top [wearImage 0] ++ top [wearImage 1] ++ top [wearCfg 0, wearCfg 1] ++ top [wearCal] ++ top [wearSoft 0, wearSoft 1]
    ++ top ((List.range 64).map wearLoss) ++ top [wearCount]

/-- Aligned time (R223). -/
def alignedNow (m : Module) (now : Nat) : Nat := (((now : Nat) : Int) + thetaOf m.chanter.theta).toNat

/-- UE_LOG: 16 entries of two words, oldest first (R134). -/
def ueLogBytes (k : Stack) : List Byte := fitB 256 (k.ueLog.flatMap (fun x => leBytes 8 x.1 ++ leBytes 8 x.2))

/-- ALLOC_MAP: the granules of the metadata table read as set (R138). -/
def allocBytes (k : Stack) : List Byte := (List.range 6144).map (fun i => BitVec.ofNat 8 (if 6132 ≤ i then 255 else Tab.get 0 k.alloc i))

/-- A mean, 0 of nothing. -/
def meanOf (xs : List Nat) : Nat := if xs.length = 0 then 0 else xs.sum / xs.length

/-- The default of a blob. -/
def blobDefault (row : DictRow) (key : Nat) : List Byte :=
  if key = kSET_TABLE then List.replicate 4096 0xC0
  else if key = kTELEM_DEST ∨ key = kEVENT_DEST then destDefault
  else if key = kTRUST_TABLE then zeros 16
  else if row.whole then zeros row.size
  else []

/-- The part of a stall time that still runs (R195). -/
def stallRun (now : Nat) (since : Option Nat) : Nat := match since with
  | some t => now - t
  | none => 0

/-- Entries whose values have their home elsewhere in the machine. -/
def derivedEntry (m : Module) (now key : Nat) : Option (List Byte) :=
  let idx := key / 256
  let r := key % 256 - 1
  if key = kDEVICE_CODE then some [0x48, 0x58, 0x2D, 0x39, 0x36, 0x31, 0x36, 0x2D, 0x4C, 0x36, 0x30]
  else if key = kSERIAL then some serialBytes
  else if key = kMODULE_TIME then some (leBytes 8 now)
  else if key = kCLAIMED then some (leBytes 4 m.claimed)
  else if key = kEVENT_LOG then some (ringBytes 256 32 m.drone.eventLog)
  else if key = kCTX_GEN then some ((List.range 128).map (fun i => BitVec.ofNat 8 (m.cgen (i / 8) (i % 8))))
  else if key = kINPUT_POWER_W then some (leBytes 4 (f32Milli (meanOf m.bellows.measWindow : Nat)))
  else if key = kINPUT_VOLTAGE_V then some (leBytes 4 (f32Milli (m.bellows.inputMv : Nat)))
  else if key = kESTIMATE_W then some (leBytes 4 (f32Milli (meanOf m.bellows.estWindow : Nat)))
  else if key = kBUCKET_J then some (leBytes 4 (f32Ratio m.bellows.bucketNj 1000000000))
  else if idx = kEST_GAIN / 256 then some (leBytes 4 (f32Ratio (gainOf m r).1 1000000))
  else if idx = kEST_OFFSET_W / 256 then some (leBytes 4 (f32Milli (gainOf m r).2))
  else if kRESIDENCY_NS ≤ key ∧ key < kRESIDENCY_NS + 5 then some (leBytes 8 (m.num key + staysRunning m now (key - kRESIDENCY_NS)))
  else if idx = kPEER_STATE / 256 then some (leBytes 1 (peerState m (key - kPEER_STATE)))
  else if key = kTHROTTLE_NOW then some (leBytes 2 (throttleNow m))
  else if idx = kALLOC_MAP / 256 then some (allocBytes (m.rg r).stack)
  else if idx = kUE_LOG / 256 then some (ueLogBytes (m.rg r).stack)
  else if idx = kREPAIR_SOFT / 256 then some (leBytes 2 (m.rg r).stack.soft.length)
  else if key = kALIGNED_NOW then some (leBytes 8 (alignedNow m now))
  else if key = kLOSS_LOG then some (ringBytes 64 256 m.flash.loss)
  else if key = kBIST_LOG then some (ringBytes 32 32 m.test.log)
  else if key = kMEMTEST_LOG then some (ringBytes 64 16 m.test.memLog)
  else if key = kFLASH_WEAR then some (wearBytes m)
  else if key = kIDENTITY_PUBKEY then some (fitB 1793 Config.identityPub)
  else if key = kIDENTITY_CERT then some Config.identityCert
  else if key = kFINGERPRINT then some (fingerprint Config.identityPub)
  else if idx = kOUT_STALL_NS / 256 then some (leBytes 8 (m.num key + stallRun now (m.sq (key - kOUT_STALL_NS)).stallSince))
  else if idx = kIN_WAIT_NS / 256 then some (leBytes 8 (m.num key + stallRun now (m.sq (key - kIN_WAIT_NS)).waitSince))
  else if key = kMAC_BASE then some (fitB 6 Config.macBase)
  else none

/-- The value in force of an entry. -/
def entryValue (m : Module) (now : Nat) (row : DictRow) (key : Nat) : List Byte :=
  match derivedEntry m now key with
  | some v => v
  | none =>
    if row.numeric then leBytes (tySize row.ty) (if row.acc = 4 then row.dflt else m.num key)
    else if m.blob key = [] then blobDefault row key
    else m.blob key

/-- The value staged for an entry. -/
def stagedValue (m : Module) (row : DictRow) (key : Nat) : Option (List Byte) :=
  ((m.grp (groupOfKey row key)).items.find? (fun x => x.dict && x.key == key)).map Staged.bytes

/-- What READ sees: zeros of a WO entry; with STAGEDRD the staged value. -/
def readValue (m : Module) (now : Nat) (row : DictRow) (key : Nat) (staged : Bool) : List Byte :=
  if row.acc = 2 then zeros (if row.numeric then tySize row.ty else row.size)
  else if staged && row.acc == 3 then (stagedValue m row key).getD (entryValue m now row key)
  else entryValue m now row key

/-! ### Saving the configuration (R294–R296) -/

/-- The record of the values in force of every stored entry; blobs at their defaults are not listed. -/
def recordNow (m : Module) : List (Nat × List Byte) :=
  storedRows.flatMap (fun row => (row.keys.map (fun k => (k, rawEntry m row k))).filter (fun x => row.numeric || x.2 != []))

/-- The slot that does not hold the record in use. -/
def otherSlot (m : Module) : Nat := match m.flash.cfg0 with
  | some a => if a.1 = m.num kSTORE_SEQ then 1 else 0
  | none => 0

def dropCfg (slot : Nat) (f : Flash) : Flash := if slot = 0 then { f with cfg0 := none } else { f with cfg1 := none }

/-- A write of STORE; answers the status. -/
def storeWrite (now v : Nat) (m : Module) : Module × Nat :=
  if v = 0 ∨ 2 < v then (m, 2)
  else if m.num kSTORE_STATUS = 1 then (m, 9)
  else if v = 1 then
    let slot := otherSlot m
    if m.worn (wearCfg 0) ∨ m.worn (wearCfg 1) then (m.setNum kSTORE_STATUS 3, 0)
    else
      let m := (eraseArea (wearCfg slot) m).modFlash (dropCfg slot)
      ((m.modFlash (fun f => { f with saving := some (now + 200 * ms, m.num kSTORE_SEQ + 1, recordNow m) })).setNum kSTORE_STATUS 1, 0)
  else if m.worn (wearCfg 0) ∨ m.worn (wearCfg 1) then (m.setNum kSTORE_STATUS 3, 0)
  else ((eraseArea (wearCfg 0) (eraseArea (wearCfg 1) m)).modFlash (fun f => dropCfg 0 (dropCfg 1 f)), 0)

/-- STORE_SAVE (R294): it waits for a commit in progress (R307). -/
def execStoreSave (s : State) : Host.Outcome State Fault Refusal :=
  s.does (fun now m => behindCommits now kSTORE [1] (fun m => answered (storeWrite now 1 m)) m)

/-- STORE_ERASE (R295). -/
def execStoreErase (s : State) : Host.Outcome State Fault Refusal :=
  s.does (fun now m => behindCommits now kSTORE [2] (fun m => answered (storeWrite now 2 m)) m)

/-- A save ends: the slot that took the record holds it, where it could be written. -/
def storeEnds (ok : Bool) (m : Module) : Module :=
  match m.flash.saving with
  | none => m
  | some (_, seq, xs) =>
    let slot := otherSlot m
    let m := m.modFlash (fun f => { f with saving := none })
    if !ok then m.setNum kSTORE_STATUS 3
    else
      ((m.modFlash (fun f => if slot = 0 then { f with cfg0 := some (seq, xs) } else { f with cfg1 := some (seq, xs) })).setNum kSTORE_STATUS 2).setNum kSTORE_SEQ seq

/-- STORE_COMPLETE (R294): the save takes up to 200 ms. -/
def execStoreComplete (ok : Bool) (s : State) : Host.Outcome State Fault Refusal :=
  s.does (fun _ m => storeEnds ok m)

/-! ### Attestation (R429) -/

/-- BODY_DIGEST of a slot, zeros of an empty one. -/
def slotDigest (x : Option FwImage) : List Byte := (x.map (fun y => fitB 32 y.bodyDigest)).getD (zeros 32)

/-- Insert a row into the order of indices and subindices. -/
def insertRow (x : DictRow) : List DictRow → List DictRow
  | [] => [x]
  | y :: ys => if dkey x.idx x.lo ≤ dkey y.idx y.lo then x :: y :: ys else y :: insertRow x ys

/-- Rows in Index:Sub order. -/
def rowsInOrder (rows : List DictRow) : List DictRow := rows.foldr insertRow []

/-- CONFIG_DIGEST: the values in force of every stored entry that STORE saves, in Index:Sub order. -/
def configDigest (m : Module) (now : Nat) : List Byte :=
  shake256 32 ((rowsInOrder storedRows).flatMap (fun row => row.keys.flatMap (fun k => entryValue m now row k)))

/-- TRUST_TABLE in force. -/
def trustBytes (m : Module) : List Byte := if m.blob kTRUST_TABLE = [] then zeros 16 else m.blob kTRUST_TABLE

/-- Bytes 0–255 of a report. -/
def reportBody (m : Module) (now : Nat) (nonce : List Byte) : List Byte :=
  fitB 256 (leBytes 2 1 ++ zeros 2 ++ serialBytes ++ leBytes 2 m.node ++ leBytes 1 (m.num kSITE_ID) ++ leBytes 1 m.mstate
    ++ leBytes 4 (m.num kFW_VERSION) ++ leBytes 1 (m.num kFW_IMAGE) ++ leBytes 1 (m.num kLINE_ENC) ++ leBytes 2 m.flash.svnFuses
    ++ leBytes 4 (m.num kCAL_ID) ++ slotDigest m.flash.image0 ++ slotDigest m.flash.image1 ++ configDigest m now
    ++ shake256 32 (trustBytes m) ++ leBytes 8 now ++ fitB 32 nonce)

/-- Sign a report; a failed engine leaves the one before. Answers the status. -/
def attest (now : Nat) (nonce : List Byte) (m : Module) : Module × Nat :=
  let m := m.modSec (fun x => { x with attest := none })
  let body := reportBody m now nonce
  match engineSign now body m with
  | (m, none) => (m, Config.engineFailStatus % 11 + 1)
  | (m, some sig) => (m.setBlob kATTEST_REPORT (body ++ sigBlock sig), 0)

/-- When the signing that a nonce starts ends: at most 20 ms later. -/
def signedAt (now : Nat) (m : Module) : Nat := now + Config.delayNs m.free % (20 * ms + 1)

/-- ATTEST_NONCE (R429): its answer leaves when the report is signed. -/
def execAttestNonce (nonce : List Byte) (s : State) : Host.Outcome State Fault Refusal :=
  if nonce.length = 32 then s.doesAt (signedAt s.time s.mod) (fun now m => answered (attest now nonce m.useFree))
  else s.does (fun _ m => m.status 2)

/-! ### Direct writes (R281, R292) -/

/-- A written bit of ALLOC_MAP that names the granule under test ends its test, and the granule is wiped (R409). -/
def allocWrite (now r off : Nat) (bs : List Byte) (m : Module) : Module :=
  let was := fun (g : Nat) => (m.rg r).stack.allocBit g
  let under := m.underTest r
  let m' := m.modStack r (fun k => { k with alloc := (List.range bs.length).foldl (fun t i => Tab.set 0 t (off + i) ((bs.getD i 0).toNat)) k.alloc })
  match under with
  | some g =>
    if !was g ∧ (m'.rg r).stack.allocBit g then granuleDone now r g [] (m'.modTest (fun t => { t with touched := Tab.set 0 t.touched r 1 })) else m'
  | none => m'

/-- May TELEM_MAP name an entry (R309)? -/
def mapOk (v : Nat) : Bool :=
  v == 0 || (v % 256 == 0 && match dictRow? (v / 256) with
    | some row => row.numeric && row.acc != 2
    | none => false)

/-- The effect of a direct write of a number, the value having passed its own check; answers the status. -/
def numWrite (now : Nat) (src : Source) (key v : Nat) (m : Module) : Module × Nat :=
  let idx := key / 256
  let r := key % 256 - 1
  if key = kCOMMIT then commitGroups now src v m
  else if key = kDISCARD then discardGroups now src v m
  else if key = kLOCK then lockGroups v m
  else if key = kSTORE then storeWrite now v m
  else if key = kRUN_ENTER then runEnter now v m
  else if key = kRESET_REGION then (forL (bitList v 16) m (fun r m => askRegion now r m), 0)
  else if key = kRESET_DIE then (forL (bitList v 4) m (fun d m => askDie now d m), 0)
  else if key = kRESET_MODULE then
    (if v = 1 then (if m.mstate = 3 then (m, 8) else (askWarm now (Config.startObs m.free) m.useFree, 0))
     else if v = 2 then ((m.modEnv (fun e => { e with resetAsked := some (2, Config.startObs m.free) })).useFree, 0)
     else (m, 2))
  else if key = kALERT_ACK then alertAck v m
  else if idx = kREGION_DISABLE / 256 ∧ key < kCHANTER_DISABLE then (regionDisable now r v m, 0)
  else if key = kCHANTER_DISABLE then (chanterDisable now v m, 0)
  else if idx = kCTX_DISABLE / 256 then (ctxDisable now r v m, 0)
  else if idx = kPORT_DISABLE / 256 then (portDisable now r v m, 0)
  else if key = kFLAGS_CLEAR then (flagsClear v m, 0)
  else if idx = kTIER_FLUSH / 256 then tierFlush now r v m
  else if key = kJOIN then joinWrite now v m
  else if key = kCUT_AT then setCutAt v m
  else if key = kRESTORE_GO then restoreGo now v m
  else if key = kREKEY then (rekey now v m, 0)
  else if idx = kTELEM_MAP / 256 ∧ !mapOk v then (m, 2)
  else
    let m := m.setNum key v
    (if (key = kFIELD_PLCA_ID ∨ key = kFIELD_PLCA_COUNT) ∧ m.drone.plcaId = 0xFF then
      m.modDrone (fun d => { d with plcaId := m.num kFIELD_PLCA_ID, plcaCount := m.num kFIELD_PLCA_COUNT })
     else m, 0)

/-- A request value of BIST_REQ (R411). -/
def bistWrite (now : Nat) (b : List Byte) (m : Module) : Module × Nat :=
  if b.length ≠ 16 then (m, 2) else bistRequest now (leAt b 0 1) (leAt b 1 1) (leAt b 2 2) (leAt b 4 4) m

/-- Put a piece into a value (R303): END sets the length. -/
def putPiece (old : List Byte) (off : Nat) (bs : List Byte) (ends : Bool) : List Byte :=
  old.take off ++ bs ++ (if ends then [] else old.drop (off + bs.length))

/-! ### Classes (R381, R382) -/

/-- Entries of the start-up class. -/
def startUpKey (m : Module) (key : Nat) : Bool :=
  let idx := key / 256
  key == kMODULE_ROLE || key == kHOST_NODE || idx == kEDGE_ROLE / 256 || key == kNODE_ID || key == kSET_TABLE || key == kSITE_ID
    || key == kSITE_PREFIX || key == kKG_UDP_PORT || key == kEDGE_MTU || key == kEDGE_VLAN || key == kEDGE_GW_MAC || key == kEXCH_POLICY
    || key == kROUND_STEPS || key == kHOME_TABLE || idx == kSITE_LAYOUT / 256 || key == kLINE_ENC || key == kCOLL_BASE || key == kCAL_IMAGE
    || (decide (1 ≤ m.num kEXCH_POLICY)
        && (idx == kXBUF_BASE / 256 || idx == kXBUF_BYTES / 256 || idx == kSHARD_CFG / 256 || (idx == kXCH_CFG / 256 && key != kXCH_ERROR)))

/-! ### One request (R301–R303, R312, R313) -/

/-- What becomes of a request: answered with a status, data and an entry's key; it waits for a region (1 + r), for a signature (100) or for a commit (101);
or its answer is held elsewhere. -/
inductive Reply where
  | done (st : Nat) (data : List Byte) (key : Nat)
  | park (wait : Nat)
  | later
  deriving DecidableEq, Repr

/-- The data that one message carries at most (R301). -/
def msgLimit (src : Source) : Nat := match src with
  | .fieldPort => 1024
  | .requester _ _ => 4072

/-- Data of a READ: from OFFSET, at most LEN bytes and one message. -/
def readPiece (src : Source) (x : DictMsg) (fixed : Bool) (v : List Byte) (key : Nat) : Reply :=
  if fixed && (x.len != v.length || x.offset != 0) then .done 2 [] key
  else .done 0 ((v.drop x.offset).take (min x.len (msgLimit src))) key

/-- The region whose domain holds an entry, when it is one of groups 0–15. -/
def entryRegion (row : DictRow) (key : Nat) : Option Nat := if groupOfKey row key < 16 then some (groupOfKey row key) else none

/-- Is the entry's region or die in reset? -/
def entryInReset (m : Module) (row : DictRow) (key : Nat) : Bool := decide (groupOfKey row key < 20) && groupInReset m (groupOfKey row key)

/-- Does the entry's region have to be woken? -/
def entryAsleep (m : Module) (row : DictRow) (key : Nat) : Option Nat := (entryRegion row key).filter (fun r => (m.rg r).power.pllOff)

def readReq (now : Nat) (src : Source) (x : DictMsg) (key : Nat) (m : Module) : Module × Reply :=
  match dictRow? key with
  | none => match (if 0xF00000 ≤ key then Config.vendorEntry key else none) with
    | some v => (m, readPiece src x false v key)
    | none => (m, .done 2 [] key)
  | some row =>
    if entryInReset m row key then (m, .done 9 [] key)
    else match entryAsleep m row key with
      | some r => (wakePll now r m, .park (1 + r))
      | none => (m, readPiece src x row.numeric (readValue m now row key (x.flags.testBit 0)) key)

/-- A STAGED write: the value's own check (R292), the start-up class in CONFIG alone, then the group's staging. END sets the staged length
of every BLOB (R303); the commit refuses a fixed-size one that is short. -/
def stagedWrite (now : Nat) (src : Source) (x : DictMsg) (row : DictRow) (key : Nat) (m : Module) : Module × Nat :=
  let old := (stagedValue m row key).getD (entryValue m now row key)
  let new := cleanValue key (if row.numeric then x.data else putPiece old x.offset x.data (x.flags.testBit 1))
  if (if row.numeric then x.offset != 0 || !valueOk row x.data else decide (old.length < x.offset) || decide (row.size < new.length)) then (m, 2)
  else if startUpKey m key ∧ m.mstate ≠ 1 then (m, 8)
  else stage now src (groupOfKey row key) [{ dict := true, key := key, width := 0, value := 0, bytes := new }] m

/-- A direct write of a blob. -/
def blobWrite (now : Nat) (x : DictMsg) (row : DictRow) (key : Nat) (m : Module) : Module × Nat :=
  let old := entryValue m now row key
  if key = kBIST_REQ then (if x.offset ≠ 0 then (m, 2) else bistWrite now x.data m)
  else if old.length < x.offset ∨ row.size < x.offset + x.data.length then (m, 2)
  else if key / 256 = kALLOC_MAP / 256 then (allocWrite now (key % 256 - 1) x.offset x.data m, 0)
  else
    let new := putPiece old x.offset x.data (x.flags.testBit 1 && !row.whole)
    if valueOk row new then (m.setBlob key new, 0) else (m, 2)

/-- Refusals that come before an entry's own rules: FIELD_RO, vendor entries, security entries from the field port (R312, R313). -/
def pathRefuses (m : Module) (src : Source) (key : Nat) : Bool :=
  decide (0xF00000 ≤ key) || (src == .fieldPort
    && (m.num kFIELD_RO == 1 || (decide (0x900000 ≤ key) && decide (key < 0xA00000) && key != kATTEST_NONCE)))

/-- May a node write KEX_MAILBOX: the link's peer, or a node with FLAGS[0] (R443)? -/
def mayShake (m : Module) (via : Via) (node : Nat) : Bool :=
  (match via with
    | .port p => decide (node = peerNode m (portSlot p))
    | _ => false) || m.trust.any (fun t => t.flags.testBit 0 && t.node == node)

/-- A handshake message for KEX_MAILBOX comes in-band, on a frame; from any other node it is refused (log entry 187). -/
def kexServe (now : Nat) (x : DictMsg) (frame : Option (Frame × Via)) (m : Module) : Module × Reply :=
  match frame with
  | none => (m, .done 2 [] kKEX_MAILBOX)
  | some (f, via) => match slotOf via f.srcNode with
    | none => (m, .done 2 [] kKEX_MAILBOX)
    | some slot => if !mayShake m via f.srcNode then (m, .done 8 [] kKEX_MAILBOX) else match takeKex now slot (kexOf x.data) frame m with
      | (m, none) => (m, .later)
      | (m, some st) => (m, .done st [] kKEX_MAILBOX)

/-- Writes that wait for a commit in progress: STORE (R307), RUN_ENTER (R380), reset requests (R399). -/
def waitsCommit (key : Nat) : Bool := key == kSTORE || key == kRUN_ENTER || key == kRESET_REGION || key == kRESET_DIE || key == kRESET_MODULE

/-- The write numbered n waits: a commit for a region that it selects (1 + r), and all these for a commit that came before (101) (R284, R305). -/
def commitWait (m : Module) (n key v : Nat) : Option Nat :=
  let behind := if commitBefore m n then some 101 else none
  if key = kCOMMIT then (match asleepGroups m v with
    | r :: _ => some (1 + r)
    | [] => behind)
  else if waitsCommit key then behind
  else none

/-- A WRITE; n is its number among the commits in progress. -/
def writeReq (now : Nat) (src : Source) (n : Nat) (x : DictMsg) (frame : Option (Frame × Via)) (key : Nat) (m : Module) : Module × Reply :=
  let fin := fun (p : Module × Nat) => (p.1, Reply.done p.2 [] key)
  if pathRefuses m src key then (m, .done 8 [] key)
  else match dictRow? key with
    | none => (m, .done 2 [] key)
    | some row =>
      if row.acc = 0 ∨ row.acc = 4 ∨ x.len ≠ x.data.length ∨ msgLimit src < x.data.length then (m, .done 2 [] key)
      else if entryInReset m row key then (m, .done 9 [] key)
      else match entryAsleep m row key with
        | some r => (wakePll now r m, .park (1 + r))
        | none =>
          if row.acc = 3 then fin (stagedWrite now src x row key m)
          else if key = kKEX_MAILBOX then kexServe now x frame m
          else if key = kATTEST_NONCE then
            (if x.data.length ≠ 32 ∨ x.offset ≠ 0 then (m, .done 2 [] key)
             else (((m.modSec (fun y => { y with attest := some (x.data, signedAt now m) })).useFree), .park 100))
          else if row.numeric then
            (if x.offset ≠ 0 ∨ !valueOk row x.data then (m, .done 2 [] key)
             else match commitWait m n key (leNat x.data) with
               | some w => (if key = kCOMMIT then forL (asleepGroups m (leNat x.data)) m (fun r m => wakePll now r m) else m, .park w)
               | none => fin (numWrite now src key (leNat x.data) m))
          else fin (blobWrite now x row key m)

/-- The first entry above a pair, in Index:Sub order (R302). -/
def nextKey (key : Nat) : Option Nat :=
  let best := fun (a : Option Nat) (k : Nat) => match a with
    | some b => some (min b k)
    | none => some k
  dictRows.foldl (fun a row =>
    let lo := dkey row.idx row.lo
    let hi := dkey row.idx row.hi
    if key < lo then best a lo else if key < hi then best a (key + 1) else a) none

/-- The first vendor entry from a key, among n. -/
def vendorFrom : Nat → Nat → Option Nat
  | 0, _ => none
  | n + 1, k => if (Config.vendorEntry k).isSome then some k else vendorFrom n (k + 1)

/-- The entry that INFO answers for. -/
def infoKey (x : DictMsg) (key : Nat) : Option Nat :=
  if x.flags.testBit 2 then
    (match nextKey key with
     | some k => some k
     | none => let lo := max 0xF00000 (key + 1); vendorFrom (0x1000000 - lo) lo)
  else some key

def infoReq (m : Module) (now : Nat) (x : DictMsg) (key : Nat) : Reply :=
  match infoKey x key with
  | none => .done 2 [] key
  | some k => match dictRow? k with
    | some row =>
      if entryInReset m row k then .done 9 [] k
      else
      let cur := (readValue m now row k false).length
      .done 0 (leBytes 1 row.ty ++ leBytes 1 row.acc ++ leBytes 1 row.pers ++ leBytes 1 (groupOfKey row k)
        ++ leBytes 4 cur ++ leBytes 4 (if row.numeric then tySize row.ty else row.size) ++ zeros 4) k
    | none => match (if 0xF00000 ≤ k then Config.vendorEntry k else none) with
      | some v => .done 0 (leBytes 1 10 ++ leBytes 1 0 ++ leBytes 1 0 ++ leBytes 1 0xFF ++ leBytes 4 v.length ++ leBytes 4 v.length ++ zeros 4) k
      | none => .done 2 [] key

/-- Carry a request out. -/
def serveOne (now : Nat) (q : DictReq) (m : Module) : Module × Reply :=
  let key := dkey q.msg.index q.msg.sub
  match q.msg.op with
  | 1 => readReq now q.src q.msg key m
  | 2 => writeReq now q.src (if q.wait = 0 then m.nextHeld else q.order) q.msg q.frame key m
  | 3 => (m, infoReq m now q.msg key)
  | _ => (m, .done 2 [] key)

/-! ### Answers and queues (R304, R305) -/

/-- Send a response: to the field port's outbox with the record of a WRITE, in the DICT response, to the bridge's own ring, or to whoever
commanded it. -/
def reply (now : Nat) (q : DictReq) (st : Nat) (data : List Byte) (key : Nat) (m : Module) : Module :=
  let a := { dictAnswer now q.msg st data with index := key / 256, sub := key % 256 }
  let m := m.status st
  match q.frame, q.ring with
  | some (f, via), _ => answerVia now f via st (dictBytes a) m
  | none, some i => mgmtResponse now i st (dictBytes a) m
  | none, none =>
    if q.addr = [] then m.emit (.dictAnswer q.src a)
    else
      m.modDrone (fun d =>
        let recs := if q.msg.op = 2 then d.writeRecs ++ [(q.addr, q.port, q.msg, a, now)] else d.writeRecs
        { d with outbox := d.outbox ++ [(q.addr, q.port, a)], writeRecs := recs.drop (recs.length - 16) })

/-- A queued request that is answered more than 200 µs after it arrived is counted, unless it was parked (R306). -/
def countLate (now : Nat) (q : DictReq) (m : Module) : Module :=
  if q.wait ≠ 0 ∨ now ≤ q.arrived + 200 * us then m
  else if q.frame.isSome ∨ q.ring.isSome then m.bump kDICT_LATE 1
  else if q.addr ≠ [] then m.bump kFIELD_LATE 1
  else m

/-- Serve a request that has left its queue: answered, or parked. -/
def serveTaken (now : Nat) (q : DictReq) (m : Module) : Module :=
  match serveOne now q m with
  | (m, .done st data key) => reply now q st data key (countLate now q m)
  | (m, .park w) => park q w m
  | (m, .later) => m

/-- At most 8 requests are parked: one that would be a ninth waits in its queue, and holds back those behind it alone (R305). -/
def ninth (m : Module) (now : Nat) (q : DictReq) : Bool :=
  decide (8 ≤ m.drone.parked.length) && (match (serveOne now q m).2 with
    | .park _ => true
    | _ => false)

/-- The request at the head of a queue, where Drone can take it. -/
def freeHead (m : Module) (now : Nat) (q : List DictReq) : Option DictReq := q.head?.filter (fun x => !ninth m now x)

/-- The queue that Drone serves next: each in turn; none waits. True: in-band. -/
def nextBand (m : Module) (now : Nat) : Option Bool :=
  match freeHead m now m.drone.fieldQ, freeHead m now m.drone.bandQ with
  | none, none => none
  | none, some _ => some true
  | some _, none => some false
  | some _, some _ => some m.drone.bandTurn

/-- The request that is next. -/
def nextRequest (m : Module) (now : Nat) : Option DictReq := match nextBand m now with
  | none => none
  | some true => m.drone.bandQ.head?
  | some false => m.drone.fieldQ.head?

def popRequest (now : Nat) (m : Module) : Module := m.modDrone (fun d => match nextBand m now with
  | none => d
  | some true => { d with bandQ := d.bandQ.drop 1, bandTurn := false }
  | some false => { d with fieldQ := d.fieldQ.drop 1, bandTurn := true })

/-- A request of an operation is served: the next of the queues where it is that one, none while it waits its turn there, and one that no
queue holds at once. -/
def serveDict (now op : Nat) (src : Source) (x : DictMsg) (m : Module) : Module :=
  let x := { x with op := op }
  let same := fun (q : DictReq) => q.src == src && q.msg == x
  match (nextRequest m now).filter same with
  | some q => serveTaken now q (popRequest now m)
  | none =>
    if (m.drone.fieldQ ++ m.drone.bandQ).any same then m
    else
      let q : DictReq := { src := src, msg := x, addr := [], port := 0, arrived := now }
      if ninth m now q then m.status 9 else serveTaken now q m

/-- A module cold reset that a dictionary write has asked for begins once its response has left (R398). -/
def coldDue (m : Module) : Option StartObs := if m.env.droneUp && !m.bellows.failing && decide (m.mstate ≠ 0) then heldCold m else none

/-- A command that may carry such a write. -/
def State.serves (s : State) (d : Nat) (f : Nat → Module → Module) : Host.Outcome State Fault Refusal :=
  if s.mod.env.droneUp then
    let now := max s.time d
    let m := f now { s.mod with out := [] }
    match coldDue m with
    | none => .next { s with time := now, mod := m }
    | some o => .next { s with time := bootTime, mod := boot 0 now o (coldOff now 0 now m) }
  else .next { s with mod := { s.mod with out := [] } }

/-- DICT_READ (R302). -/
def execDictRead (src : Source) (m : DictMsg) (s : State) : Host.Outcome State Fault Refusal := s.serves 0 (fun now x => serveDict now 1 src m x)

/-- DICT_WRITE (R292, R302, R303). -/
def execDictWrite (src : Source) (m : DictMsg) (s : State) : Host.Outcome State Fault Refusal := s.serves 0 (fun now x => serveDict now 2 src m x)

/-- DICT_INFO (R302). -/
def execDictInfo (src : Source) (m : DictMsg) (s : State) : Host.Outcome State Fault Refusal := s.serves 0 (fun now x => serveDict now 3 src m x)

/-- A DICT frame (R312): it enters the in-band queue, or finds it full. -/
def dictFrame (now : Nat) (f : Frame) (via : Via) (m : Module) : Module :=
  let m := takeFrame via f m
  let x := dictOfBytes f.body
  if badRequest opDICT f then m.bump kBAD_FRAME 1
  else if addrNode f.addr ≠ m.node then m.bump kMISROUTED 1
  else if x.ver ≠ 1 ∨ x.kind = 0 ∨ 4 < x.kind then m.bump kFIELD_BAD 1
  else if x.kind ≠ 1 then m
  else
    let q : DictReq := { src := .requester f.srcNode f.srcRegion, msg := x, addr := [], port := 0, frame := some (f, via), arrived := now }
    if 4 ≤ m.drone.bandQ.length then answerVia now f via 7 (dictBytes (dictAnswer now x 7 [])) m
    else m.modDrone (fun d => { d with bandQ := d.bandQ ++ [q] })

/-- DICT (R312). -/
def execDict (f : Frame) (via : Via) (s : State) : Host.Outcome State Fault Refusal := s.does (fun now m => dictFrame now f via m)

/-- When the wait of a parked request ends; none while it goes on. -/
def parkedUntil (m : Module) (q : DictReq) : Option Nat :=
  if q.wait = 100 then some ((m.security.attest.map (·.2)).getD 0)
  else if q.wait = 101 then (if commitBefore m q.order then none else some 0)
  else if (m.rg (q.wait - 1)).power.pllOff then none else some 0

def parkedReq (m : Module) (k : Nat) : Option DictReq := m.drone.parked.find? (fun q => q.id == k)

/-- A parked request goes on. -/
def resumeParked (now k : Nat) (m : Module) : Module :=
  match parkedReq m k with
  | none => m
  | some q =>
    let m := m.modDrone (fun d => { d with parked := d.parked.filter (fun x => x.id ≠ k) })
    if q.wait = 100 then let (m, st) := attest now q.msg.data m; reply now q st [] kATTEST_NONCE m
    else serveTaken now q m

/-- PARKED_REQUEST_RESUME (R305). -/
def execParkedRequestResume (k : Nat) (s : State) : Host.Outcome State Fault Refusal :=
  let t := (parkedReq s.mod k).bind (parkedUntil s.mod)
  s.serves (t.getD 0) (fun now m => if t.isSome then resumeParked now k m else m)

end Sys2Proof.Machine
end

