-- ==== Sys2Proof/Machine/FieldPort.lean ====
section
/-! DEFINITION. The field port: requests, telemetry, transmit opportunities, its addresses (R299–R301, R304, R305, R308–R310). -/

namespace Sys2Proof.Machine

/-! ### Requests -/

/-- The record of a WRITE from the same requester with the same SEQ and entry, within 100 ms (R304). -/
def recordOf (m : Module) (now : Nat) (p : FieldPkt) (x : DictMsg) : Option DictMsg :=
  (m.drone.writeRecs.find? (fun r => r.1 == p.srcAddr && r.2.1 == p.srcPort && r.2.2.1.seq == x.seq && r.2.2.1.index == x.index
    && r.2.2.1.sub == x.sub && decide (now < r.2.2.2.2 + 100 * ms))).map (fun r => r.2.2.2.1)

/-- A packet on the field port: dropped, answered from a record, or queued (R300, R301, R304, R305). -/
def fieldReceive (now : Nat) (p : FieldPkt) (m : Module) : Module :=
  let x := dictOfBytes p.payload
  if p.extHeaders ∨ !p.udpOk ∨ p.dstPort ≠ fieldPort ∨ p.payload.length < 24 ∨ x.ver ≠ 1 ∨ x.kind = 0 ∨ 4 < x.kind then m.bump kFIELD_BAD 1
  else if x.kind ≠ 1 then m
  else
    let m := m.bump kFIELD_RX 1
    match (if x.op = 2 then recordOf m now p x else none) with
    | some a => (m.bump kFIELD_DUP 1).modDrone (fun d => { d with outbox := d.outbox ++ [(p.srcAddr, p.srcPort, a)] })
    | none =>
      if 4 ≤ m.drone.fieldQ.length then m.bump kFIELD_DROP 1
      else m.modDrone (fun d => { d with fieldQ := d.fieldQ ++ [{ src := .fieldPort, msg := x, addr := p.srcAddr, port := p.srcPort, arrived := now }] })

/-- FIELD_REQUEST_RECEIVE (R305). -/
def execFieldRequestReceive (pkt : FieldPkt) (s : State) : Host.Outcome State Fault Refusal := s.does (fun now m => fieldReceive now pkt m)

/-! ### Telemetry (R308–R310) -/

def tTELEM : Nat := 3

/-- Regions that are disabled or in reset. -/
def downMask (m : Module) : Nat := maskOf ((List.range 16).filter (fun r => m.inReset r || decide (2 ≤ m.fstate r) || m.env.regionsDown.testBit r))

/-- The mapped entries up to the first subentry that holds 0. -/
def telemMap (m : Module) : List Nat := ((List.range 32).map (fun i => m.num (kTELEM_MAP + i))).takeWhile (fun v => v != 0)

/-- A mapped entry's value; zeros, and false, where its domain is held or in reset (R309). -/
def mapped (m : Module) (now v : Nat) : List Byte × Bool :=
  let key := v / 256
  match dictRow? key with
  | none => ([], true)
  | some row =>
    if entryInReset m row key ∨ (entryAsleep m row key).isSome then (zeros (tySize row.ty), false) else (readValue m now row key false, true)

/-- The data of a telemetry message. -/
def telemData (m : Module) (now : Nat) : List Byte :=
  let xs := (telemMap m).map (mapped m now)
  let power : Nat := if m.drone.powerCount = 0 then 0 else m.drone.powerSum / m.drone.powerCount
  let top := fun (f : Power → Int) => f32Milli (hottest ((List.range 16).map (fun r => f (m.rg r).power)))
  leBytes 4 m.drone.telemSeq ++ leBytes 4 (m.num kDRONE_HEARTBEAT) ++ leBytes 4 (f32Milli (power : Nat)) ++ leBytes 2 (throttleNow m)
    ++ leBytes 1 (m.num kFLAGS_OR) ++ leBytes 1 (if xs.all (·.2) then 0 else 1) ++ leBytes 2 m.node ++ leBytes 1 (m.num kSITE_ID) ++ zeros 1
    ++ leBytes 2 (downMask m) ++ zeros 2 ++ leBytes 4 (m.num kEVENT_SEQ) ++ leBytes 4 (top Power.logicMilliC) ++ leBytes 4 (top Power.dramMilliC)
    ++ zeros 12 ++ xs.flatMap (·.1)

/-- A tick: FLAGS_OR is refreshed (R65), and a message that still waits is replaced. -/
def telemTick (now : Nat) (m : Module) : Module :=
  let m := refreshFlags m
  let data := telemData m now
  let dst := m.dest kTELEM_DEST
  let msg : DictMsg := { ver := 1, kind := 3, op := 0, flags := 0, seq := m.drone.telemSeq % 65536, index := 0, sub := 0, status := 0, len := data.length, offset := 0, time := now, data := data }
  let m := if m.drone.telem.isSome then m.bump kTELEM_SKIPPED 1 else m
  (m.setTimer tTELEM now).modDrone (fun d =>
    { d with telem := some (dst.take 16, leAt dst 16 2, msg), telemSeq := (d.telemSeq + 1) % 2 ^ 32, powerSum := 0, powerCount := 0 })

/-- The next tick: TELEM_PERIOD_MS after the last, on the 1 ms grid of module time. -/
def telemAt (s : State) : Nat := max (s.mod.timer tTELEM + s.mod.num kTELEM_PERIOD_MS * ms) (ceilDiv s.time ms * ms)

/-- TELEM_TICK (R308). -/
def execTelemTick (s : State) : Host.Outcome State Fault Refusal :=
  s.doesWhen (decide (s.mod.num kTELEM_PERIOD_MS ≠ 0)) (telemAt s) telemTick

/-! ### The segment (R299, R300) -/

/-- One waiting frame leaves: an answer of the IP layer (DESIGN CHOICE, log entry 174), else responses and events in the order in which they
were ready, else telemetry. -/
def transmitOne (m : Module) : Module :=
  match m.drone.ipOut, m.drone.outbox with
  | y :: rest, _ => (m.modDrone (fun d => { d with ipOut := rest })).emit y
  | [], (a, p, x) :: rest => (m.modDrone (fun d => { d with outbox := rest })).emit (.field a p x)
  | [], [] => match m.drone.telem with
    | some (a, p, x) => ((m.bump kTELEM_SENT 1).modDrone (fun d => { d with telem := none })).emit (.field a p x)
    | none => m

/-- TRANSMIT_OPPORTUNITY (R299). -/
def execTransmitOpportunity (s : State) : Host.Outcome State Fault Refusal := s.does (fun _ m => transmitOne m)

/-- PLCA_BEACON (R299): new settings take effect; the coordinator sends the beacon. -/
def execPlcaBeacon (s : State) : Host.Outcome State Fault Refusal :=
  s.does (fun _ m =>
    let m := m.modDrone (fun d => { d with plcaId := m.num kFIELD_PLCA_ID, plcaCount := m.num kFIELD_PLCA_COUNT })
    if m.drone.plcaId = 0 then m.emit (.beacon m.drone.plcaCount) else m)

/-- The MAC address of the field interface: MAC_BASE + 4 (R428). -/
def fieldMac : List Byte := beBytes 6 ((fitB 6 Config.macBase).foldl (fun a b => 256 * a + b.toNat) 0 + 4)

/-- The modified EUI-64 of the field interface (R300). -/
def fieldIid : List Byte :=
  [(fieldMac.getD 0 0) ^^^ 2] ++ (fieldMac.drop 1).take 2 ++ [0xFF, 0xFE] ++ fieldMac.drop 3

/-- The port's own addresses. -/
def fieldAddrs (m : Module) : List (List Byte) :=
  let prefix_ := fitB 8 (m.blob kFIELD_PREFIX)
  ([0xFE, 0x80, 0, 0, 0, 0, 0, 0] ++ fieldIid) :: (if prefix_.all (fun b => b == 0) then [] else [prefix_ ++ fieldIid])

/-- An answer of the IP layer leaves at once while PLCA is off, and else at a transmit opportunity (R299). -/
def fieldSend (x : Emit) (m : Module) : Module :=
  if m.drone.plcaId = 0xFF then m.emit x else m.modDrone (fun d => { d with ipOut := d.ipOut ++ [x] })

/-- FIELD_NEIGHBOR_SOLICITATION (R300). -/
def execFieldNeighborSolicitation (src target : List Byte) (s : State) : Host.Outcome State Fault Refusal :=
  s.does (fun _ m => if (fieldAddrs m).contains target then fieldSend (.neighbor 4 [] src target) m else m)

/-- ECHO_REQUEST (R254, R300): an edge interface, or the field port as interface 4 (DESIGN CHOICE, log entry 156), answers for its own
addresses. -/
def execEchoRequest (e : Nat) (src dst data : List Byte) (s : State) : Host.Outcome State Fault Refusal :=
  guarded (okE e || e == 4) (s.does (fun _ m =>
    if e = 4 then (if (fieldAddrs m).contains dst then fieldSend (.echo 4 [] src data) m else m)
    else if m.edgeUp e ∧ ownEdgeAddr m dst then m.emit (.echo e (fitB 6 (m.blob kEDGE_GW_MAC)) src data) else m))

end Sys2Proof.Machine
end

