-- ==== Sys2Proof/Machine/Hardware.lean ====
section
/-! DEFINITION. The debug connector (R455, R456), flash programming (R419, R425, R427, R454), timing frames (R440). -/

namespace Sys2Proof.Machine

/-! ### The TAP (R455, R456) -/

/-- Shift bits through the bypass register. -/
def bypassShift (bits : List Bool) (m : Module) : Module :=
  ({ m with tap := { m.tap with ir := 0xFF, drive := false, bypass := bits.getLastD m.tap.bypass } }).emit (.tdo ((m.tap.bypass :: bits).take bits.length))

/-- ALERT_N is at high impedance, and pulled up, while RESET_N is low (R453). -/
def alertLevel (m : Module) : Bool := m.env.alertN || !m.env.resetN

/-- The levels of the pins of groups C, D and E, one cell each in the order of R449: the clocks and the field pair are free values. -/
def pinLevels (m : Module) : List Bool :=
  (List.range 12).map (fun i => (Config.freeByte m.free i).getLsbD 0) ++ [m.env.resetN, alertLevel m, m.env.pwrgood, false]

/-- ALERT_N and PWRGOOD as the carrier sees them: EXTEST drives them from the boundary register. -/
def alertPin (m : Module) : Bool := if m.tap.drive then m.tap.boundary.getD 13 true else alertLevel m
def pwrgoodPin (m : Module) : Bool := if m.tap.drive then m.tap.boundary.getD 14 false else m.env.pwrgood

/-- The boundary register takes the bits shifted in, and gives what it captured. -/
def boundaryShift (ir : Nat) (drive : Bool) (bits : List Bool) (m : Module) : Module :=
  let all := bits ++ pinLevels m
  ({ m.useFree with tap := { m.tap with ir := ir, drive := drive, boundary := (all.take 16) } }).emit (.tdo ((pinLevels m ++ bits).take bits.length))

/-- BYPASS (R456). -/
def execBypass (tdi : Bool) (s : State) : Host.Outcome State Fault Refusal := s.always (fun _ m => bypassShift [tdi] m)

/-- IDCODE (R456): 0x0961_6A2D, least significant bit first. -/
def execIdcode (s : State) : Host.Outcome State Fault Refusal :=
  s.always (fun _ m => ({ m with tap := { m.tap with ir := 1, drive := false } }).emit (.tdo ((List.range 32).map (fun i => (0x09616A2D : Nat).testBit i))))

/-- SAMPLE/PRELOAD (R456). -/
def execSamplePreload (shift : List Bool) (s : State) : Host.Outcome State Fault Refusal := s.always (fun _ m => boundaryShift 2 false shift m)

/-- EXTEST (R456): while RESET_N is low; otherwise as BYPASS. -/
def execExtest (shift : List Bool) (s : State) : Host.Outcome State Fault Refusal :=
  s.always (fun _ m => if m.env.resetN then bypassShift shift m else boundaryShift 0 true shift m)

/-- IMAGE_LOAD (R456): into the boot ROM's buffer while it waits; otherwise as BYPASS. -/
def execImageLoad (img : FwImage) (s : State) : Host.Outcome State Fault Refusal :=
  s.always (fun _ m =>
    if m.env.bootWait then { m with tap := { m.tap with ir := 0x20, drive := false }, flash := { m.flash with recovery := some img } }
    else { m with tap := { m.tap with ir := 0xFF, drive := false } })

/-- The recovery image in the boot ROM's buffer, when it passes. -/
def recovery? (m : Module) : Option FwImage := if m.env.bootWait then m.flash.recovery.filter (imagePasses m) else none

/-- RECOVERY_IMAGE_CHECK (R425): an image that passes goes into slot 0, and the module starts cold. -/
def execRecoveryImageCheck (obs : StartObs) (s : State) : Host.Outcome State Fault Refusal :=
  s.reboots (recovery? s.mod).isSome 0
    (fun now m => boot 0 now obs (coldOff now 0 now (eraseArea (wearImage 0) (m.modFlash (fun f => { f with image0 := recovery? m })))))
    (fun _ m => if m.env.bootWait then m.modFlash (fun f => { f with recovery := none }) else m)

/-! ### Flash programming -/

/-- The calibration set is programmed; a low of RESET_N that waited takes effect (R419, R454). -/
def calDone (now : Nat) (m : Module) : Module :=
  match m.flash.calBusy with
  | none => m
  | some (_, b) =>
    let m := m.modFlash (fun f => { f with cal := some b, calBusy := none })
    if m.env.resetPending ∧ m.env.lossUntil.isNone then coldOff now 1 now (m.modEnv (fun e => { e with resetPending := false, trip := false })) else m

/-- CAL_PROGRAM_DONE (R419): up to 4 s after the commit. -/
def execCalProgramDone (s : State) : Host.Outcome State Fault Refusal :=
  s.doesWhen s.mod.flash.calBusy.isSome ((s.mod.flash.calBusy.map (·.1)).getD 0) calDone

/-- The idle slot holds the staged image (R427). -/
def fwDone (m : Module) : Module :=
  match m.flash.fwBusy with
  | none => m
  | some (_, slot, x) =>
    (m.modFlash (fun f => { (if slot = 0 then { f with image0 := some x } else { f with image1 := some x }) with fwBusy := none })).setNum kFW_UPDATE_STATUS 2

/-- FW_PROGRAM_DONE (R427): up to 30 s after the commit. -/
def execFwProgramDone (s : State) : Host.Outcome State Fault Refusal :=
  s.doesWhen s.mod.flash.fwBusy.isSome ((s.mod.flash.fwBusy.map (·.1)).getD 0) (fun _ m => fwDone m)

/-! ### Timing frames (R440) -/

/-- A TIMING frame's trailer and the TX_TIME that its body gives for the frame before it. -/
def trailerOf (f : Frame) : Nat := leAt f.mac 0 8
def priorTx (f : Frame) : Nat := leAt f.body (f.body.length - 8) 8

/-- The frame before is confirmed, and with it the exchange that waits, where both are TIME_REF's; or the exchange is discarded. A request
for an answer has one. -/
def timingTaken (now : Nat) (f : Frame) (m : Module) : Module :=
  let ref := f.srcNode == m.roundNum kTIME_REF
  let m := match Tab.find? m.security.timingSeen f.srcNode with
    | some old =>
      if 1 < (if leNat old ≤ priorTx f then priorTx f - leNat old else leNat old - priorTx f) then
        (m.bump kTIMING_MISMATCH 1).modCh (fun c => if ref then { c with exchange := none } else c)
      else if ref then confirmExchange now m else m
    | none => m
  let m := m.modSec (fun x => { x with timingSeen := Tab.put x.timingSeen f.srcNode (leBytes 8 (trailerOf f)) })
  if m.inRun ∧ Config.ptpAsks (f.body.take (f.body.length - 8)) = true then sendTiming now f.srcNode m else m

/-- TIMING (R440): it has no response (R234). -/
def execTiming (f : Frame) (via : Via) (s : State) : Host.Outcome State Fault Refusal :=
  s.does (fun now m =>
    let m := takeFrame via f m
    if badRequest opTIMING f ∨ f.body.length < 8 ∨ f.mac.length ≠ 16 then m.bump kBAD_FRAME 1
    else if addrNode f.addr ≠ m.node then m.bump kMISROUTED 1
    else timingTaken now f m)

end Sys2Proof.Machine
end

