-- ==== Sys2Proof/Machine/HostAttach.lean ====
section
/-! DEFINITION. The host at the bridge: its frames and their records (R260–R264), and management rings (R275). -/

namespace Sys2Proof.Machine

/-! ### Frames of the host (R262–R264) -/

/-- The operations that a host-role interface accepts. -/
def hostOp (op : Nat) : Bool := op == opREAD || op == opWRITE || op == opREGRD || op == opREGWR || op == opDICT

/-- The recorded status of a repeated request. -/
def hostRecord (m : Module) (e : Nat) (f : Frame) : Option Nat :=
  if f.retry && recordedOp f then ((m.edge e).hostDups.find? (fun d => d.1 == f.tag && d.2.1 == f.srcNode)).map (fun d => d.2.2.1) else none

/-- Writes of the host that have been admitted and not answered: each will have a record. -/
def openWrites (m : Module) (e : Nat) : Nat :=
  ((m.edge e).rx.filter (fun f => !f.rsp && recordedOp f)).length
    + (m.heldAccess.filter (fun h => h.via == .edge e && recordedOp h.frame)).length
    + ((m.drone.bandQ ++ m.drone.parked).filter (fun q => match q.frame with
        | some (f, via) => via == .edge e && recordedOp f
        | none => false)).length

/-- Is there room for the record of one more write? -/
def hostRoom (m : Module) (e : Nat) : Bool := decide ((m.edge e).hostDups.length + openWrites m e < 16384)

/-- A frame of the host: answered once more from its record, or passed on to its operation; a write waits for room among the records, behind
those that wait already. -/
def hostTake (now e : Nat) (f : Frame) (m : Module) : Module :=
  match hostRecord m e f with
  | some st => respond now f st 0 (if f.op = opDICT then dictBytes (dictAnswer now (dictOfBytes f.body) st []) else []) (m.bump kHOST_DUP 1)
  | none =>
    if recordedOp f && (!hostRoom m e || (m.edge e).hostHeld != []) then m.modEdge e (fun x => { x with hostHeld := x.hostHeld ++ [f] })
    else m.modEdge e (fun x => { x with rx := x.rx ++ [f] })

/-- Writes that wait go on in order while there is room. -/
def hostRelease (now e : Nat) (m : Module) : Module :=
  forN (m.edge e).hostHeld.length m (fun _ m =>
    match (m.edge e).hostHeld with
    | f :: rest =>
      if !hostRoom m e then m
      else (hostTake now e f (m.modEdge e (fun x => { x with hostHeld := [] }))).modEdge e (fun x => { x with hostHeld := rest })
    | [] => m)

/-- A frame at a host-role interface: dropped, refused, answered from its record, or admitted, as a response to the bridge's own handshake is
(R433). -/
def hostFrame (now e : Nat) (f : Frame) (m : Module) : Module :=
  let m := m.modEdge e (fun x => { x with hostRx := x.hostRx.erase f })
  if m.edgeRole e ≠ 2 then m
  else if f.sender ≠ m.num kHOST_NODE then (dropRung f (.edge e) m).bump kHOST_FOREIGN 1
  else if f.dest ≠ m.node then (dropRung f (.edge e) m).bump kMISROUTED 1
  else if f.rsp then m.modEdge e (fun x => { x with rx := x.rx ++ [f] })
  else if !hostOp f.op then respond now f 2 0 [] (m.bump kHOST_REFUSED 1)
  else hostTake now e f m

/-- HOST_FRAME_RECEIVE (R263). -/
def execHostFrameReceive (e : Nat) (f : Frame) (s : State) : Host.Outcome State Fault Refusal :=
  guarded (okE e) (s.does (fun now m => hostFrame now e f m))

/-- HOST_DUP_RECORD_EXPIRY (R264): 100 ms after the answer; writes that were held go on while there is room. -/
def execHostDupRecordExpiry (e k : Nat) (s : State) : Host.Outcome State Fault Refusal :=
  let d := (s.mod.edge e).hostDups[k]?
  guarded (okE e) (s.doesWhen d.isSome ((d.map (fun x => x.2.2.2)).getD 0 + 100 * ms) (fun now m =>
    hostRelease now e (m.modEdge e (fun x => { x with hostDups := dropNth x.hostDups k }))))

/-! ### Management rings (R275) -/

/-- The request that an entry stands for; none where the entry is refused with 0x02. -/
def mgmtFrame (m : Module) (x : MgmtEnt) (body : List Byte) : Option Frame :=
  if x.tnode / 8 ≠ m.node / 8 then none
  else if x.op = opREGRD ∧ (x.width = 4 ∨ x.width = 8) then some (m.mkReq opREGRD 0 (m.dieGen 0) (mkAddr x.tnode 0 (x.raddr % 2 ^ 28)) x.width [])
  else if x.op = opREGWR ∧ (x.width = 4 ∨ x.width = 8) then some (m.mkReq opREGWR 0 (m.dieGen 0) (mkAddr x.tnode 0 (x.raddr % 2 ^ 28)) 0 (leBytes x.width x.wdata))
  else if x.op = opDICT ∧ 1 ≤ x.width ∧ x.width ≤ 4096 then some (m.mkReq opDICT 0 (m.dieGen 0) (mkAddr x.tnode 0 0) 0 body)
  else none

/-- An entry for the bridge itself goes through its register router directly; a DICT request enters Drone's in-band queue (R275, R305). One that Drone
drops (R301) ends with 0x04, as no answer reaches it (R306; DESIGN CHOICE on its time, log entry 175). -/
def ownEntry (now i : Nat) (f : Frame) (m : Module) : Module :=
  if f.op ≠ opDICT then routeAccess now (.ring i) f .mesh m
  else
    let x := dictOfBytes f.body
    let q : DictReq := { src := .requester m.node 0, msg := x, addr := [], port := 0, ring := some i, arrived := now }
    if f.body.length < 24 then mgmtResponse now i 4 [] (m.bump kBAD_FRAME 1)
    else if x.ver ≠ 1 ∨ x.kind = 0 ∨ 4 < x.kind then mgmtResponse now i 4 [] (m.bump kFIELD_BAD 1)
    else if x.kind ≠ 1 then mgmtResponse now i 4 [] m
    else if 4 ≤ m.drone.bandQ.length then mgmtResponse now i 7 (dictBytes (dictAnswer now x 7 [])) m
    else m.modDrone (fun d => { d with bandQ := d.bandQ ++ [q] })

/-- Issue the entry at HEAD of a management ring. -/
def mgmtIssue (now i : Nat) (m : Module) : Module :=
  let x := m.ring i
  if !ringReady m i ∨ x.kind ≠ 1 then m
  else
    let (m, st, bs) := memRead now (spaceRegion x.entryAt) 5 (spaceOff x.entryAt) 64 m
    let m := m.modRing i (fun x => { x with inFlight := some x.head })
    let y := mgmtOf bs
    if st ≠ 0 then mgmtDone now i st 0 m
    else
      let (m, st, body) := if y.op = opDICT ∧ y.width ≤ 4096 then memRead now (spaceRegion y.raddr) 5 (spaceOff y.raddr) y.width m else (m, 0, [])
      if st ≠ 0 then mgmtDone now i st 0 m
      else match mgmtFrame m y body with
        | none => mgmtDone now i 2 0 m
        | some f => if y.tnode = m.node then ownEntry now i f m else
          let (m, st) := issue now 17 (.mgmt i) 0 f m
          if st = 0 ∨ st = 0x100 then m else mgmtFinish now i st y [] m

/-- MGMT_ENTRY (R275). -/
def execMgmtEntry (ring : Nat) (s : State) : Host.Outcome State Fault Refusal :=
  guarded (okRing ring) (s.does (fun now m => mgmtIssue now ring m))

end Sys2Proof.Machine
end

