-- ==== Sys2Proof/Machine/Dispatch.lean ====
section
/-! DEFINITION. The effect of every command: one arm per constructor, each a direct call of its meaning. -/

namespace Sys2Proof.Machine

def exec (i : Instr) (s : State) : Host.Outcome State Fault Refusal :=
  match i with
  | .coldStart obs => Sys2Proof.Machine.execColdStart obs s
  | .powerFail mv => Sys2Proof.Machine.execPowerFail mv s
  | .lossRecordWritten obs => Sys2Proof.Machine.execLossRecordWritten obs s
  | .railsStop mv => Sys2Proof.Machine.execRailsStop mv s
  | .inputVoltageHigh mv => Sys2Proof.Machine.execInputVoltageHigh mv s
  | .resetNLow => Sys2Proof.Machine.execResetNLow s
  | .resetNRise obs => Sys2Proof.Machine.execResetNRise obs s
  | .resetModuleWarm obs => Sys2Proof.Machine.execResetModuleWarm obs s
  | .resetModuleCold obs => Sys2Proof.Machine.execResetModuleCold obs s
  | .resetRegion mask => Sys2Proof.Machine.execResetRegion mask s
  | .resetDie mask => Sys2Proof.Machine.execResetDie mask s
  | .resetCompleted d => Sys2Proof.Machine.execResetCompleted d s
  | .regionRecoveryLate r => Sys2Proof.Machine.execRegionRecoveryLate r s
  | .runEnter v => Sys2Proof.Machine.execRunEnter v s
  | .alertAck v => Sys2Proof.Machine.execAlertAck v s
  | .regionDisable r v => Sys2Proof.Machine.execRegionDisable r v s
  | .ctxDisable r mask => Sys2Proof.Machine.execCtxDisable r mask s
  | .chanterDisable v => Sys2Proof.Machine.execChanterDisable v s
  | .functionEnable f => Sys2Proof.Machine.execFunctionEnable f s
  | .drainEnd f => Sys2Proof.Machine.execDrainEnd f s
  | .drainTimeout f => Sys2Proof.Machine.execDrainTimeout f s
  | .submitDescriptor r d => Sys2Proof.Machine.execSubmitDescriptor r d s
  | .dispatchDescriptor r q => Sys2Proof.Machine.execDispatchDescriptor r q s
  | .descriptorComplete r id => Sys2Proof.Machine.execDescriptorComplete r id s
  | .queueHeadWrite r q word => Sys2Proof.Machine.execQueueHeadWrite r q word s
  | .resume r q => Sys2Proof.Machine.execResume r q s
  | .flush r q => Sys2Proof.Machine.execFlush r q s
  | .syncCounterWrite r k v => Sys2Proof.Machine.execSyncCounterWrite r k v s
  | .switch r target => Sys2Proof.Machine.execSwitch r target s
  | .quantumExpiry r => Sys2Proof.Machine.execQuantumExpiry r s
  | .switchDrained r => Sys2Proof.Machine.execSwitchDrained r s
  | .switchComplete r => Sys2Proof.Machine.execSwitchComplete r s
  | .clusterFenceWrite r mask => Sys2Proof.Machine.execClusterFenceWrite r mask s
  | .clusterFenced r c => Sys2Proof.Machine.execClusterFenced r c s
  | .matrixDescriptor r id => Sys2Proof.Machine.execMatrixDescriptor r id s
  | .mov r id => Sys2Proof.Machine.execMov r id s
  | .add r id => Sys2Proof.Machine.execAdd r id s
  | .sub r id => Sys2Proof.Machine.execSub r id s
  | .mul r id => Sys2Proof.Machine.execMul r id s
  | .fma r id => Sys2Proof.Machine.execFma r id s
  | .max r id => Sys2Proof.Machine.execMax r id s
  | .min r id => Sys2Proof.Machine.execMin r id s
  | .abs r id => Sys2Proof.Machine.execAbs r id s
  | .neg r id => Sys2Proof.Machine.execNeg r id s
  | .cmpgt r id => Sys2Proof.Machine.execCmpgt r id s
  | .select r id => Sys2Proof.Machine.execSelect r id s
  | .exp2 r id => Sys2Proof.Machine.execExp2 r id s
  | .log2 r id => Sys2Proof.Machine.execLog2 r id s
  | .rcp r id => Sys2Proof.Machine.execRcp r id s
  | .rsqrt r id => Sys2Proof.Machine.execRsqrt r id s
  | .exp r id => Sys2Proof.Machine.execExp r id s
  | .siluMul r id => Sys2Proof.Machine.execSiluMul r id s
  | .rsum r id => Sys2Proof.Machine.execRsum r id s
  | .rsumsq r id => Sys2Proof.Machine.execRsumsq r id s
  | .rmaxIdx r id => Sys2Proof.Machine.execRmaxIdx r id s
  | .rminIdx r id => Sys2Proof.Machine.execRminIdx r id s
  | .smaxStep r id => Sys2Proof.Machine.execSmaxStep r id s
  | .smaxNorm r id => Sys2Proof.Machine.execSmaxNorm r id s
  | .conversionUnscaled r id => Sys2Proof.Machine.execConversionUnscaled r id s
  | .conversionCurrent r id => Sys2Proof.Machine.execConversionCurrent r id s
  | .conversionDelayed r id => Sys2Proof.Machine.execConversionDelayed r id s
  | .conversionFixed r id => Sys2Proof.Machine.execConversionFixed r id s
  | .move r id => Sys2Proof.Machine.execMove r id s
  | .moveCompress r id => Sys2Proof.Machine.execMoveCompress r id s
  | .fence r id => Sys2Proof.Machine.execFence r id s
  | .fenceComplete r id => Sys2Proof.Machine.execFenceComplete r id s
  | .signal r id => Sys2Proof.Machine.execSignal r id s
  | .set r id => Sys2Proof.Machine.execSet r id s
  | .waitUntil r id => Sys2Proof.Machine.execWaitUntil r id s
  | .waitUntilExpiry r id => Sys2Proof.Machine.execWaitUntilExpiry r id s
  | .idleHint r id => Sys2Proof.Machine.execIdleHint r id s
  | .launch r id => Sys2Proof.Machine.execLaunch r id s
  | .launchResume r id => Sys2Proof.Machine.execLaunchResume r id s
  | .yield r id => Sys2Proof.Machine.execYield r id s
  | .fabricRead r id => Sys2Proof.Machine.execFabricRead r id s
  | .fabricWrite r id => Sys2Proof.Machine.execFabricWrite r id s
  | .fabricAccum r id => Sys2Proof.Machine.execFabricAccum r id s
  | .fabricGather r id => Sys2Proof.Machine.execFabricGather r id s
  | .fabricRefetch r id => Sys2Proof.Machine.execFabricRefetch r id s
  | .fabricRelease r id => Sys2Proof.Machine.execFabricRelease r id s
  | .fabricStage r id => Sys2Proof.Machine.execFabricStage r id s
  | .fabricColl r id => Sys2Proof.Machine.execFabricColl r id s
  | .fabricResponse f via => Sys2Proof.Machine.execFabricResponse f via s
  | .tagAcquire holder => Sys2Proof.Machine.execTagAcquire holder s
  | .requestTimeout tag => Sys2Proof.Machine.execRequestTimeout tag s
  | .tagQuarantineEnd tag => Sys2Proof.Machine.execTagQuarantineEnd tag s
  | .read f via => Sys2Proof.Machine.execRead f via s
  | .write f via => Sys2Proof.Machine.execWrite f via s
  | .accum f via => Sys2Proof.Machine.execAccum f via s
  | .gather f via => Sys2Proof.Machine.execGather f via s
  | .refetch f via => Sys2Proof.Machine.execRefetch f via s
  | .release f via => Sys2Proof.Machine.execRelease f via s
  | .signalFrame f via => Sys2Proof.Machine.execSignalFrame f via s
  | .stage f via => Sys2Proof.Machine.execStage f via s
  | .credit f via => Sys2Proof.Machine.execCredit f via s
  | .coll f via => Sys2Proof.Machine.execColl f via s
  | .regRd f via => Sys2Proof.Machine.execRegRd f via s
  | .regWr f via => Sys2Proof.Machine.execRegWr f via s
  | .dict f via => Sys2Proof.Machine.execDict f via s
  | .desc f via => Sys2Proof.Machine.execDesc f via s
  | .descHoldTimeout r => Sys2Proof.Machine.execDescHoldTimeout r s
  | .pool f via => Sys2Proof.Machine.execPool f via s
  | .chanter f via => Sys2Proof.Machine.execChanter f via s
  | .timing f via => Sys2Proof.Machine.execTiming f via s
  | .dupRecordExpiry r k => Sys2Proof.Machine.execDupRecordExpiry r k s
  | .linkAck p seq => Sys2Proof.Machine.execLinkAck p seq s
  | .linkNak p seq => Sys2Proof.Machine.execLinkNak p seq s
  | .linkCredit p vc n => Sys2Proof.Machine.execLinkCredit p vc n s
  | .linkReplayTimeout p => Sys2Proof.Machine.execLinkReplayTimeout p s
  | .linkFrameReceive p seq crcOk f => Sys2Proof.Machine.execLinkFrameReceive p seq crcOk f s
  | .ackSendTimer p => Sys2Proof.Machine.execAckSendTimer p s
  | .laneLockLoss p => Sys2Proof.Machine.execLaneLockLoss p s
  | .trainingAttemptEnd p ok node index => Sys2Proof.Machine.execTrainingAttemptEnd p ok node index s
  | .portDisable p v => Sys2Proof.Machine.execPortDisable p v s
  | .portDrainEnd p => Sys2Proof.Machine.execPortDrainEnd p s
  | .neighborSolicitation e src target => Sys2Proof.Machine.execNeighborSolicitation e src target s
  | .echoRequest e src dst data => Sys2Proof.Machine.execEchoRequest e src dst data s
  | .edgePacketReceive e pkt => Sys2Proof.Machine.execEdgePacketReceive e pkt s
  | .reasmTimeout e node msg => Sys2Proof.Machine.execReasmTimeout e node msg s
  | .sectionDecode e => Sys2Proof.Machine.execSectionDecode e s
  | .fragmentSend stream => Sys2Proof.Machine.execFragmentSend stream s
  | .delta src m => Sys2Proof.Machine.execDelta src m s
  | .result src m => Sys2Proof.Machine.execResult src m s
  | .state src m => Sys2Proof.Machine.execState src m s
  | .ack src m => Sys2Proof.Machine.execAck src m s
  | .resync src m => Sys2Proof.Machine.execResync src m s
  | .probe src m => Sys2Proof.Machine.execProbe src m s
  | .probeReply src m => Sys2Proof.Machine.execProbeReply src m s
  | .ackTimer node stream => Sys2Proof.Machine.execAckTimer node stream s
  | .rtoExpiry stream seq => Sys2Proof.Machine.execRtoExpiry stream seq s
  | .peerHeld node => Sys2Proof.Machine.execPeerHeld node s
  | .probeTimer node => Sys2Proof.Machine.execProbeTimer node s
  | .roundDeadline => Sys2Proof.Machine.execRoundDeadline s
  | .quorumHoldExpiry => Sys2Proof.Machine.execQuorumHoldExpiry s
  | .catchupDelta r pos => Sys2Proof.Machine.execCatchupDelta r pos s
  | .join v => Sys2Proof.Machine.execJoin v s
  | .timeExchange t1 t2 t3 t4 => Sys2Proof.Machine.execTimeExchange t1 t2 t3 t4 s
  | .alignLost => Sys2Proof.Machine.execAlignLost s
  | .innerUpdate r id => Sys2Proof.Machine.execInnerUpdate r id s
  | .blockCommit r k => Sys2Proof.Machine.execBlockCommit r k s
  | .reserveStallTimeout r k => Sys2Proof.Machine.execReserveStallTimeout r k s
  | .normModuleSum => Sys2Proof.Machine.execNormModuleSum s
  | .normFence sum => Sys2Proof.Machine.execNormFence sum s
  | .stepClose r => Sys2Proof.Machine.execStepClose r s
  | .drainShard r => Sys2Proof.Machine.execDrainShard r s
  | .poolQueryReply tag p => Sys2Proof.Machine.execPoolQueryReply tag p s
  | .poolPutReply tag p => Sys2Proof.Machine.execPoolPutReply tag p s
  | .poolGetReply tag p => Sys2Proof.Machine.execPoolGetReply tag p s
  | .poolCommitReply tag p => Sys2Proof.Machine.execPoolCommitReply tag p s
  | .poolTimeout tag => Sys2Proof.Machine.execPoolTimeout tag s
  | .manifestWrite => Sys2Proof.Machine.execManifestWrite s
  | .cutAt v => Sys2Proof.Machine.execCutAt v s
  | .restoreGo v => Sys2Proof.Machine.execRestoreGo v s
  | .restoreVerified => Sys2Proof.Machine.execRestoreVerified s
  | .restoreApplied => Sys2Proof.Machine.execRestoreApplied s
  | .recallArrival r e => Sys2Proof.Machine.execRecallArrival r e s
  | .recallDeadlineExpiry r e => Sys2Proof.Machine.execRecallDeadlineExpiry r e s
  | .writeBack r e => Sys2Proof.Machine.execWriteBack r e s
  | .tierFlush r v => Sys2Proof.Machine.execTierFlush r v s
  | .scrubVisit r slot => Sys2Proof.Machine.execScrubVisit r slot s
  | .rowRepair r row => Sys2Proof.Machine.execRowRepair r row s
  | .repairTableAppend r => Sys2Proof.Machine.execRepairTableAppend r s
  | .refreshWindowChange r => Sys2Proof.Machine.execRefreshWindowChange r s
  | .selfRefreshEntry r => Sys2Proof.Machine.execSelfRefreshEntry r s
  | .selfRefreshExit r => Sys2Proof.Machine.execSelfRefreshExit r s
  | .pllStop r => Sys2Proof.Machine.execPllStop r s
  | .pllRestart r => Sys2Proof.Machine.execPllRestart r s
  | .fastLoop issued moved dieCounts inputMv => Sys2Proof.Machine.execFastLoop issued moved dieCounts inputMv s
  | .slowLoop rails => Sys2Proof.Machine.execSlowLoop rails s
  | .estimateRefit => Sys2Proof.Machine.execEstimateRefit s
  | .divergenceEnter => Sys2Proof.Machine.execDivergenceEnter s
  | .divergenceExit => Sys2Proof.Machine.execDivergenceExit s
  | .estimateOnlyExit => Sys2Proof.Machine.execEstimateOnlyExit s
  | .droopDetect r => Sys2Proof.Machine.execDroopDetect r s
  | .droopRecover r => Sys2Proof.Machine.execDroopRecover r s
  | .logicSensorRead r milliC inletMilliC => Sys2Proof.Machine.execLogicSensorRead r milliC inletMilliC s
  | .vfStep r down => Sys2Proof.Machine.execVfStep r down s
  | .logicThermalTrip r milliC => Sys2Proof.Machine.execLogicThermalTrip r milliC s
  | .dramSensorRead r milliC inletMilliC => Sys2Proof.Machine.execDramSensorRead r milliC inletMilliC s
  | .dramThermalTrip r milliC => Sys2Proof.Machine.execDramThermalTrip r milliC s
  | .referenceClockLost which => Sys2Proof.Machine.execReferenceClockLost which s
  | .sleepDecision r => Sys2Proof.Machine.execSleepDecision r s
  | .startAdmit r => Sys2Proof.Machine.execStartAdmit r s
  | .clusterReady r c => Sys2Proof.Machine.execClusterReady r c s
  | .heartbeatTick => Sys2Proof.Machine.execHeartbeatTick s
  | .flagsClear v => Sys2Proof.Machine.execFlagsClear v s
  | .flagRegisterClear block offset v => Sys2Proof.Machine.execFlagRegisterClear block offset v s
  | .registerWrite src block offset width v => Sys2Proof.Machine.execRegisterWrite src block offset width v s
  | .heldAccessComplete k => Sys2Proof.Machine.execHeldAccessComplete k s
  | .moduleCommit src mask => Sys2Proof.Machine.execModuleCommit src mask s
  | .moduleDiscard src mask => Sys2Proof.Machine.execModuleDiscard src mask s
  | .lock v => Sys2Proof.Machine.execLock v s
  | .doorbell ring v => Sys2Proof.Machine.execDoorbell ring v s
  | .descForward ring => Sys2Proof.Machine.execDescForward ring s
  | .descResponse ring status => Sys2Proof.Machine.execDescResponse ring status s
  | .ringResume ring => Sys2Proof.Machine.execRingResume ring s
  | .completionDoorbell p r q v => Sys2Proof.Machine.execCompletionDoorbell p r q v s
  | .mgmtEntry ring => Sys2Proof.Machine.execMgmtEntry ring s
  | .hostFrameReceive e f => Sys2Proof.Machine.execHostFrameReceive e f s
  | .hostDupRecordExpiry e k => Sys2Proof.Machine.execHostDupRecordExpiry e k s
  | .dictRead src m => Sys2Proof.Machine.execDictRead src m s
  | .dictWrite src m => Sys2Proof.Machine.execDictWrite src m s
  | .dictInfo src m => Sys2Proof.Machine.execDictInfo src m s
  | .fieldRequestReceive pkt => Sys2Proof.Machine.execFieldRequestReceive pkt s
  | .parkedRequestResume k => Sys2Proof.Machine.execParkedRequestResume k s
  | .storeSave => Sys2Proof.Machine.execStoreSave s
  | .storeErase => Sys2Proof.Machine.execStoreErase s
  | .storeComplete ok => Sys2Proof.Machine.execStoreComplete ok s
  | .telemTick => Sys2Proof.Machine.execTelemTick s
  | .transmitOpportunity => Sys2Proof.Machine.execTransmitOpportunity s
  | .plcaBeacon => Sys2Proof.Machine.execPlcaBeacon s
  | .fieldNeighborSolicitation src target => Sys2Proof.Machine.execFieldNeighborSolicitation src target s
  | .logicTest r mask deadlineMs => Sys2Proof.Machine.execLogicTest r mask deadlineMs s
  | .logicTestDone r c fails => Sys2Proof.Machine.execLogicTestDone r c fails s
  | .memoryTest r deadlineMs => Sys2Proof.Machine.execMemoryTest r deadlineMs s
  | .portRecal p => Sys2Proof.Machine.execPortRecal p s
  | .dramRecal r deadlineMs => Sys2Proof.Machine.execDramRecal r deadlineMs s
  | .bistDeadline k => Sys2Proof.Machine.execBistDeadline k s
  | .memtestGranule r fails => Sys2Proof.Machine.execMemtestGranule r fails s
  | .portRecalTimer => Sys2Proof.Machine.execPortRecalTimer s
  | .calProgramDone => Sys2Proof.Machine.execCalProgramDone s
  | .fwProgramDone => Sys2Proof.Machine.execFwProgramDone s
  | .attestNonce nonce => Sys2Proof.Machine.execAttestNonce nonce s
  | .init via m => Sys2Proof.Machine.execInit via m s
  | .reply via m => Sys2Proof.Machine.execReply via m s
  | .update via m => Sys2Proof.Machine.execUpdate via m s
  | .handshakeStart via node => Sys2Proof.Machine.execHandshakeStart via node s
  | .rekey node => Sys2Proof.Machine.execRekey node s
  | .keyUpdateTimer via node => Sys2Proof.Machine.execKeyUpdateTimer via node s
  | .keyRetire via node => Sys2Proof.Machine.execKeyRetire via node s
  | .kexHoursTimer => Sys2Proof.Machine.execKexHoursTimer s
  | .bypass tdi => Sys2Proof.Machine.execBypass tdi s
  | .idcode => Sys2Proof.Machine.execIdcode s
  | .samplePreload shift => Sys2Proof.Machine.execSamplePreload shift s
  | .extest shift => Sys2Proof.Machine.execExtest shift s
  | .imageLoad img => Sys2Proof.Machine.execImageLoad img s
  | .recoveryImageCheck obs => Sys2Proof.Machine.execRecoveryImageCheck obs s
  | .portSignalDetect p => Sys2Proof.Machine.execPortSignalDetect p s
  | .referenceClockRestored which => Sys2Proof.Machine.execReferenceClockRestored which s
  | .dramTrainingAgeDue r => Sys2Proof.Machine.execDramTrainingAgeDue r s
  | .dramRecalDone r => Sys2Proof.Machine.execDramRecalDone r s
  | .keyUpdateRetry via node => Sys2Proof.Machine.execKeyUpdateRetry via node s
  | .longHaulRateRecovery site => Sys2Proof.Machine.execLongHaulRateRecovery site s

end Sys2Proof.Machine
end

