-- ==== Sys2Proof/WellFormed.lean ====
section
/-! DEFINITION. Which commands are well formed: the parts that they number exist (R2, R13, R77, R270), and the fields of
frames and messages fit the widths that their tables give (R209, R232, R233, R301, R433). A command that numbers a
missing part faults (log entry 6); the widths only say which values the wire can carry. -/

namespace Sys2Proof

/-- A port or interface that exists (R13, R229). -/
def viaOk : Via → Bool
  | .mesh => true
  | .port p => decide (p < 96)
  | .edge e => decide (e < 4)

/-- A function that exists (R395). -/
def funcOk : Func → Bool
  | .region r => decide (r < 16)
  | .context r c => decide (r < 16) && decide (c < 8)
  | .port p => decide (p < 96)
  | .chanter => true
  | .ring i => decide (i < 256)
  | .stageQueue i => decide (i < 32)

/-- A reset domain that exists (R398). -/
def domainOk : Domain → Bool
  | .region r => decide (r < 16)
  | .die d => decide (d < 4)
  | .warm => true
  | .cold => true

/-- The header fields of a frame within their widths (R233), a body of at most 4,096 B whose length LEN gives, and a
16 B tag where ENC or AUTH is set (R232). -/
def Frame.inWidth (f : Frame) : Bool :=
  decide (f.ver < 2 ^ 4) && decide (f.op < 2 ^ 5) && decide (f.vc < 2 ^ 2) && decide (f.epoch < 2) && decide (f.gen < 2 ^ 8)
    && decide (f.srcRegion < 2 ^ 4) && decide (f.srcNode < 2 ^ 15) && decide (f.tag < 2 ^ 18) && decide (f.addr < 2 ^ 56)
    && decide (f.status < 2 ^ 8) && decide (f.len ≤ 4096) && decide (f.body.length = f.len) && decide (f.hops < 2 ^ 8)
    && decide (f.fmt < 2 ^ 4) && decide (f.cop < 2 ^ 4) && decide (f.aux < 2 ^ 32) && decide (f.group < 2 ^ 16)
    && decide (f.cseq < 2 ^ 24) && decide (f.seg < 2 ^ 12) && decide (f.segs < 2 ^ 12) && decide (f.sec < 2 ^ 64)
    && decide (f.mac.length = if f.enc || f.auth then 16 else 0)

/-- The header of a Chanter message within its widths, with a body of LEN bytes (R209). -/
def ChMsg.inWidth (x : ChMsg) : Bool :=
  decide (x.type < 2 ^ 4) && decide (x.codec < 2 ^ 4) && decide (x.flags < 2 ^ 8) && decide (x.srcSite < 2 ^ 6)
    && decide (x.dstRegion < 2 ^ 4) && decide (x.stream < 2 ^ 12) && decide (x.seq < 2 ^ 24) && decide (x.round < 2 ^ 32)
    && decide (x.origin < 2 ^ 32) && decide (x.w2 < 2 ^ 64) && decide (x.gstride < 2 ^ 32) && decide (x.count < 2 ^ 16)
    && decide (x.k < 2 ^ 8) && decide (x.outer < 2 ^ 32) && decide (x.len < 2 ^ 32) && decide (x.body.length = x.len)

/-- A dictionary message within its widths (R301). -/
def DictMsg.inWidth (x : DictMsg) : Bool :=
  decide (x.ver < 2 ^ 8) && decide (x.kind < 2 ^ 8) && decide (x.op < 2 ^ 8) && decide (x.flags < 2 ^ 8) && decide (x.seq < 2 ^ 16)
    && decide (x.index < 2 ^ 16) && decide (x.sub < 2 ^ 8) && decide (x.status < 2 ^ 8) && decide (x.len < 2 ^ 16)
    && decide (x.offset < 2 ^ 32) && decide (x.time < 2 ^ 64) && decide (x.data.length ≤ 4072)

/-- A UDP packet: a 16 B source address and 16-bit ports (R300). -/
def FieldPkt.inWidth (x : FieldPkt) : Bool :=
  decide (x.srcAddr.length = 16) && decide (x.srcPort < 2 ^ 16) && decide (x.dstPort < 2 ^ 16)

/-- A pool reply within its widths (R359). -/
def PoolReply.inWidth (x : PoolReply) : Bool := decide (x.pstatus < 2 ^ 8) && decide (x.data.length ≤ 4096)

/-- A handshake message within its widths (R433). -/
def KexMsg.inWidth (x : KexMsg) : Bool := decide (x.kind < 2 ^ 8) && decide (x.node < 2 ^ 16) && decide (x.count < 2 ^ 32)

/-- A source: the field port, or a node and region (R298). -/
def Source.inWidth : Source → Bool
  | .fieldPort => true
  | .requester node region => decide (node < 2 ^ 15) && decide (region < 16)

/-- What a start observes names parts that exist. -/
def StartObs.named (x : StartObs) : Bool :=
  x.trainFail.all (fun r => decide (r < 16)) && x.testFail.all (fun c => decide (c < 256)) && x.portFail.all (fun p => decide (p < 96))
    && x.portFound.all (fun y => decide (y.1 < 96)) && x.bits.all (fun b => decide (b.bit < 280) && decide (b.pattern < 2))

/-- The parts that a command numbers exist. -/
def Instr.partsOk : Instr → Bool
  | .coldStart _ => true
  | .powerFail _ => true
  | .lossRecordWritten _ => true
  | .railsStop _ => true
  | .inputVoltageHigh _ => true
  | .resetNLow => true
  | .resetNRise _ => true
  | .resetModuleWarm _ => true
  | .resetModuleCold _ => true
  | .resetRegion _ => true
  | .resetDie _ => true
  | .resetCompleted d => domainOk d
  | .regionRecoveryLate r => decide (r < 16)
  | .runEnter _ => true
  | .alertAck _ => true
  | .regionDisable r _ => decide (r < 16)
  | .ctxDisable r mask => decide (r < 16) && decide (mask < 256)
  | .chanterDisable _ => true
  | .functionEnable f => funcOk f
  | .drainEnd f => funcOk f
  | .drainTimeout f => funcOk f
  | .submitDescriptor r _ => decide (r < 16)
  | .dispatchDescriptor r q => decide (r < 16) && decide (q < 64)
  | .descriptorComplete r _ => decide (r < 16)
  | .queueHeadWrite r q _ => decide (r < 16) && decide (q < 64)
  | .resume r q => decide (r < 16) && decide (q < 64)
  | .flush r q => decide (r < 16) && decide (q < 64)
  | .syncCounterWrite r k _ => decide (r < 16) && decide (k < 255)
  | .switch r target => decide (r < 16) && decide (target < 8)
  | .quantumExpiry r => decide (r < 16)
  | .switchDrained r => decide (r < 16)
  | .switchComplete r => decide (r < 16)
  | .clusterFenceWrite r mask => decide (r < 16) && decide (mask < 65536)
  | .clusterFenced r c => decide (r < 16) && decide (c < 16)
  | .matrixDescriptor r _ => decide (r < 16)
  | .mov r _ => decide (r < 16)
  | .add r _ => decide (r < 16)
  | .sub r _ => decide (r < 16)
  | .mul r _ => decide (r < 16)
  | .fma r _ => decide (r < 16)
  | .max r _ => decide (r < 16)
  | .min r _ => decide (r < 16)
  | .abs r _ => decide (r < 16)
  | .neg r _ => decide (r < 16)
  | .cmpgt r _ => decide (r < 16)
  | .select r _ => decide (r < 16)
  | .exp2 r _ => decide (r < 16)
  | .log2 r _ => decide (r < 16)
  | .rcp r _ => decide (r < 16)
  | .rsqrt r _ => decide (r < 16)
  | .exp r _ => decide (r < 16)
  | .siluMul r _ => decide (r < 16)
  | .rsum r _ => decide (r < 16)
  | .rsumsq r _ => decide (r < 16)
  | .rmaxIdx r _ => decide (r < 16)
  | .rminIdx r _ => decide (r < 16)
  | .smaxStep r _ => decide (r < 16)
  | .smaxNorm r _ => decide (r < 16)
  | .conversionUnscaled r _ => decide (r < 16)
  | .conversionCurrent r _ => decide (r < 16)
  | .conversionDelayed r _ => decide (r < 16)
  | .conversionFixed r _ => decide (r < 16)
  | .move r _ => decide (r < 16)
  | .moveCompress r _ => decide (r < 16)
  | .fence r _ => decide (r < 16)
  | .fenceComplete r _ => decide (r < 16)
  | .signal r _ => decide (r < 16)
  | .set r _ => decide (r < 16)
  | .waitUntil r _ => decide (r < 16)
  | .waitUntilExpiry r _ => decide (r < 16)
  | .idleHint r _ => decide (r < 16)
  | .launch r _ => decide (r < 16)
  | .launchResume r _ => decide (r < 16)
  | .yield r _ => decide (r < 16)
  | .fabricRead r _ => decide (r < 16)
  | .fabricWrite r _ => decide (r < 16)
  | .fabricAccum r _ => decide (r < 16)
  | .fabricGather r _ => decide (r < 16)
  | .fabricRefetch r _ => decide (r < 16)
  | .fabricRelease r _ => decide (r < 16)
  | .fabricStage r _ => decide (r < 16)
  | .fabricColl r _ => decide (r < 16)
  | .fabricResponse _ _ => true
  | .tagAcquire holder => decide (holder < 18)
  | .requestTimeout _ => true
  | .tagQuarantineEnd _ => true
  | .read _ _ => true
  | .write _ _ => true
  | .accum _ _ => true
  | .gather _ _ => true
  | .refetch _ _ => true
  | .release _ _ => true
  | .signalFrame _ _ => true
  | .stage _ _ => true
  | .credit _ _ => true
  | .coll _ _ => true
  | .regRd _ _ => true
  | .regWr _ _ => true
  | .dict _ _ => true
  | .desc _ _ => true
  | .descHoldTimeout r => decide (r < 16)
  | .pool _ _ => true
  | .chanter _ _ => true
  | .timing _ _ => true
  | .dupRecordExpiry r _ => decide (r < 16)
  | .linkAck p _ => decide (p < 96)
  | .linkNak p _ => decide (p < 96)
  | .linkCredit p vc _ => decide (p < 96) && decide (vc < 4)
  | .linkReplayTimeout p => decide (p < 96)
  | .linkFrameReceive p _ _ _ => decide (p < 96)
  | .ackSendTimer p => decide (p < 96)
  | .laneLockLoss p => decide (p < 96)
  | .trainingAttemptEnd p _ _ _ => decide (p < 96)
  | .portDisable p _ => decide (p < 96)
  | .portDrainEnd p => decide (p < 96)
  | .neighborSolicitation e _ _ => decide (e < 4)
  | .echoRequest e _ _ _ => decide (e < 5)
  | .edgePacketReceive e _ => decide (e < 4)
  | .reasmTimeout e _ _ => decide (e < 5)
  | .sectionDecode e => decide (e < 4)
  | .fragmentSend _ => true
  | .delta _ _ => true
  | .result _ _ => true
  | .state _ _ => true
  | .ack _ _ => true
  | .resync _ _ => true
  | .probe _ _ => true
  | .probeReply _ _ => true
  | .ackTimer _ _ => true
  | .rtoExpiry _ _ => true
  | .peerHeld _ => true
  | .probeTimer _ => true
  | .roundDeadline => true
  | .quorumHoldExpiry => true
  | .catchupDelta r _ => decide (r < 16)
  | .join _ => true
  | .timeExchange _ _ _ _ => true
  | .alignLost => true
  | .innerUpdate r _ => decide (r < 16)
  | .blockCommit r _ => decide (r < 16)
  | .reserveStallTimeout r _ => decide (r < 16)
  | .normModuleSum => true
  | .normFence _ => true
  | .stepClose r => decide (r < 16)
  | .drainShard r => decide (r < 16)
  | .poolQueryReply _ _ => true
  | .poolPutReply _ _ => true
  | .poolGetReply _ _ => true
  | .poolCommitReply _ _ => true
  | .poolTimeout _ => true
  | .manifestWrite => true
  | .cutAt _ => true
  | .restoreGo _ => true
  | .restoreVerified => true
  | .restoreApplied => true
  | .recallArrival r _ => decide (r < 16)
  | .recallDeadlineExpiry r _ => decide (r < 16)
  | .writeBack r _ => decide (r < 16)
  | .tierFlush r _ => decide (r < 16)
  | .scrubVisit r slot => decide (r < 16) && decide (slot < 402653184)
  | .rowRepair r row => decide (r < 16) && decide (row < 100663296)
  | .repairTableAppend r => decide (r < 16)
  | .refreshWindowChange r => decide (r < 16)
  | .selfRefreshEntry r => decide (r < 16)
  | .selfRefreshExit r => decide (r < 16)
  | .pllStop r => decide (r < 16)
  | .pllRestart r => decide (r < 16)
  | .fastLoop _ _ _ _ => true
  | .slowLoop _ => true
  | .estimateRefit => true
  | .divergenceEnter => true
  | .divergenceExit => true
  | .estimateOnlyExit => true
  | .droopDetect r => decide (r < 16)
  | .droopRecover r => decide (r < 16)
  | .logicSensorRead r _ _ => decide (r < 16)
  | .vfStep r _ => decide (r < 16)
  | .logicThermalTrip r _ => decide (r < 16)
  | .dramSensorRead r _ _ => decide (r < 16)
  | .dramThermalTrip r _ => decide (r < 16)
  | .referenceClockLost which => decide (which < 5)
  | .sleepDecision r => decide (r < 16)
  | .startAdmit r => decide (r < 16)
  | .clusterReady r c => decide (r < 16) && decide (c < 16)
  | .heartbeatTick => true
  | .flagsClear _ => true
  | .flagRegisterClear _ _ _ => true
  | .registerWrite _ _ _ _ _ => true
  | .heldAccessComplete _ => true
  | .moduleCommit _ _ => true
  | .moduleDiscard _ _ => true
  | .lock _ => true
  | .doorbell ring _ => decide (ring < 256)
  | .descForward ring => decide (ring < 256)
  | .descResponse ring _ => decide (ring < 256)
  | .ringResume ring => decide (ring < 256)
  | .completionDoorbell p r q _ => decide (p < 8) && decide (r < 16) && decide (q < 64)
  | .mgmtEntry ring => decide (ring < 256)
  | .hostFrameReceive e _ => decide (e < 4)
  | .hostDupRecordExpiry e _ => decide (e < 4)
  | .dictRead _ _ => true
  | .dictWrite _ _ => true
  | .dictInfo _ _ => true
  | .fieldRequestReceive _ => true
  | .parkedRequestResume _ => true
  | .storeSave => true
  | .storeErase => true
  | .storeComplete _ => true
  | .telemTick => true
  | .transmitOpportunity => true
  | .plcaBeacon => true
  | .fieldNeighborSolicitation _ _ => true
  | .logicTest _ _ _ => true
  | .logicTestDone r c _ => decide (r < 16) && decide (c < 16)
  | .memoryTest _ _ => true
  | .portRecal _ => true
  | .dramRecal _ _ => true
  | .bistDeadline _ => true
  | .memtestGranule r _ => decide (r < 16)
  | .portRecalTimer => true
  | .calProgramDone => true
  | .fwProgramDone => true
  | .attestNonce _ => true
  | .init via _ => viaOk via
  | .reply via _ => viaOk via
  | .update via _ => viaOk via
  | .handshakeStart via _ => viaOk via
  | .rekey _ => true
  | .keyUpdateTimer via _ => viaOk via
  | .keyRetire via _ => viaOk via
  | .kexHoursTimer => true
  | .bypass _ => true
  | .idcode => true
  | .samplePreload _ => true
  | .extest _ => true
  | .imageLoad _ => true
  | .recoveryImageCheck _ => true
  | .portSignalDetect p => decide (p < 96)
  | .referenceClockRestored which => decide (which < 5)
  | .dramTrainingAgeDue r => decide (r < 16)
  | .dramRecalDone r => decide (r < 16)
  | .keyUpdateRetry via _ => viaOk via
  | .longHaulRateRecovery site => decide (site < 64)

/-- The fields that a command carries fit their widths. -/
def Instr.fieldsOk : Instr → Bool
  | .coldStart obs => obs.named
  | .powerFail _ => true
  | .lossRecordWritten obs => obs.named
  | .railsStop _ => true
  | .inputVoltageHigh _ => true
  | .resetNLow => true
  | .resetNRise obs => obs.named
  | .resetModuleWarm obs => obs.named
  | .resetModuleCold obs => obs.named
  | .resetRegion mask => decide (mask < 65536)
  | .resetDie mask => decide (mask < 16)
  | .resetCompleted _ => true
  | .regionRecoveryLate _ => true
  | .runEnter _ => true
  | .alertAck _ => true
  | .regionDisable _ _ => true
  | .ctxDisable _ _ => true
  | .chanterDisable _ => true
  | .functionEnable _ => true
  | .drainEnd _ => true
  | .drainTimeout _ => true
  | .submitDescriptor _ _ => true
  | .dispatchDescriptor _ _ => true
  | .descriptorComplete _ _ => true
  | .queueHeadWrite _ _ _ => true
  | .resume _ _ => true
  | .flush _ _ => true
  | .syncCounterWrite _ _ v => decide (v < 65536)
  | .switch _ _ => true
  | .quantumExpiry _ => true
  | .switchDrained _ => true
  | .switchComplete _ => true
  | .clusterFenceWrite _ _ => true
  | .clusterFenced _ _ => true
  | .matrixDescriptor _ _ => true
  | .mov _ _ => true
  | .add _ _ => true
  | .sub _ _ => true
  | .mul _ _ => true
  | .fma _ _ => true
  | .max _ _ => true
  | .min _ _ => true
  | .abs _ _ => true
  | .neg _ _ => true
  | .cmpgt _ _ => true
  | .select _ _ => true
  | .exp2 _ _ => true
  | .log2 _ _ => true
  | .rcp _ _ => true
  | .rsqrt _ _ => true
  | .exp _ _ => true
  | .siluMul _ _ => true
  | .rsum _ _ => true
  | .rsumsq _ _ => true
  | .rmaxIdx _ _ => true
  | .rminIdx _ _ => true
  | .smaxStep _ _ => true
  | .smaxNorm _ _ => true
  | .conversionUnscaled _ _ => true
  | .conversionCurrent _ _ => true
  | .conversionDelayed _ _ => true
  | .conversionFixed _ _ => true
  | .move _ _ => true
  | .moveCompress _ _ => true
  | .fence _ _ => true
  | .fenceComplete _ _ => true
  | .signal _ _ => true
  | .set _ _ => true
  | .waitUntil _ _ => true
  | .waitUntilExpiry _ _ => true
  | .idleHint _ _ => true
  | .launch _ _ => true
  | .launchResume _ _ => true
  | .yield _ _ => true
  | .fabricRead _ _ => true
  | .fabricWrite _ _ => true
  | .fabricAccum _ _ => true
  | .fabricGather _ _ => true
  | .fabricRefetch _ _ => true
  | .fabricRelease _ _ => true
  | .fabricStage _ _ => true
  | .fabricColl _ _ => true
  | .fabricResponse f via => f.inWidth && viaOk via
  | .tagAcquire _ => true
  | .requestTimeout _ => true
  | .tagQuarantineEnd _ => true
  | .read f via => f.inWidth && viaOk via
  | .write f via => f.inWidth && viaOk via
  | .accum f via => f.inWidth && viaOk via
  | .gather f via => f.inWidth && viaOk via
  | .refetch f via => f.inWidth && viaOk via
  | .release f via => f.inWidth && viaOk via
  | .signalFrame f via => f.inWidth && viaOk via
  | .stage f via => f.inWidth && viaOk via
  | .credit f via => f.inWidth && viaOk via
  | .coll f via => f.inWidth && viaOk via
  | .regRd f via => f.inWidth && viaOk via
  | .regWr f via => f.inWidth && viaOk via
  | .dict f via => f.inWidth && viaOk via
  | .desc f via => f.inWidth && viaOk via
  | .descHoldTimeout _ => true
  | .pool f via => f.inWidth && viaOk via
  | .chanter f via => f.inWidth && viaOk via
  | .timing f via => f.inWidth && viaOk via
  | .dupRecordExpiry _ _ => true
  | .linkAck _ _ => true
  | .linkNak _ _ => true
  | .linkCredit _ _ _ => true
  | .linkReplayTimeout _ => true
  | .linkFrameReceive _ _ _ f => f.inWidth
  | .ackSendTimer _ => true
  | .laneLockLoss _ => true
  | .trainingAttemptEnd _ _ _ _ => true
  | .portDisable _ _ => true
  | .portDrainEnd _ => true
  | .neighborSolicitation _ _ _ => true
  | .echoRequest _ _ _ _ => true
  | .edgePacketReceive _ pkt => pkt.frame.inWidth
  | .reasmTimeout _ _ _ => true
  | .sectionDecode _ => true
  | .fragmentSend _ => true
  | .delta _ m => m.inWidth
  | .result _ m => m.inWidth
  | .state _ m => m.inWidth
  | .ack _ m => m.inWidth
  | .resync _ m => m.inWidth
  | .probe _ m => m.inWidth
  | .probeReply _ m => m.inWidth
  | .ackTimer _ _ => true
  | .rtoExpiry _ _ => true
  | .peerHeld _ => true
  | .probeTimer _ => true
  | .roundDeadline => true
  | .quorumHoldExpiry => true
  | .catchupDelta _ _ => true
  | .join _ => true
  | .timeExchange _ _ _ _ => true
  | .alignLost => true
  | .innerUpdate _ _ => true
  | .blockCommit _ _ => true
  | .reserveStallTimeout _ _ => true
  | .normModuleSum => true
  | .normFence _ => true
  | .stepClose _ => true
  | .drainShard _ => true
  | .poolQueryReply _ p => p.inWidth
  | .poolPutReply _ p => p.inWidth
  | .poolGetReply _ p => p.inWidth
  | .poolCommitReply _ p => p.inWidth
  | .poolTimeout _ => true
  | .manifestWrite => true
  | .cutAt _ => true
  | .restoreGo _ => true
  | .restoreVerified => true
  | .restoreApplied => true
  | .recallArrival _ _ => true
  | .recallDeadlineExpiry _ _ => true
  | .writeBack _ _ => true
  | .tierFlush _ _ => true
  | .scrubVisit _ _ => true
  | .rowRepair _ _ => true
  | .repairTableAppend _ => true
  | .refreshWindowChange _ => true
  | .selfRefreshEntry _ => true
  | .selfRefreshExit _ => true
  | .pllStop _ => true
  | .pllRestart _ => true
  | .fastLoop _ _ _ _ => true
  | .slowLoop _ => true
  | .estimateRefit => true
  | .divergenceEnter => true
  | .divergenceExit => true
  | .estimateOnlyExit => true
  | .droopDetect _ => true
  | .droopRecover _ => true
  | .logicSensorRead _ _ _ => true
  | .vfStep _ _ => true
  | .logicThermalTrip _ _ => true
  | .dramSensorRead _ _ _ => true
  | .dramThermalTrip _ _ => true
  | .referenceClockLost _ => true
  | .sleepDecision _ => true
  | .startAdmit _ => true
  | .clusterReady _ _ => true
  | .heartbeatTick => true
  | .flagsClear _ => true
  | .flagRegisterClear _ _ _ => true
  | .registerWrite src block offset width v => src.inWidth && decide (block < 4096) && decide (offset < 65536) && decide (width = 4 ∨ width = 8) && decide (v < 2 ^ (8 * width))
  | .heldAccessComplete _ => true
  | .moduleCommit src _ => src.inWidth
  | .moduleDiscard src _ => src.inWidth
  | .lock _ => true
  | .doorbell _ _ => true
  | .descForward _ => true
  | .descResponse _ _ => true
  | .ringResume _ => true
  | .completionDoorbell _ _ _ _ => true
  | .mgmtEntry _ => true
  | .hostFrameReceive _ f => f.inWidth
  | .hostDupRecordExpiry _ _ => true
  | .dictRead src m => src.inWidth && m.inWidth
  | .dictWrite src m => src.inWidth && m.inWidth
  | .dictInfo src m => src.inWidth && m.inWidth
  | .fieldRequestReceive pkt => pkt.inWidth
  | .parkedRequestResume _ => true
  | .storeSave => true
  | .storeErase => true
  | .storeComplete _ => true
  | .telemTick => true
  | .transmitOpportunity => true
  | .plcaBeacon => true
  | .fieldNeighborSolicitation _ _ => true
  | .logicTest _ _ _ => true
  | .logicTestDone _ _ _ => true
  | .memoryTest _ _ => true
  | .portRecal _ => true
  | .dramRecal _ _ => true
  | .bistDeadline _ => true
  | .memtestGranule _ _ => true
  | .portRecalTimer => true
  | .calProgramDone => true
  | .fwProgramDone => true
  | .attestNonce nonce => decide (nonce.length = 32)
  | .init _ m => m.inWidth
  | .reply _ m => m.inWidth
  | .update _ m => m.inWidth
  | .handshakeStart _ _ => true
  | .rekey _ => true
  | .keyUpdateTimer _ _ => true
  | .keyRetire _ _ => true
  | .kexHoursTimer => true
  | .bypass _ => true
  | .idcode => true
  | .samplePreload _ => true
  | .extest _ => true
  | .imageLoad _ => true
  | .recoveryImageCheck obs => obs.named
  | .portSignalDetect _ => true
  | .referenceClockRestored _ => true
  | .dramTrainingAgeDue _ => true
  | .dramRecalDone _ => true
  | .keyUpdateRetry _ _ => true
  | .longHaulRateRecovery _ => true

/-- A command as the wires and ports of the module can carry it. -/
def WellFormed (c : Instr) : Bool := c.partsOk && c.fieldsOk

end Sys2Proof
end

