-- ==== Sys2Proof/Safety.lean ====
section
/-! DEFINITION. What counts as a safe run: every waiting command numbers parts that the module has, so that no step
ends in the fault `noSuchPart`; and the forms that the data of the module keeps. -/

namespace Sys2Proof

open Machine

/-- A step that goes on. -/
def Goes (o : Host.Outcome State Fault Refusal) : Prop := ∃ t, o = .next t

/-- Every waiting command numbers parts that the module has. -/
def QueueOk (s : State) : Prop := ∀ c ∈ s.pending, c.partsOk = true

/-- The bonded memory of every region is in its canonical form. -/
def MemoryOk (m : Module) : Prop := ∀ r, Memory.wf (m.rg r).stack.data = true

/-- A command that may start the module anew, so that module time begins again at its boot (R376, R404). -/
def Instr.startsAnew : Instr → Bool
  | .coldStart _ | .lossRecordWritten _ | .resetNRise _ | .resetModuleCold _ | .resetCompleted _ | .recoveryImageCheck _
  | .dictRead _ _ | .dictWrite _ _ | .dictInfo _ _ | .parkedRequestResume _ => true
  | _ => false

/-- A command that acts though Drone does not run: the power input and RESET_N pins, the end of the loss record, the end
of a start, the test access port, and the return of a reference clock (R330, R374, R448, R453, R456). -/
def Instr.needsNoDrone : Instr → Bool
  | .coldStart _ | .lossRecordWritten _ | .railsStop _ | .resetNLow | .resetNRise _ | .resetCompleted _ | .bypass _
  | .idcode | .samplePreload _ | .extest _ | .imageLoad _ | .recoveryImageCheck _ | .referenceClockRestored _ => true
  | _ => false

end Sys2Proof
end

