-- ==== Sys2Proof/Certificates/Slice0/Obligations.lean ====
section
/-! DEFINITION. The statements for the provers: the queue, completion of every command, frames, invariants, and the rules
of the spec that say what a register, a counter or an interface holds after a command. -/

namespace Sys2Proof.Claims

open Sys2Proof.Machine

/-- Drone runs: the module takes commands (R374). -/
abbrev Up (s : State) : Prop := s.mod.env.droneUp = true

/-- The module with nothing sent yet by the command in hand (`out` is the model's own record of what a command sends). -/
def quiet (s : State) : Module := { s.mod with out := [] }

/-- No record of this event combination is on file, so that none is merged (R390). -/
abbrev FirstOf (m : Module) (cls code src : Nat) : Prop := Tab.find? m.drone.lastEvent ((cls * 2 ^ 16 + code) * 2 ^ 32 + src) = none

/-- One event more has been posted, with this class, code, source and detail, at this module time (R311). -/
abbrev Posted (a b : Module) (now cls code src : Nat) (detail : List Byte) : Prop :=
  b.num kEVENT_SEQ = (a.num kEVENT_SEQ + 1) % 2 ^ 32
    ∧ Tab.find? b.drone.eventLog (b.num kEVENT_SEQ % 256) = some (eventRecord (b.num kEVENT_SEQ) cls code now src detail)

/-- A frame that reaches a region of this module which may serve it: well made, for this node, from this node's own mesh, not a
copy, none that has been taken already, to a region in RUN that is enabled and out of reset, its stack trained, its duplicate store
not full (R236, R243). -/
structure Reaches (s : State) (op : Nat) (f : Frame) : Prop where
  made : badRequest op f = false
  here : addrNode f.addr = s.mod.node
  home : f.srcNode = s.mod.node
  fresh : f.retry = false
  run : s.mod.mstate = 2
  enabled : s.mod.fstate (addrRegion f.addr) = 0
  awake : s.mod.inReset (addrRegion f.addr) = false
  trained : regionRetrains s.mod (addrRegion f.addr) = false
  room : (s.mod.rg (addrRegion f.addr)).dups.length < 65536
  notHeld : (f, Via.mesh) ∉ (s.mod.rg (addrRegion f.addr)).held
  notWaiting : (f, Via.mesh) ∉ s.mod.fabric.collWaiting
  unopened : ∀ d ∈ (s.mod.rg (addrRegion f.addr)).dups, d.isOf f = true → d.applying = false

/-- A frame that a region serves as it arrives: its clock runs (R339), and its stack takes a request under the rate in force (R343). -/
structure Served (s : State) (op : Nat) (f : Frame) : Prop extends Reaches s op f where
  clocked : regionHolds s.mod (addrRegion f.addr) = false
  paced : onStack op = true → (s.mod.rg (addrRegion f.addr)).power.paceUntil ≤ s.time

/-- The module when a region begins to serve a frame: its last request is now (R417), and under a rate limit the next one waits (R343). -/
def taken (s : State) (op : Nat) (f : Frame) : Module :=
  let r := addrRegion f.addr
  let m := (quiet s).modR r (fun g => { g with lastServed := s.time })
  if onStack op = true then pace s.time r m else m

/-- No commit is in progress, held or parked (R284, R305). -/
abbrev NoCommit (s : State) : Prop := commitBefore s.mod s.mod.nextHeld = false

/-- Region r's registers take a write at once: die 0 and the region are out of reset, its PLL runs, and none of the driver's earlier accesses to
them is held (R286). -/
structure TakesWrites (s : State) (r : Nat) : Prop where
  heard : domainSilent s.mod r = false
  awake : s.mod.inReset r = false
  clocked : (s.mod.rg r).power.pllOff = false
  first : ∀ h ∈ s.mod.heldAccess, askedBy h.asker h.frame = s.mod.driver → domainOf (regBlock h.frame) ≠ r

/-- The commands that write a register of region r's controller, each with its offset and value. -/
def regionCommands (s : State) (r q k v : Nat) : List (Instr × Nat × Nat) :=
  let m := quiet s
  [(.queueHeadWrite r q v, 0x1010 + 0x20 * q, inForceBits m s.time r (0x1010 + 0x20 * q) 24 20 + bits v 19 0),
   (.resume r q, 0x1000 + 0x20 * q, inForceBits m s.time r (0x1000 + 0x20 * q) 15 12 + 2 ^ 10),
   (.flush r q, 0x1000 + 0x20 * q, inForceBits m s.time r (0x1000 + 0x20 * q) 15 12 + 2 ^ 9),
   (.switch r (v % 8), 0x200, inForceBits m s.time r 0x200 31 16 + place (v % 8) 10 8 + 1),
   (.syncCounterWrite r k v, 0x2000 + 4 * k, v), (.clusterFenceWrite r (v % 65536), 0x800, v % 65536)]

/-- The commands that write an entry which waits for a commit in progress, each with its key and bytes (R307, R380, R399). -/
def waitingWrites (v : Nat) (obs : StartObs) : List (Instr × Nat × List Byte) :=
  [(.storeSave, kSTORE, [1]), (.storeErase, kSTORE, [2]), (.runEnter v, kRUN_ENTER, leBytes 1 v), (.resetRegion (v % 65536), kRESET_REGION, leBytes 2 (v % 65536)),
   (.resetDie (v % 256), kRESET_DIE, leBytes 1 (v % 256)), (.resetModuleWarm obs, kRESET_MODULE, [1])]

/-- A dispatched descriptor of a kind, on a cluster that is ready, whose issue gate is open. -/
structure Ready (s : State) (r id : Nat) (x : Flight) : Prop where
  region : r < 16
  up : Up s
  here : (s.mod.work r).flight? id = some x
  dispatched : x.phase = 1
  ready : x.ready.isSome = true
  gate : s.mod.gate r ≠ 0

/-- A descriptor under way that waits for its own end. -/
structure Waiting (s : State) (r id : Nat) (x : Flight) : Prop where
  region : r < 16
  up : Up s
  here : (s.mod.work r).flight? id = some x
  phase : x.phase = 4

/-- The command completes, and the state after it is as P says. -/
def Ends (c : Instr) (s : State) (P : State → Prop) : Prop := ∃ t, exec c s = .next t ∧ P t

/-- The state with another module, at the same time. -/
def withMod (s : State) (m : Module) : State := { s with mod := m }

/-- The state with another module, when module time has moved on to d. -/
def atTime (s : State) (d : Nat) (f : Nat → Module → Module) : State :=
  { s with time := max s.time d, mod := f (max s.time d) (quiet s) }

/-- The vector operations of R40 and R41 by their codes. -/
def vectorCommands : List (Nat × (Nat → Nat → Instr)) :=
  [(0x00, .mov), (0x01, .add), (0x02, .sub), (0x03, .mul), (0x04, .fma), (0x05, .max), (0x06, .min), (0x07, .abs), (0x08, .neg), (0x09, .cmpgt),
   (0x0A, .select), (0x10, .exp2), (0x11, .log2), (0x12, .rcp), (0x13, .rsqrt), (0x14, .exp), (0x15, .siluMul), (0x20, .rsum), (0x21, .rsumsq),
   (0x22, .rmaxIdx), (0x23, .rminIdx), (0x24, .smaxStep), (0x25, .smaxNorm)]

/-- The flight that a descriptor has after its work: its result waits for DESCRIPTOR_COMPLETE. -/
def Worked (t : State) (r id : Nat) (x : Flight) (status flags aux : Nat) : Prop :=
  ∃ y, (t.mod.work r).flight? id = some y ∧ y.d = x.d ∧ y.phase = 2 ∧ y.status = status ∧ y.flags = flags ∧ y.aux = aux ∧ x.endAt ≤ y.endAt

/-- Only region r has changed, and no dictionary entry. -/
def OnlyRegion (s t : State) (r : Nat) : Prop :=
  t.time = s.time ∧ t.mod.nums = s.mod.nums ∧ t.mod.blobs = s.mod.blobs ∧ t.mod.out = [] ∧ ∀ q, q ≠ r → t.mod.rg q = s.mod.rg q

/-- The module after a conversion's passes: its unexpected compressed slots are counted, unless its record was refused (R94, R111). -/
def counted (s : State) (r : Nat) (x : Flight) (o : ConvOut) : Module :=
  let n := (convOf x.d).unexpected r x.d.cluster (quiet s)
  if n = 0 ∨ o.2.1 = 2 then o.1 else o.1.bump kCOMP_UNEXPECTED n

/-- The conversions by SMODE (R90–R92), each with its passes. -/
def conversionCommands : List (Nat × (Nat → Nat → Instr) × (Conv → Nat → Nat → Nat → Module → ConvOut)) :=
  [(0, .conversionUnscaled, convUnscaled), (1, .conversionCurrent, fun t now r lead m => convCurrent t now r lead none m),
   (2, .conversionDelayed, convDelayed), (3, .conversionFixed, convFixed)]

/-- A dispatched descriptor, on a cluster that is ready if it has one. -/
structure Running (s : State) (r id : Nat) (x : Flight) : Prop where
  region : r < 16
  up : Up s
  here : (s.mod.work r).flight? id = some x
  dispatched : x.phase = 1
  ready : x.ready.isSome = true

/-- The fabric commands by FOP (R251). -/
def fabricCommands : List (Nat × (Nat → Nat → Instr)) :=
  [(opREAD, .fabricRead), (opWRITE, .fabricWrite), (opACCUM, .fabricAccum), (opGATHER, .fabricGather), (opREFETCH, .fabricRefetch),
   (opRELEASE, .fabricRelease), (opSTAGE, .fabricStage), (opCOLL, .fabricColl)]

/-- A flight's record with its end noted at this time. -/
def endedNow (x : Flight) (now st : Nat) : Flight := { x with phase := 2, status := st, flags := 0, aux := 0, endAt := max x.endAt now }


/-- The request frames that a region serves, by OP (R234). -/
def servedCommands : List (Nat × (Frame → Via → Instr)) :=
  [(opREAD, .read), (opWRITE, .write), (opACCUM, .accum), (opGATHER, .gather), (opREFETCH, .refetch), (opRELEASE, .release),
   (opSIGNAL, .signalFrame), (opSTAGE, .stage), (opCOLL, .coll)]

/-- A response that is well made (R233, R234, R236). -/
abbrev goodResponse (f : Frame) : Prop := f.ver = 1 ∧ f.rsp = true ∧ opReserved f.op = false ∧ rspLenOk f = true ∧ f.enc = false ∧ f.auth = false

/-- The reply commands of the pool and the kinds of request that each answers. -/
def poolCommands : List (List Nat × (Nat → PoolReply → Instr)) :=
  [([1], .poolQueryReply), ([2, 4, 5], .poolPutReply), ([3, 7], .poolGetReply), ([6], .poolCommitReply)]

/-- The tag and the pool request taken off the module's lists. -/
def freed (tag k : Nat) (m : Module) : Module :=
  (m.modFab (fun x => { x with reqs := x.reqs.filter (fun y => y.tag ≠ tag) })).modCuts (fun c => { c with pool := c.pool.filter (fun y => y.k ≠ k) })

/-- The message commands of Chanter by type (R209), each with what it does once its node has been heard (R210–R220). -/
def messageCommands : List (Nat × (Nat → ChMsg → Instr) × (Nat → Nat → ChMsg → Module → Module)) :=
  [(1, .delta, fun now src x => onFragment now src x (mergeDelta now src x)), (2, .result, fun now src x => onFragment now src x (adoptFragment now src x)),
   (3, .state, fun now src x => onFragment now src x (adoptFragment now src x)), (4, .ack, takeAck), (5, .resync, serveResync),
   (6, .probe, fun now src x => sendMsg now src { noMsg with type := 7, dstRegion := 0, w2 := x.w2 }), (7, .probeReply, fun _ _ _ m => m)]

/-- No decoded message of this kind waits for its own command. -/
abbrev NotWaiting (s : State) (src : Nat) (x : ChMsg) : Prop := ∀ e, e < 5 → (src, x) ∉ (s.mod.edge e).ready

/-- Every staged value of the groups that a commit selects, with its group (R284). -/
def stagedOf (m : Module) (mask : Nat) : List (Nat × Staged) := (selected m mask).flatMap (fun g => (m.grp g).items.map (fun x => (g, x)))

/-- What would stand after the whole commit, with the tables that it takes (R284). -/
def wouldStand (now : Nat) (m : Module) (mask : Nat) : Module :=
  takeTables ((stagedOf m mask).map (·.2)) (forL (stagedOf m mask) (clearErrors m) (fun x m => putStaged now x.2 m))

/-- What would stand after the commit, where `x` is the module before its values are put (R284). -/
def stoodOn (now : Nat) (m : Module) (mask : Nat) (x : Module) : Module :=
  takeTables ((stagedOf m mask).map (·.2)) (forL (stagedOf m mask) x (fun y x => putStaged now y.2 x))

/-- Drone's reading of the tables that a commit names, and of its firmware image's signature: what it leaves, and the refusal, if any (R134, R427). -/
def tablesRead (now : Nat) (m : Module) (mask : Nat) : Module × Option Bad := readTables now (wouldStand now m mask) (stagedOf m mask) (clearErrors m)
def imageChecked (now : Nat) (m : Module) (mask : Nat) : Module × Option Bad :=
  let x := (tablesRead now m mask).1
  checkImage now (stoodOn now m mask x) (stagedOf m mask) x

/-- The first reason to refuse a commit: a table that cannot be read, an image that the engine cannot check, a bad value (R284). -/
def refusalOf (now : Nat) (m : Module) (mask : Nat) : Option Bad :=
  let x := (imageChecked now m mask).1
  (tablesRead now m mask).2 <|> (imageChecked now m mask).2 <|> firstBad x (stoodOn now m mask x) (stagedOf m mask)

/-- The module's registers take a write of a source at once: die 0 is out of reset, and none of the source's earlier accesses to them is held (R286). -/
structure TakesModuleWrites (s : State) (src : Source) : Prop where
  heard : s.mod.dieInReset 0 = false
  first : ∀ h ∈ s.mod.heldAccess, askedBy h.asker h.frame = src → domainOf (regBlock h.frame) ≠ 32

/-- No selected group is in reset or claimed by another source (R284). -/
abbrev maySelect (m : Module) (src : Source) (mask : Nat) : Prop :=
  ∀ g ∈ selected m mask, groupInReset m g = false ∧ ((m.grp g).items = [] ∨ (m.grp g).claim = some src)

/-- A field packet that is dropped (R300, R301). -/
abbrev badPacket (p : FieldPkt) : Prop :=
  p.extHeaders = true ∨ p.udpOk = false ∨ p.dstPort ≠ 47210 ∨ p.payload.length < 24 ∨ (dictOfBytes p.payload).ver ≠ 1
    ∨ (dictOfBytes p.payload).kind = 0 ∨ 4 < (dictOfBytes p.payload).kind

/-- The answer to a dictionary request that came by no frame and from no field address (R301, R302). -/
def said (s : State) (src : Source) (x : DictMsg) (op st : Nat) (data : List Byte) (k : Nat) (m : Module) : Module :=
  (m.status st).emit (.dictAnswer src { dictAnswer s.time { x with op := op } st data with index := k / 256, sub := k % 256 })

/-- The state with this module when module time has moved on to d; where its cold reset has been asked for, the module restarts (R398). -/
def restarted (s : State) (d : Nat) (m : Module) : State :=
  match coldDue m with
  | none => { s with time := max s.time d, mod := m }
  | some o => { s with time := bootTime, mod := boot 0 (max s.time d) o (coldOff (max s.time d) 0 (max s.time d) m) }

/-- The commands that request a test, by KIND, target, mask and deadline (R411). -/
def requestCommands (target mask deadline : Nat) : List (Nat × Nat × Nat × Instr) :=
  [(1, mask, deadline, .logicTest target mask deadline), (2, 0, deadline, .memoryTest target deadline), (3, 0, 0, .portRecal target),
   (4, 0, deadline, .dramRecal target deadline)]

/-- The request that such a command queues (R411, R412). -/
def newRequest (s : State) (kind target mask deadline : Nat) : Bist :=
  { id := s.mod.test.nextId, kind := kind, region := target, mask := if kind = 1 then mask % 65536 else 0,
    empty := kind == 1 && mask % 65536 == 0, deadline := s.time + (if deadline = 0 then s.mod.num kBIST_DEADLINE_MS else deadline) * 1000000 }

/-- The module with such a request at the end of those that are pending. -/
def requested (s : State) (b : Bist) : Module :=
  { (quiet s).setNum kBIST_PENDING (s.mod.test.reqs.length + 1) with test := { s.mod.test with nextId := s.mod.test.nextId + 1, reqs := s.mod.test.reqs ++ [b] } }

end Sys2Proof.Claims

open Sys2Proof Sys2Proof.Machine Sys2Proof.Claims

/-! ### The queue and the step -/

/-- A step takes the command at the front of the queue and runs it on the state with the queue's rest. -/
def Obligations.StepTakesTheFront : Prop :=
  ∀ (c : Instr) (rest : List Instr) (s : State), step { s with pending := c :: rest } = exec c { s with pending := rest }

/-- With no command waiting the block lets one always-on tick of 80 ns pass (the model's choice, log entry 6). -/
def Obligations.IdleStepIsOneTick : Prop :=
  ∀ s : State, s.pending = [] → ∃ t, step s = .next t ∧ t.time = s.time + 80 ∧ t.pending = [] ∧ t.mod.nums = s.mod.nums
    ∧ (∀ r, t.mod.work r = s.mod.work r) ∧ t.mod.free = s.mod.free + 1

/-- No command touches the waiting commands. -/
def Obligations.CommandsLeaveTheQueue : Prop :=
  ∀ (c : Instr) (s t : State), exec c s = .next t → t.pending = s.pending

/-- A command completes exactly when the parts that it numbers exist; otherwise the one fault of the model names the
missing part. No command is refused (the fault is the model's, log entry 6). -/
def Obligations.OnlyMissingPartsStop : Prop :=
  ∀ (c : Instr) (s : State), (c.partsOk = true → ∃ t, exec c s = .next t) ∧ (c.partsOk = false → exec c s = .fault .noSuchPart)

/-- The queue at reset is empty, so that every command in it numbers existing parts. -/
def Obligations.QueueOkAtReset : Prop := QueueOk State.reset ∧ State.reset.pending = []

/-- A queue of commands that number existing parts never stops the module: every step goes on, and what is left in the
queue is again such a queue. -/
def Obligations.StepKeepsQueueOk : Prop :=
  ∀ s : State, QueueOk s → ∃ t, step s = .next t ∧ QueueOk t ∧ t.pending = s.pending.tail

/-- While Drone does not run, a command that needs it changes nothing (R374). -/
def Obligations.NothingActsBeforeDroneBoots : Prop :=
  ∀ (c : Instr) (s t : State), s.mod.env.droneUp = false → c.needsNoDrone = false → exec c s = .next t → t = { s with mod := quiet s }

/-- Module time never runs back, but for a command that may start the module anew (R2, R333). -/
def Obligations.TimeNeverRunsBack : Prop :=
  ∀ (c : Instr) (s t : State), c.startsAnew = false → exec c s = .next t → s.time ≤ t.time

/-! ### Power, start and resets -/

/-- COLD_START (R376, R425): the boot ROM starts the selected image where it passes its checks, else the other; Drone runs when
module time stands at 1,395 ms, and the start is counted unless the counters' area is worn (R421). With neither image it waits for a recovery image, and the alert line falls (R425).
IMAGE_LOAD and RECOVERY_IMAGE_CHECK (R425, R456): while the boot ROM waits, an image goes into its buffer; one that passes the
checks is put into slot 0, and Drone boots. -/
def Obligations.ColdStartBootsAGoodImage : Prop :=
  (∀ (obs : StartObs) (s : State), mayBoot s.mod obs = true →
    let a := bootFirst s.mod
    Ends (.coldStart obs) s fun t =>
      if slotCheck s.mod a = 0 ∨ slotCheck s.mod (1 - a) = 0 then
        t.time = 1395000000 ∧ t.mod.env.droneUp = true ∧ t.mod.env.bootWait = false ∧ t.mod.env.inputMv = obs.inputMv
          ∧ t.mod.flash.running = (if slotCheck s.mod a = 0 then a else 1 - a) ∧ t.mod.flash.coldStarts = s.mod.flash.coldStarts + (if s.mod.worn wearCount = true then 0 else 1)
      else t.mod.env.droneUp = false ∧ t.mod.env.bootWait = true ∧ t.mod.env.alertN = false ∧ t.mod.flash = s.mod.flash)
  ∧ (∀ (img : FwImage) (s : State), s.mod.env.bootWait = true → exec (.imageLoad img) s = .next (withMod s
      { quiet s with tap := { s.mod.tap with ir := 0x20, drive := false }, flash := { s.mod.flash with recovery := some img } }))
  ∧ (∀ (obs : StartObs) (img : FwImage) (s : State), s.mod.env.bootWait = true → s.mod.flash.recovery = some img →
      Ends (.recoveryImageCheck obs) s fun t =>
        if imageCheck s.mod img = 0 then t.time = 1395000000 ∧ t.mod.env.droneUp = true ∧ t.mod.flash.image0 = some img
        else t = withMod s { quiet s with flash := { s.mod.flash with recovery := none } })

/-- POWER_FAIL, RAILS_STOP, INPUT_VOLTAGE_HIGH and both thermal trips (R330, R342, R343, R371): in a power failure the gates fall to 0, pool requests are
abandoned, and the loss record will be in flash 900 µs later; input below 38 V stops the rails, and none puts the module off; high input is posted; a trip
temperature that has lasted starts the power-fail sequence with its cause.
LOSS_RECORD_WRITTEN (R372, R448): the record stands in the slot erased for it, and the module is off; with 44 V or more of input and
no thermal trip it starts again at once. -/
def Obligations.InputLossStopsTheModule : Prop :=
  (∀ (mv : Nat) (s : State), Up s → s.mod.bellows.failing = false → (mv < 42000 ∨ 66000 < mv) → Ends (.powerFail mv) s fun t =>
      t.time = s.time ∧ t.mod.bellows.failing = true ∧ t.mod.env.lossUntil = some (s.time + 900000) ∧ t.mod.env.inputMv = mv
        ∧ t.mod.env.lossCause = (if mv < 42000 then 1 else 2) ∧ t.mod.cuts.pool = [] ∧ ∀ r, r < 16 → (t.mod.rg r).power.gate = 0)
  ∧ (∀ (mv : Nat) (s : State), mv < 38000 → Ends (.railsStop mv) s fun t =>
      t.mod.env.rails = false ∧ t.mod.env.pwrgood = false ∧ t.mod.env.inputMv = mv ∧ (mv = 0 → t.mod.env.droneUp = false))
  ∧ (∀ (mv : Nat) (s : State), Up s → 64000 < mv →
      exec (.inputVoltageHigh mv) s = .next (withMod s (post s.time 7 4 srcBellows (leBytes 4 mv) (quiet s))))
  ∧ (∀ (r t0 : Nat) (milliC : Int) (s : State), r < 16 → Up s → s.mod.bellows.failing = false → 110000 ≤ milliC →
      (s.mod.rg r).power.logicTripSince = some t0 → Ends (.logicThermalTrip r milliC) s fun t =>
        t.time = max s.time (t0 + 100000) ∧ t.mod.env.trip = true ∧ t.mod.bellows.failing = true ∧ t.mod.env.lossCause = 3)
  ∧ (∀ (r t0 : Nat) (milliC : Int) (s : State), r < 16 → Up s → s.mod.bellows.failing = false → 100000 ≤ milliC →
      (s.mod.rg r).power.dramTripSince = some t0 → Ends (.dramThermalTrip r milliC) s fun t =>
        t.time = max s.time (t0 + 1000000) ∧ t.mod.env.trip = true ∧ t.mod.bellows.failing = true ∧ t.mod.env.lossCause = 4)
  ∧ (∀ (obs : StartObs) (d : Nat) (s : State), s.mod.env.lossUntil = some d →
    (obs.inputMv < 44000 → Ends (.lossRecordWritten obs) s fun t =>
      t.time = max s.time d ∧ t.mod.env.droneUp = false ∧ t.mod.flash.loss = Tab.put s.mod.flash.loss s.mod.flash.lossNext s.mod.env.lossRecord
        ∧ t.mod.flash.lossNext = (s.mod.flash.lossNext + 1) % 64 ∧ t.mod.nums = resetNums)
    ∧ (44000 ≤ obs.inputMv → s.mod.env.resetN = true → s.mod.env.trip = false → Ends (.lossRecordWritten obs) s fun t =>
      t.time = 1395000000 ∧ (t.mod.env.droneUp = true ∨ t.mod.env.bootWait = true)))

/-- RESET_N_LOW, RESET_N_RISE, RESET_MODULE_COLD and the held cold reset (R398, R453, R454): a low line puts the module off, its entries at their defaults, its
memory empty and its images kept, unless a loss record or a calibration set is being programmed; its rise starts the module; the request restarts it, is held during a
start, and waits for a commit in progress. -/
def Obligations.ColdResetsRestartTheModule : Prop :=
  (∀ s : State, s.mod.env.resetN = true → s.mod.env.lossUntil = none → s.mod.flash.calBusy = none → Ends .resetNLow s fun t =>
      t.mod.env.resetN = false ∧ t.mod.env.droneUp = false ∧ t.mod.env.trip = false ∧ t.mod.env.offCause = 1 ∧ t.mod.nums = resetNums ∧ (∀ r, (t.mod.rg r).stack.data = [])
        ∧ t.mod.flash.image0 = s.mod.flash.image0 ∧ t.mod.flash.image1 = s.mod.flash.image1)
  ∧ (∀ s : State, s.mod.env.resetN = true → (s.mod.env.lossUntil.isSome = true ∨ s.mod.flash.calBusy.isSome = true) →
      exec .resetNLow s = .next (withMod s { quiet s with env := { s.mod.env with resetN := false, resetPending := true } }))
  ∧ (∀ (obs : StartObs) (s : State), s.mod.env.resetN = false → s.mod.env.droneUp = false → s.mod.env.bootWait = false →
      s.mod.env.lossUntil = none → s.mod.env.trip = false → 44000 ≤ obs.inputMv → Ends (.resetNRise obs) s fun t =>
        t.time = 1395000000 ∧ t.mod.env.resetN = true ∧ (t.mod.env.droneUp = true ∨ t.mod.env.bootWait = true))
  ∧ (∀ (obs : StartObs) (s : State), Up s → s.mod.bellows.failing = false → s.mod.mstate ≠ 0 → NoCommit s → Ends (.resetModuleCold obs) s fun t =>
      t.time = 1395000000 ∧ (t.mod.env.droneUp = true ∨ t.mod.env.bootWait = true) ∧ t.mod.fabric = {})
  ∧ (∀ (obs : StartObs) (s : State), Up s → s.mod.bellows.failing = false → s.mod.mstate = 0 → NoCommit s →
      exec (.resetModuleCold obs) s = .next (withMod s { quiet s with env := { s.mod.env with resetAsked := some (2, obs) }, lastStatus := 0 }))
  ∧ (∀ (obs : StartObs) (s : State), Up s → s.mod.bellows.failing = false → commitBefore s.mod s.mod.nextHeld = true → Ends (.resetModuleCold obs) s fun t =>
      t.time = s.time ∧ t.mod.env = s.mod.env
        ∧ (8 ≤ s.mod.drone.parked.length → t = withMod s { quiet s with lastStatus := 9 })
        ∧ (s.mod.drone.parked.length < 8 → ∃ q ∈ t.mod.drone.parked, q.wait = 101 ∧ q.order = s.mod.nextHeld ∧ q.msg.data = [2] ∧ dkey q.msg.index q.msg.sub = kRESET_MODULE))

/-- RESET_REGION and RESET_DIE (R100, R398, R400): the region controller returns to its reset values but for HEARTBEAT, context 0 becomes active, the
region is disabled while its reset runs, and nothing stays staged in its strobe group; a die's reset does so to its four regions. A mask that is out
of range is refused. These writes, RUN_ENTER and STORE wait for a commit in progress, parked as dictionary writes are, at most 8 (R305, R307, R380).
RESET_MODULE_WARM (R378, R379): the module is STARTING, with its staging, rings, streams, stage queues and function cycles gone; during a start
the request is held.
RESET_COMPLETED and REGION_RECOVERY_LATE (R376, R397–R401): when a reset ends, the domain accepts work again as its disable control says, and
the module is in CONFIG after a warm reset and after a start, where a warm reset that was asked for meanwhile begins; a region that has not recovered within 100 ms is lost. -/
def Obligations.ResetsRunAndEnd : Prop :=
  (∀ (r : Nat) (s : State), r < 16 → Up s → mayReset s.mod (.region r) = true → NoCommit s → (s.mod.rg r).heldDesc = [] → Ends (.resetRegion (2 ^ r)) s fun t =>
      t.time = s.time ∧ t.mod.work r = (s.mod.work r).reset (s.mod.rg r).train.progs ∧ t.mod.fstate r = 2 ∧ t.mod.inReset r = true
        ∧ Tab.find? t.mod.staging r = none)
  ∧ (∀ (d : Nat) (s : State), d < 4 → Up s → mayReset s.mod (.die d) = true → NoCommit s → (∀ i, i < 4 → (s.mod.rg (4 * d + i)).heldDesc = []) →
      Ends (.resetDie (2 ^ d)) s fun t =>
        t.time = s.time ∧ t.mod.dieInReset d = true
          ∧ ∀ i, i < 4 → t.mod.work (4 * d + i) = (s.mod.work (4 * d + i)).reset (s.mod.rg (4 * d + i)).train.progs)
  ∧ (∀ (mask : Nat) (s : State), Up s → 65536 ≤ mask → exec (.resetRegion mask) s = .next (withMod s { quiet s with lastStatus := 2 }))
  ∧ (∀ (mask : Nat) (s : State), Up s → 256 ≤ mask → exec (.resetDie mask) s = .next (withMod s { quiet s with lastStatus := 2 }))
  ∧ (∀ (obs : StartObs) (s : State), Up s → s.mod.bellows.failing = false → (s.mod.mstate = 1 ∨ s.mod.mstate = 2) → NoCommit s → Ends (.resetModuleWarm obs) s fun t =>
      t.time = s.time ∧ t.mod.mstate = 0 ∧ t.mod.staging = [] ∧ t.mod.bridge = {} ∧ t.mod.chanter = {} ∧ t.mod.stageqs = [] ∧ t.mod.cycles = []
        ∧ t.mod.cuts.pool = [] ∧ t.mod.security.keys = [] ∧ t.mod.drone.eventLog = [])
  ∧ (∀ (obs : StartObs) (s : State), Up s → s.mod.bellows.failing = false → s.mod.mstate = 0 → s.mod.env.resetAsked = none → NoCommit s →
      exec (.resetModuleWarm obs) s = .next (withMod s { quiet s with env := { s.mod.env with resetAsked := some (1, obs) }, lastStatus := 0 }))
  ∧ (∀ (r : Nat) (x : ResetSt) (s : State), r < 16 → ending? s.mod (.region r) = some x → Ends (.resetCompleted (.region r)) s fun t =>
      t.time = max s.time (x.at_ + recoveryTime x.dom + ((x.obs.map StartObs.fuseMs).getD 0) * (if x.dom = .cold then ms else 0))
        ∧ t.mod.fstate r = (if s.mod.num (kREGION_DISABLE + r) = 1 then 3 else 0) ∧ ∀ y ∈ t.mod.resets, y.dom ≠ .region r)
  ∧ (∀ (d : Nat) (x : ResetSt) (s : State), d < 4 → ending? s.mod (.die d) = some x → Ends (.resetCompleted (.die d)) s fun t =>
      s.time ≤ t.time ∧ ∀ y ∈ t.mod.resets, y.dom ≠ .die d)
  ∧ (∀ (x : ResetSt) (s : State), ending? s.mod .warm = some x → s.mod.env.resetAsked = none → Ends (.resetCompleted .warm) s fun t =>
      s.time ≤ t.time ∧ t.mod.mstate = 1 ∧ ∀ y ∈ t.mod.resets, y.dom ≠ .warm)
  ∧ (∀ (x : ResetSt) (s : State), ending? s.mod .cold = some x → s.mod.env.resetAsked = none → Ends (.resetCompleted .cold) s fun t =>
      s.time ≤ t.time ∧ t.mod.mstate = 1 ∧ t.mod.resets = [])
  ∧ (∀ (d : Domain) (x : ResetSt) (obs : StartObs) (s : State), Up s → s.mod.bellows.failing = false → (d = .warm ∨ d = .cold) → ending? s.mod d = some x →
      s.mod.env.resetAsked = some (1, obs) → Ends (.resetCompleted d) s fun t => t.mod.mstate = 0 ∧ t.mod.env.resetAsked = none ∧ ∃ y ∈ t.mod.resets, y.dom = .warm ∧ y.obs = some obs)
  ∧ (∀ (v : Nat) (obs : StartObs) (s : State), Up s → commitBefore s.mod s.mod.nextHeld = true → ∀ p ∈ waitingWrites v obs,
      (8 ≤ s.mod.drone.parked.length → exec p.1 s = .next (withMod s { quiet s with lastStatus := 9 }))
      ∧ (s.mod.drone.parked.length < 8 → Ends p.1 s fun t => t.time = s.time ∧ t.mod.nums = s.mod.nums ∧ t.mod.flash = s.mod.flash ∧ t.mod.regions = s.mod.regions
          ∧ ∃ q ∈ t.mod.drone.parked, q.wait = 101 ∧ q.order = s.mod.nextHeld ∧ q.msg.data = p.2.2 ∧ dkey q.msg.index q.msg.sub = p.2.1))
  ∧ (∀ (r : Nat) (x : ResetSt) (s : State), r < 16 → Up s → regionReset? s.mod r = some x → Ends (.regionRecoveryLate r) s fun t =>
      t.time = max s.time (x.at_ + 100000000) ∧ t.mod.fstate r = 4 ∧ t.mod.env.regionsDown = setBit s.mod.env.regionsDown r
        ∧ ∀ y ∈ t.mod.resets, y.dom ≠ .region r)

/-! ### Functions in the disable cycle -/

/-- REGION_DISABLE, CTX_DISABLE and CHANTER_DISABLE (R395, R396): a function in service starts its drain, which ends DRAIN_TIMEOUT_MS later at the latest; a
value that the control does not have is refused.
DRAIN_END and DRAIN_TIMEOUT (R395, R396, R401): a region whose work has ended recovers for 20 ms, with its generation one higher, and then reads disabled, or lost; one
whose time has passed counts the timeout and recovers.
FUNCTION_ENABLE (R266, R397, R406): a disabled region serves again at once, unless self-test has failed it; a ring is enabled empty. -/
def Obligations.FunctionsLeaveAndReturn : Prop :=
  (∀ (r : Nat) (s : State), r < 16 → Up s → s.mod.fstate r = 0 → s.mod.inReset r = false → (s.mod.rg r).heldDesc = [] → Ends (.regionDisable r 1) s fun t =>
      t.time = s.time ∧ t.mod.fstate r = 1 ∧ t.mod.num (kREGION_DISABLE + r) = 1 ∧ t.mod.regions = s.mod.regions
        ∧ t.mod.cycles = s.mod.cycles ++ [{ func := .region r, until_ := s.time + s.mod.num kDRAIN_TIMEOUT_MS * 1000000 }])
  ∧ (∀ (r mask : Nat) (s : State), r < 16 → mask < 256 → Up s → s.mod.inReset r = false → Ends (.ctxDisable r mask) s fun t =>
      t.time = s.time ∧ t.mod.lastStatus = 0
        ∧ ∀ c, c < 8 → mask.testBit c = true → (s.mod.num (kCTX_DISABLE + r)).testBit c = false → t.mod.cycling (.context r c) = true)
  ∧ (∀ s : State, Up s → s.mod.moduleInReset = false → s.mod.num kCHANTER_FSTATE = 0 → exec (.chanterDisable 1) s = .next (withMod s
      { (quiet s).setNum kCHANTER_DISABLE 1 |>.setNum kCHANTER_FSTATE 1 with
          cycles := s.mod.cycles ++ [{ func := .chanter, until_ := s.time + s.mod.num kDRAIN_TIMEOUT_MS * 1000000 }], lastStatus := 0 }))
  ∧ (∀ (v : Nat) (s : State), Up s → v ≤ 1 → s.mod.moduleInReset = true → exec (.chanterDisable v) s = .next (withMod s { (quiet s).setNum kCHANTER_DISABLE v with lastStatus := 0 }))
  ∧ (∀ (r v : Nat) (s : State), r < 16 → Up s → 1 < v → exec (.regionDisable r v) s = .next (withMod s { quiet s with lastStatus := 2 }))
  ∧ (∀ (v : Nat) (s : State), Up s → 1 < v → exec (.chanterDisable v) s = .next (withMod s { quiet s with lastStatus := 2 }))
  ∧ (∀ (r : Nat) (x : Cycle) (s : State), r < 16 → Up s → s.mod.fstate r = 1 → s.mod.cycles.find? (fun y => y.func == .region r) = some x →
      (s.mod.work r).flights = [] → funcIdle s.mod (.region r) = true → Ends (.drainEnd (.region r)) s fun t =>
        t.time = s.time ∧ t.mod.fstate r = 2 ∧ t.mod.gen r = (s.mod.gen r + 1) % 256
          ∧ t.mod.cycles.find? (fun y => y.func == .region r) = some { x with aborted := 0, until_ := s.time + 20000000 })
  ∧ (∀ (r : Nat) (x : Cycle) (s : State), r < 16 → Up s → s.mod.fstate r = 2 → s.mod.cycles.find? (fun y => y.func == .region r) = some x →
      x.enableAfter = false → Ends (.drainEnd (.region r)) s fun t =>
        t.time = max s.time x.until_ ∧ t.mod.fstate r = (if s.mod.env.regionsDown.testBit r then 4 else 3) ∧ ∀ y ∈ t.mod.cycles, y.func ≠ .region r)
  ∧ (∀ (x : Cycle) (s : State), Up s → s.mod.cycles.find? (fun y => y.func == .chanter) = some x → x.enableAfter = false →
      Ends (.drainEnd .chanter) s fun t => t.mod.num kCHANTER_FSTATE = 3 ∧ ∀ y ∈ t.mod.cycles, y.func ≠ .chanter)
  ∧ (∀ (r : Nat) (x : Cycle) (s : State), r < 16 → Up s → s.mod.fstate r = 1 → s.mod.cycles.find? (fun y => y.func == .region r) = some x →
      testRuns s.mod r = false → Ends (.drainTimeout (.region r)) s fun t =>
        t.time = max s.time x.until_ ∧ t.mod.fstate r = 2 ∧ t.mod.num kDRAIN_TIMEOUTS = s.mod.num kDRAIN_TIMEOUTS + 1)
  ∧ (∀ (r : Nat) (s : State), r < 16 → Up s → s.mod.fstate r = 3 → s.mod.inReset r = false → s.mod.cycling (.region r) = false →
      let m := (quiet s).setNum (kREGION_DISABLE + r) 0
      exec (.functionEnable (.region r)) s = .next (withMod s
        { restall s.time (if s.mod.env.regionsDown.testBit r = true then m else m.setNum (kREGION_FSTATE + r) 0) with lastStatus := 0 }))
  ∧ (∀ (i : Nat) (s : State), i < 256 → Up s → (s.mod.ring i).enable = false → s.mod.cycling (.ring i) = false →
      exec (.functionEnable (.ring i)) s = .next (withMod s
        { (quiet s).modRing i (fun x => { x with enable := true, head := 0, tail := 0 }) with lastStatus := 0 }))

/-! ### Descriptor queues -/

/-- SUBMIT_DESCRIPTOR (R78): one that passes every check is in flight, at the end of the region's descriptors; another is refused with
the status of the first check that fails, and never counts as in flight.
The checks of R78 are made in their order: a region that refuses work, then the generation, then CLASS, UNIT, the queue and its
context, then the limit of 4,096 descriptors in flight. -/
def Obligations.SubmissionChecks : Prop :=
  (∀ (r : Nat) (d : Desc) (s : State), r < 16 → Up s → submitStatus s.mod r d = 0 → Ends (.submitDescriptor r d) s fun t =>
      t.time = s.time ∧ t.mod.lastStatus = 0 ∧ (∀ q, q ≠ r → t.mod.rg q = s.mod.rg q)
        ∧ t.mod.work r = { s.mod.work r with flights := (s.mod.work r).flights ++ [{ id := (s.mod.work r).nextId, d := d }],
                                              nextId := (s.mod.work r).nextId + 1, accepted := (s.mod.work r).accepted + 1 })
  ∧ (∀ (r : Nat) (d : Desc) (s : State), r < 16 → Up s → submitStatus s.mod r d ≠ 0 → Ends (.submitDescriptor r d) s fun t =>
      t.time = s.time ∧ t.mod.lastStatus = submitStatus s.mod r d ∧ (t.mod.work r).flights = (s.mod.work r).flights
        ∧ (t.mod.work r).accepted = (s.mod.work r).accepted ∧ (t.mod.work r).refused = sat32 ((s.mod.work r).refused + 1)
        ∧ (t.mod.work r).sync = (s.mod.work r).sync)
  ∧ (∀ (m : Module) (r : Nat) (d : Desc),
    let x := (m.work r).queue d.queue
    let off := m.mstate ≠ 2 ∨ m.fstate r ≠ 0 ∨ m.inReset r = true ∨ m.ctxFenced r d.ctx = true
    let wrong := d.cls = 0 ∨ 8 ≤ d.cls ∨ ((d.cls = 1 ∨ d.cls = 2) ∧ 8 ≤ d.unit ∧ d.unit < 14) ∨ x.enable = false ∨ d.ctx ≠ x.ctx
    (off → submitStatus m r d = 8)
    ∧ (¬off → d.gen ≠ m.gen r → submitStatus m r d = 3)
    ∧ (¬off → d.gen = m.gen r → wrong → submitStatus m r d = 2)
    ∧ (¬off → d.gen = m.gen r → ¬wrong → 4096 ≤ (m.work r).flights.length → submitStatus m r d = 7)
    ∧ (¬off → d.gen = m.gen r → ¬wrong → (m.work r).flights.length < 4096 → submitStatus m r d = 0))

/-- DISPATCH_DESCRIPTOR (R79, R80): a dispatchable head that no other queue's head goes before is dispatched at that time; a
body that its class refuses ends with 0x02 instead. -/
def Obligations.DispatchTakesTheHead : Prop :=
  ∀ (r q : Nat) (p : Plan) (s : State), r < 16 → q < 64 → Up s → plan s.mod r q = some p → beaten s.mod r q p = false →
    Ends (.dispatchDescriptor r q) s fun t =>
      t.time = s.time ∧ (t.mod.work r).dispatched = (s.mod.work r).dispatched + 1
        ∧ ∃ x, (t.mod.work r).flight? p.fl.id = some x ∧ x.start = s.time ∧ x.unit = p.unit
            ∧ x.phase = (if p.bad then 2 else 1) ∧ x.status = (if p.bad then 2 else 0)

/-- DESCRIPTOR_COMPLETE (R82, R83): a descriptor that ends with 0x00 increments its counter, by one and modulo 65,536, and no other; one that
ends otherwise halts its queue and increments none. -/
def Obligations.CompletionSignalsOrHalts : Prop :=
  ∀ (r id : Nat) (x : Flight) (s : State), r < 16 → Up s → (s.mod.work r).flight? id = some x → x.phase = 2 → (s.mod.rg r).heldDesc = [] →
    Ends (.descriptorComplete r id) s fun t =>
      t.time = max s.time x.endAt ∧ (t.mod.work r).lastCpl = t.time ∧ (t.mod.work r).accepted = (s.mod.work r).accepted
      ∧ (∀ k, (t.mod.work r).counter k = if x.status = 0 ∧ k = x.d.sig ∧ k < 255 then ((s.mod.work r).counter k + 1) % 65536 else (s.mod.work r).counter k)
      ∧ (x.status ≠ 0 → ((t.mod.work r).queue x.d.queue).halted = true)
      ∧ (x.status = 0 → ∀ q, ((t.mod.work r).queue q).halted = ((s.mod.work r).queue q).halted)

/-- QUEUE_HEAD_WRITE, RESUME and FLUSH (R83, R85, R99): HEAD takes the word's bits 19:0; RESUME clears HALTED; FLUSH discards what has
not been dispatched, adds its number to FLUSHED and clears HALTED; no other queue changes.
SYNC_COUNTER_WRITE (R82, R99): the counter takes the value's low 16 bits, and no other counter changes; a wait is satisfied when the
counter is ahead of its value by less than 32,768, modulo 65,536.
These and SWITCH are register writes (R286): refused with 0x09 while the region is in reset, held while its PLL is stopped or an earlier access of their source waits, and without an
answer while die 0 is in reset.
CLUSTER_FENCE_WRITE and CLUSTER_FENCED (R97, R414): with no logic test in the region the FENCE bits are those written, and FENCED bits
outside them fall; a fenced cluster without dispatched work gets its FENCED bit. -/
def Obligations.QueueAndCounterControls : Prop :=
  (∀ (r q word : Nat) (s : State), r < 16 → q < 64 → Up s → TakesWrites s r → (∀ x ∈ (s.mod.work r).ringWait, x.1 ≠ q) → (s.mod.rg r).heldDesc = [] →
      Ends (.queueHeadWrite r q word) s fun t =>
        t.mod.lastStatus = 0 ∧ (t.mod.work r).queue q = { (s.mod.work r).queue q with head := word % 2 ^ 20 }
          ∧ (∀ k, k ≠ q → (t.mod.work r).queue k = (s.mod.work r).queue k) ∧ ∀ k, k ≠ r → t.mod.rg k = s.mod.rg k)
  ∧ (∀ (r q : Nat) (s : State), r < 16 → q < 64 → Up s → TakesWrites s r → exec (.resume r q) s = .next (withMod s (restall s.time
      ((quiet s).modWork r (fun w => { w with queues := Tab.put w.queues q { w.queue q with halted := false } })))))
  ∧ (∀ (r q : Nat) (s : State), r < 16 → q < 64 → Up s → TakesWrites s r → (s.mod.rg r).heldDesc = [] → Ends (.flush r q) s fun t =>
      t.time = s.time ∧ ((t.mod.work r).queue q).halted = false ∧ (∀ k, k ≠ q → (t.mod.work r).queue k = (s.mod.work r).queue k)
        ∧ (∀ x, x ∈ (t.mod.work r).flights ↔ x ∈ (s.mod.work r).flights ∧ ¬(x.d.queue = q ∧ x.phase = 0))
        ∧ (t.mod.work r).flushed + (t.mod.work r).flights.length = (s.mod.work r).flushed + (s.mod.work r).flights.length
        ∧ (t.mod.work r).ringWait = (s.mod.work r).ringWait)
  ∧ (∀ (r k v : Nat) (s : State), r < 16 → k < 255 → Up s → TakesWrites s r → Ends (.syncCounterWrite r k v) s fun t =>
      t.mod = restall s.time ((quiet s).modWork r (fun w => w.setCounter k v)) ∧ (t.mod.work r).counter k = v % 65536
        ∧ ∀ j, j ≠ k → (t.mod.work r).counter j = (s.mod.work r).counter j)
  ∧ (∀ (w : Work) (c v : Nat), c < 255 → w.counter c < 65536 → v < 65536 →
      (w.waitOk c v = true ↔ ((w.counter c : Int) - (v : Int)) % 65536 < 32768))
  ∧ (∀ (r mask : Nat) (s : State), r < 16 → mask < 65536 → Up s → TakesWrites s r → (∀ b ∈ s.mod.test.reqs, b.kind ≠ 1 ∨ b.region ≠ r) → Ends (.clusterFenceWrite r mask) s fun t =>
      t.mod = restall s.time ((quiet s).modWork r (fun w => { w with fence := mask, fenced := w.fenced &&& mask })))
  ∧ (∀ (r c : Nat) (s : State), r < 16 → c < 16 → Up s → (s.mod.work r).fence.testBit c = true → s.mod.clusterBusy r c = false → s.mod.test.reqs = [] →
      Ends (.clusterFenced r c) s fun t => t.mod = (quiet s).modWork r (fun w => { w with fenced := setBit w.fenced c }))
  ∧ (∀ (r q k v : Nat) (s : State), r < 16 → q < 64 → k < 255 → Up s → ∀ x ∈ regionCommands s r q k v,
      (domainSilent s.mod r = true → exec x.1 s = .next (withMod s (quiet s)))
      ∧ (domainSilent s.mod r = false → s.mod.inReset r = true → exec x.1 s = .next (withMod s ((quiet s).status 9)))
      ∧ (domainSilent s.mod r = false → s.mod.inReset r = false → ¬TakesWrites s r →
          exec x.1 s = .next (withMod s (holdAccess s.time (.command s.mod.driver) (writeFrame (quiet s) (0x010 + r) x.2.1 4 x.2.2) .mesh (quiet s)))))

/-- SWITCH, QUANTUM_EXPIRY, SWITCH_DRAINED and SWITCH_COMPLETE (R96): a request while a switch is under way is kept, and only the latest;
the program store and the generators of the outgoing context are saved and those of the incoming one loaded; 25 µs later the context
is active, and a kept request acts. -/
def Obligations.ContextSwitches : Prop :=
  (∀ (r c : Nat) (s : State), r < 16 → c < 8 → Up s → TakesWrites s r → Ends (.switch r c) s fun t =>
      t.mod = restall s.time ((quiet s).modWork r (fun w =>
        if w.switching then { w with kept := some c } else if c = w.active then w else { w with switching := true, target := c, drainedAt := none })))
  ∧ (∀ (r : Nat) (s : State), r < 16 → Up s → (s.mod.work r).quantum ≠ 0 → Ends (.quantumExpiry r) s fun t =>
      t.time = max s.time ((s.mod.work r).quantumStart + (s.mod.work r).quantum * 1000000) ∧ (t.mod.work r).quantumStart = t.time
        ∧ (nextCtx s.mod r = none → (t.mod.work r).switching = (s.mod.work r).switching ∧ (t.mod.work r).kept = (s.mod.work r).kept)
        ∧ (∀ c, nextCtx s.mod r = some c → (s.mod.work r).switching = false → c ≠ (s.mod.work r).active →
            (t.mod.work r).switching = true ∧ (t.mod.work r).target = c))
  ∧ (∀ (r : Nat) (s : State), r < 16 → Up s → drained (s.mod.work r) = true → Ends (.switchDrained r) s fun t =>
      (t.mod.work r).drainedAt = some s.time ∧ (t.mod.work r).gens = (Tab.get {} (s.mod.work r).saved (s.mod.work r).target).gens
        ∧ (t.mod.rg r).train.progs = (Tab.get {} (s.mod.work r).saved (s.mod.work r).target).progs
        ∧ Tab.find? (t.mod.work r).saved (s.mod.work r).active = some { gens := (s.mod.work r).gens, progs := (s.mod.rg r).train.progs })
  ∧ (∀ (r d : Nat) (s : State), r < 16 → Up s → (s.mod.work r).switching = true → (s.mod.work r).drainedAt = some d → Ends (.switchComplete r) s fun t =>
      t.time = max s.time (d + 25000) ∧ (t.mod.work r).active = (s.mod.work r).target ∧ (t.mod.work r).kept = none
        ∧ ((t.mod.work r).switching = true ↔ ∃ c, (s.mod.work r).kept = some c ∧ c ≠ (s.mod.work r).target))

/-! ### Bonded memory -/

/-- The lossless block format loses nothing (R106–R109): every 256 B slot, encoded and expanded by its code, is the same 256 bytes; the
stored sectors are those of the code, and a reserved code expands to nothing (R101). -/
def Obligations.CompressionIsLossless : Prop :=
  (∀ bs : List Byte, bs.length = 256 → expandSlot (encodeSlot bs).1 (encodeSlot bs).2 = some bs ∧ (encodeSlot bs).1 ≤ 8
      ∧ (encodeSlot bs).2.length = 32 * sectorsOf (encodeSlot bs).1)
  ∧ (∀ (c : Nat) (st : List Byte), 8 < c → expandSlot c st = none)

/-- What is written into bonded memory is read back, and nothing else changes (R104, R105, R130): after a write without status, in a region with
no sector error, the range reads as the bytes written, every other byte of the data range reads as before, and so do the other stacks.
A range outside the data of the map is neither read nor written (R129): 0x02, and nothing changes. -/
def Obligations.MemoryReadsBack : Prop :=
  (∀ (now r q q' off : Nat) (bs : List Byte) (m m' : Module), (m.rg r).stack.errs = [] → memWrite now r q off bs m = (m', 0) →
    (memRead now r q' off bs.length m').2 = (0, bs) ∧ (m'.rg r).stack.errs = []
      ∧ (∀ a, a < dataEnd → (a < off ∨ off + bs.length ≤ a) → m'.peekB r a 1 = m.peekB r a 1)
      ∧ ∀ p, p ≠ r → (m'.rg p).stack = (m.rg p).stack)
  ∧ (∀ (now r q off len : Nat) (m : Module), 0x1800000000 < off + len → memRead now r q off len m = (m, 2, []))
  ∧ (∀ (now r q off : Nat) (bs : List Byte) (m : Module), 0x17F4000000 < off + bs.length → memWrite now r q off bs m = (m, 2))

/-! ### Units and the work they do -/

/-- The vector commands (R40–R42): a dispatched descriptor of the operation, on a unit whose cluster is ready and whose rows are next, runs;
its result, flags and status wait for its completion, its unit's sticky flags take the flags raised, and no other cluster changes. -/
def Obligations.VectorDescriptorsRun : Prop :=
  ∀ p ∈ vectorCommands, ∀ (r id : Nat) (x : Flight) (s : State), Ready s r id x → x.d.cls = 2 → (vecOf x.d).vop = p.1 →
    inRowOrder s.mod r x = true → Ends (p.2 r id) s fun t =>
      let u := x.unit.getD 0
      let v := runVector (vecOf x.d) (vmOf s.mod r x.d.cluster u)
      OnlyRegion s t r ∧ Worked t r id x v.2 v.1.flags.toNat 0
        ∧ (t.mod.cl r x.d.cluster).buf = v.1.x.buf ∧ (t.mod.un r x.d.cluster u).rows = v.1.un.rows
        ∧ (t.mod.un r x.d.cluster u).flags = v.1.un.flags ||| v.1.flags.toNat
        ∧ (∀ c, c ≠ x.d.cluster → t.mod.cl r c = s.mod.cl r c) ∧ (t.mod.rg r).stack = (s.mod.rg r).stack

/-- MATRIX_DESCRIPTOR (R23–R39, R46): as a vector descriptor, on the array; AUX gives the largest magnitude only after an epilogue. -/
def Obligations.MatrixDescriptorRuns : Prop :=
  ∀ (r id : Nat) (x : Flight) (s : State), Ready s r id x → x.d.cls = 1 → inRowOrder s.mod r x = true → Ends (.matrixDescriptor r id) s fun t =>
    let u := x.unit.getD 0
    let v := runMatrix (matOf x.d) (vmOf s.mod r x.d.cluster u)
    Worked t r id x v.2 v.1.flags.toNat (if (matOf x.d).epi ∧ v.2 = 0 then toF32 v.1.amax else 0)
      ∧ (t.mod.cl r x.d.cluster).buf = v.1.x.buf ∧ (t.mod.un r x.d.cluster u).rows = v.1.un.rows
      ∧ (t.mod.un r x.d.cluster u).flags = v.1.un.flags ||| v.1.flags.toNat
      ∧ (∀ c, c ≠ x.d.cluster → t.mod.cl r c = s.mod.cl r c) ∧ (t.mod.rg r).stack = (s.mod.rg r).stack
      ∧ ∀ q, q ≠ r → t.mod.rg q = s.mod.rg q

/-- The conversions and the moves (R88–R94, R110, R156): one that would write a part array of a state block ends with 0x02, counts
STATE_WRITE_REFUSED and writes nothing; any other runs, and its status waits for its completion. -/
def Obligations.ConversionsAndMovesRun : Prop :=
  (∀ p ∈ conversionCommands, ∀ (r id : Nat) (x : Flight) (s : State), r < 16 → Up s → (s.mod.work r).flight? id = some x → x.phase = 1 →
      x.ready.isSome = true → x.d.cls = 3 → (convOf x.d).smode = p.1 →
      ((convOf x.d).touches s.mod r = true → exec (p.2.1 r id) s = .next (withMod s (stateRefused r x (quiet s))))
      ∧ ((convOf x.d).touches s.mod r = false → Ends (p.2.1 r id) s fun t =>
          let o := p.2.2 (convOf x.d) s.time r x.d.cluster (quiet s)
          t.time = s.time ∧ (t.mod.rg r).stack = (o.1.rg r).stack ∧ (∀ c, t.mod.cl r c = { o.1.cl r c with bufWait := (t.mod.cl r c).bufWait })
            ∧ t.mod.nums = (counted s r x o).nums
            ∧ Worked t r id x o.2.1 o.2.2.1.toNat o.2.2.2))
  ∧ (∀ (k r id : Nat) (c : Instr) (x : Flight) (s : State), (k, c) ∈ [(0, Instr.move r id), (1, Instr.moveCompress r id)] → r < 16 → Up s →
      (s.mod.work r).flight? id = some x → x.phase = 1 → x.ready.isSome = true → x.d.cls = 4 → (mvOf x.d).cmode = k →
      ((mvOf x.d).touches s.mod r = true → exec c s = .next (withMod s (stateRefused r x (quiet s))))
      ∧ ((mvOf x.d).touches s.mod r = false → Ends c s fun t =>
          let o := runMove (k == 1) (mvOf x.d) s.time r x.d.cluster (quiet s)
          t.time = s.time ∧ (t.mod.rg r).stack = (o.1.rg r).stack ∧ (∀ c, t.mod.cl r c = { o.1.cl r c with bufWait := (t.mod.cl r c).bufWait }) ∧ t.mod.nums = o.1.nums
            ∧ Worked t r id x o.2 0 0))

/-- Any operation on a NaN gives a NaN and sets INVALID (R26): the element-wise operations with a NaN among the operands that they take.
The exceptions of R26 and the zeros of R40, by operation.
On input a subnormal element reads as zero of its sign, in every format that has subnormals (R53). -/
def Obligations.SpecialValues : Prop :=
  (∀ (v : Nat) (a b c : FV), vopKnown v = true → v ≤ 0x15 → (a = .nan ∨ (vopUsesB v = true ∧ b = .nan) ∨ (vopUsesC v = true ∧ c = .nan)) →
    (elementOp v a b c).1 = .nan ∧ (elementOp v a b c).2 &&& fINVALID = fINVALID)
  ∧ (∀ (n : Bool) (e : Int) (b c : FV), elementOp 0x12 (.num n 0 e) b c = (.inf n, fOVERFLOW) ∧ elementOp 0x13 (.num n 0 e) b c = (.inf n, fOVERFLOW)
      ∧ elementOp 0x11 (.num n 0 e) b c = (.inf true, fOVERFLOW) ∧ elementOp 0x14 (.num n 0 e) b c = (fvOne, 0) ∧ elementOp 0x10 (.num n 0 e) b c = (fvOne, 0))
  ∧ (∀ (m : Nat) (e : Int) (b c : FV), m ≠ 0 → elementOp 0x11 (.num true m e) b c = invalidNan ∧ elementOp 0x13 (.num true m e) b c = invalidNan)
  ∧ (∀ (n n' : Bool) (e : Int) (c : FV), elementOp 0x03 (.inf n) (.num n' 0 e) c = invalidNan ∧ elementOp 0x03 (.num n' 0 e) (.inf n) c = invalidNan
      ∧ elementOp 0x01 (.inf n) (.inf (!n)) c = invalidNan ∧ elementOp 0x02 (.inf n) (.inf n) c = invalidNan)
  ∧ (∀ (n : Bool) (c : FV), let z := fun (neg : Bool) => FV.num neg 0 0
      elementOp 0x05 (z n) (z (!n)) c = (z false, 0) ∧ elementOp 0x06 (z n) (z (!n)) c = (z true, 0))
  ∧ (∀ (code : Nat) (f : Fmt) (w : Nat), code ≤ 7 → fmtOf code = some f → (w >>> f.mbits) % 2 ^ f.ebits = 0 →
    decodeFmt f w = .num (w.testBit (f.mbits + f.ebits)) 0 0)

/-! ### Event and fabric descriptors -/

/-- SIGNAL, SET, IDLE_HINT and YIELD (R86, R96, R98) end at once: a counter of the region rises by VALUE or takes it, modulo 65,536; hints whose time has not
passed are kept for the clusters of CMASK; a switch is asked for. -/
def Obligations.EventsThatEndAtOnce : Prop :=
  (∀ (r id : Nat) (x : Flight) (s : State), Running s r id x → isEvent 2 x.d = true → evTarget x.d = 0 → evCnt x.d ≠ 255 → Ends (.signal r id) s fun t =>
      t.time = s.time ∧ Worked t r id x 0 0 0
        ∧ (t.mod.work r).counter (evCnt x.d) = ((s.mod.work r).counter (evCnt x.d) + evValue x.d) % 65536
        ∧ ∀ k, k ≠ evCnt x.d → (t.mod.work r).counter k = (s.mod.work r).counter k)
  ∧ (∀ (r id : Nat) (x : Flight) (s : State), Running s r id x → isEvent 2 x.d = true → evTarget x.d ≠ 0 → s.mod.kindOf (addrNode (evTarget x.d)) ≠ 0 →
      Ends (.signal r id) s fun t => Worked t r id x 2 0 0 ∧ (t.mod.work r).sync = (s.mod.work r).sync ∧ t.mod.fabric = s.mod.fabric)
  ∧ (∀ (r id : Nat) (x : Flight) (s : State), Running s r id x → isEvent 3 x.d = true → evCnt x.d ≠ 255 → Ends (.set r id) s fun t =>
      t.time = s.time ∧ Worked t r id x 0 0 0 ∧ (t.mod.work r).counter (evCnt x.d) = evValue x.d
        ∧ ∀ k, k ≠ evCnt x.d → (t.mod.work r).counter k = (s.mod.work r).counter k)
  ∧ (∀ (r id : Nat) (x : Flight) (s : State), Running s r id x → isEvent 5 x.d = true → Ends (.idleHint r id) s fun t =>
      t.time = s.time ∧ Worked t r id x 0 0 0 ∧ (t.mod.work r).hintMiss = (s.mod.work r).hintMiss
        ∧ (t.mod.work r).hints = (s.mod.work r).hints ++ (if s.time < evTime x.d then [(evMask x.d, evTime x.d, x.d.prio)] else []))
  ∧ (∀ (r id : Nat) (x : Flight) (s : State), Running s r id x → isEvent 7 x.d = true → Ends (.yield r id) s fun t =>
      t.time = s.time ∧ Worked t r id x 0 0 0 ∧ t.mod.work r = ((requestSwitch (evValue x.d % 8) (s.mod.work r)).modFlight x.id (fun y => endedNow y s.time 0)))

/-- FENCE, WAIT_UNTIL and LAUNCH with their ends (R86, R88): a fence waits until every earlier descriptor of its context has completed; a wait ends at
TIME, or at once when TIME has passed; a launch whose body breaks a check ends with 0x02; one that fetches its last
descriptor while the region has a place submits it and ends. -/
def Obligations.EventsThatWait : Prop :=
  (∀ (r id : Nat) (x : Flight) (s : State), Running s r id x → isEvent 1 x.d = true →
      exec (.fence r id) s = .next (withMod s ((quiet s).modFlight r x.id (fun y => { y with phase := 4 }))))
  ∧ (∀ (r id : Nat) (x : Flight) (s : State), Waiting s r id x → isEvent 1 x.d = true →
      exec (.fenceComplete r id) s = .next (withMod s
        (if ∀ y ∈ (s.mod.work r).flights, y.id < x.id → y.d.ctx = x.d.ctx → y.phase = 3 then restall s.time (admitHeld s.time r (complete s.time r { x with status := 0, endAt := s.time } (quiet s)))
         else quiet s)))
  ∧ (∀ (r id : Nat) (x : Flight) (s : State), Running s r id x → isEvent 4 x.d = true →
      exec (.waitUntil r id) s = .next (withMod s ((quiet s).modFlight r x.id (fun y =>
        if evTime x.d ≤ s.time then endedNow y s.time 0 else { y with phase := 4 }))))
  ∧ (∀ (r id : Nat) (x : Flight) (s : State), Waiting s r id x → isEvent 4 x.d = true →
      exec (.waitUntilExpiry r id) s = .next (atTime s (evTime x.d) (fun now m => restall now (admitHeld now r (complete now r { x with status := 0, endAt := now } m)))))
  ∧ (∀ (r id : Nat) (x : Flight) (s : State), Running s r id x → isEvent 6 x.d = true →
      (evCount x.d = 0 ∨ evTarget x.d % 64 ≠ 0 ∨ readable (evTarget x.d) (64 * evCount x.d) = false) →
      exec (.launch r id) s = .next (withMod s ((quiet s).modFlight r x.id (fun y => endedNow y s.time 2))))
  ∧ (∀ (c : Instr) (r id : Nat) (x : Flight) (s : State), (c = .launch r id ∧ Running s r id x ∨ c = .launchResume r id ∧ Waiting s r id x) →
      isEvent 6 x.d = true → evCount x.d ≠ 0 → evTarget x.d % 64 = 0 → readable (evTarget x.d) (64 * evCount x.d) = true → x.fetched + 1 = evCount x.d →
      s.mod.refusesWork r = false → (s.mod.work r).flights.length < 4096 →
      let a := memRead s.time r 0x0A (evTarget x.d + 64 * x.fetched) 64 (quiet s)
      a.2.1 = 0 → exec c s = .next (withMod s (restall s.time ((submit s.time r (Desc.ofBytes a.2.2) a.1).modFlight r x.id (fun y => endedNow y s.time 0)))))

/-- The fabric commands (R251, R252): a body that breaks the checks of its FOP, and one that would write a part array, end with 0x02 and
send nothing; any other is under way or, when nothing is outstanding, has ended.
A descriptor that one frame covers (R193, R241, R252, R254): the frame, with the bytes that its FOP sends, goes out under a tag of its region, and
the descriptor is under way; so does a contribution of one frame (R250). -/
def Obligations.FabricDescriptorsStart : Prop :=
  (∀ p ∈ fabricCommands, ∀ (r id : Nat) (x : Flight) (s : State), Running s r id x → isFabric p.1 x.d = true → (p.1 = opCOLL → s.mod.fabric.collWaiting = []) →
    ((fdOf x.d).ok s.mod r = false → exec (p.2 r id) s = .next (withMod s ((quiet s).modFlight r x.id (fun y => endedNow y s.time 2))))
    ∧ ((fdOf x.d).ok s.mod r = true → Ends (p.2 r id) s fun t =>
        t.time = s.time ∧ ∃ y, (t.mod.work r).flight? id = some y ∧ y.d = x.d ∧ (y.phase = 2 ∨ y.phase = 4)
          ∧ ((fdOf x.d).touches s.mod r = true → y.phase = 2 ∧ y.status = 2 ∧ t.mod.fabric = s.mod.fabric)
          ∧ ∀ k, (t.mod.work r).counter k = (s.mod.work r).counter k))
  ∧ (∀ p ∈ fabricCommands, ∀ (r id tag : Nat) (x : Flight) (s : State), Running s r id x → isFabric p.1 x.d = true → p.1 = opREAD ∨ p.1 = opGATHER →
    (fdOf x.d).ok s.mod r = true → (fdOf x.d).touches s.mod r = false → (fdOf x.d).len ≤ (fdOf x.d).unit s.mod → addrNode (fdOf x.d).raddr = s.mod.node →
    s.mod.newTag r = some tag → Ends (p.2 r id) s fun t =>
      (∃ y, (t.mod.work r).flight? id = some y ∧ y.phase = 4)
        ∧ ∃ q ∈ t.mod.fabric.reqs, q.tag = tag ∧ q.holder = r ∧ q.owner = .flight id 0 ∧ q.sentAt = s.time ∧ q.frame.addr = (fdOf x.d).raddr
            ∧ q.frame.op = p.1 ∧ q.frame.srcNode = s.mod.node)
  ∧ (∀ p ∈ fabricCommands, p.1 ≠ opCOLL → ∀ (r id tag : Nat) (x : Flight) (s : State), Running s r id x → isFabric p.1 x.d = true →
    (fdOf x.d).ok s.mod r = true → (fdOf x.d).touches s.mod r = false → (fdOf x.d).len ≤ (fdOf x.d).unit s.mod →
    let m := (if p.1 = opREFETCH then (quiet s).bump kREFETCHES ((fdOf x.d).len / 512) else quiet s).modFlight r x.id (fun y => { y with phase := 4 })
    let a := (fdOf x.d).frame s.time r 0 m
    a.2.1 = 0 → addrNode a.2.2.addr = s.mod.node → a.1.newTag r = some tag → Ends (p.2 r id) s fun t =>
      t.time = s.time ∧ (∃ y, (t.mod.work r).flight? id = some y ∧ y.phase = 4)
        ∧ (∃ q ∈ t.mod.fabric.reqs, q.tag = tag ∧ q.holder = r ∧ q.owner = .flight id 0 ∧ q.sentAt = s.time ∧ q.frame = { a.2.2 with tag := tag, gen := s.mod.gen r })
        ∧ (p.1 = opSTAGE → (t.mod.sq (fdOf x.d).group).nextOut = (s.mod.sq (fdOf x.d).group).nextOut + 1))
  ∧ (∀ (t : Fd) (now r : Nat) (m : Module), let f := (t.frame now r 0 m).2.2
    let n := min (t.unit m) t.len
    f.op = t.fop ∧ f.srcNode = m.node ∧ f.srcRegion = r
    ∧ (t.fop ≠ opSTAGE → f.addr = t.raddr)
    ∧ (t.fop = opREAD → f.aux = n ∧ f.body = [])
    ∧ (t.fop = opGATHER → f.aux = n / 512 ∧ f.body = [])
    ∧ (t.fop = opREFETCH ∨ t.fop = opRELEASE → f.aux = n / 512 ∧ f.body = (memRead now r 5 t.xaddr (4 * (n / 512)) m).2.2)
    ∧ (t.fop = opWRITE → f.body = (memRead now r 5 t.laddr n m).2.2)
    ∧ (t.fop = opACCUM → f.aux = t.aux ∧ f.fmt = t.fmt ∧ f.body = (memRead now r 5 t.laddr n m).2.2)
    ∧ (t.fop = opSTAGE → f.addr = (m.sqRec t.group).ring + (m.sq t.group).nextOut % (m.sqRec t.group).slots * ((m.sqRec t.group).entry * 256)
        ∧ f.group = (m.sqRec t.group).peerq ∧ f.cseq = (m.sq t.group).nextOut % 2 ^ 24 ∧ f.body = (memRead now r 5 t.laddr n m).2.2))
  ∧ (∀ (r id tag : Nat) (x : Flight) (to_ : (Nat × Nat) × Nat × Nat) (s : State), Running s r id x → isFabric opCOLL x.d = true →
    (fdOf x.d).ok s.mod r = true → (fdOf x.d).touches s.mod r = false → let d := fdOf x.d
    collSends (s.mod.collUnit (s.mod.members d.group)) d (s.mod.members d.group) = [to_] → addrNode (mkAddr to_.1.1 to_.1.2 to_.2.1) = s.mod.node →
    let a := memRead s.time r 5 (d.laddr + to_.2.1) to_.2.2 ((quiet s).modFlight r x.id (fun y => { y with phase := 4 }))
    a.2.1 = 0 → a.1.newTag r = some tag → Ends (.fabricColl r id) s fun t =>
      t.time = s.time ∧ ∃ q ∈ t.mod.fabric.reqs, q.tag = tag ∧ q.holder = r ∧ q.owner = .flight id 0 ∧ q.sentAt = s.time ∧ q.frame.op = opCOLL
        ∧ q.frame.addr = mkAddr to_.1.1 to_.1.2 to_.2.1 ∧ q.frame.group = d.group ∧ q.frame.cseq = d.cseq ∧ q.frame.body = a.2.2)

/-! ### Served frames -/

/-- What a frame meets before it is served (R236, R396): a malformed one is dropped and counted in BAD_FRAME, one for another node is
dropped and counted in MISROUTED, and a region in reset, disabled, draining or lost answers 0x08; one whose clock stands, or whose stack takes no further request yet under its rate limit (R339,
R343; the time between requests at full rate is a free value, log entry 179), holds it.
An answer to a requester of this module goes out on the mesh: the frame's own TAG, OP and GEN with RSP = 1 (R233, R234, R237). -/
def Obligations.FramesTurnedAway : Prop :=
  (∀ p ∈ servedCommands, ∀ (f : Frame) (s : State), Up s → (f, Via.mesh) ∉ s.mod.fabric.collWaiting →
    (badRequest p.1 f = true → exec (p.2 f .mesh) s = .next (withMod s ((quiet s).bump kBAD_FRAME 1)))
    ∧ (badRequest p.1 f = false → addrNode f.addr ≠ s.mod.node → exec (p.2 f .mesh) s = .next (withMod s ((quiet s).bump kMISROUTED 1)))
    ∧ (badRequest p.1 f = false → addrNode f.addr = s.mod.node → (s.mod.inReset (addrRegion f.addr) = true ∨ s.mod.fstate (addrRegion f.addr) ≠ 0) →
        (f, Via.mesh) ∉ (s.mod.rg (addrRegion f.addr)).held → (∀ d ∈ (s.mod.rg (addrRegion f.addr)).dups, d.isOf f = true → d.applying = false) →
        exec (p.2 f .mesh) s = .next (withMod s (respond s.time f 8 0 [] (quiet s)))))
  ∧ (∀ p ∈ servedCommands, p.1 ≠ opCOLL → ∀ (f : Frame) (s : State), Up s → Reaches s p.1 f →
      (regionHolds s.mod (addrRegion f.addr) = true ∨ (onStack p.1 = true ∧ s.time < (s.mod.rg (addrRegion f.addr)).power.paceUntil)) → Ends (p.2 f .mesh) s fun t =>
        t.time = s.time ∧ t.mod.out = [] ∧ (t.mod.rg (addrRegion f.addr)).held = (s.mod.rg (addrRegion f.addr)).held ++ [(f, .mesh)]
          ∧ (t.mod.rg (addrRegion f.addr)).stack = (s.mod.rg (addrRegion f.addr)).stack ∧ ∀ q, q ≠ addrRegion f.addr → t.mod.rg q = s.mod.rg q)
  ∧ (∀ (op : Nat) (f : Frame) (s : State), let p := (s.mod.rg (addrRegion f.addr)).power
      let q := ((taken s op f).rg (addrRegion f.addr)).power
      ((onStack op = false ∨ p.dramLimit = 0) → q.paceUntil = p.paceUntil ∧ (taken s op f).free = s.mod.free)
      ∧ (onStack op = true → p.dramLimit ≠ 0 → q.paceUntil = s.time + Config.delayNs s.mod.free * (2 ^ p.dramLimit - 1)))
  ∧ (∀ (now st aux : Nat) (f : Frame) (body : List Byte) (m : Module), f.srcNode = m.node → f.op ≠ opTIMING →
      respond now f st aux body m = m.emit (.frame .mesh (f.answer st aux body)))
  ∧ (∀ (st aux : Nat) (f : Frame) (body : List Byte), let a := f.answer st aux body
      a.rsp = true ∧ a.vc = 1 ∧ a.op = f.op ∧ a.tag = f.tag ∧ a.gen = f.gen ∧ a.srcNode = f.srcNode ∧ a.srcRegion = f.srcRegion ∧ a.addr = f.addr
        ∧ a.status = st ∧ a.aux = aux ∧ a.len = body.length ∧ a.body = body)

/-- READ, WRITE, SIGNAL, STAGE, CREDIT and COLL frames (R87, R193, R235, R237, R250): memory is read or written and the status answered; a counter
rises by AUX; an entry arrives in its queue; credits return; a contribution is combined. An expired record is dropped (R243). -/
def Obligations.MemoryFramesAreServed : Prop :=
  (∀ (f : Frame) (s : State), Up s → Served s opREAD f → f.stored = false → 1 ≤ f.aux → f.aux ≤ 4096 → readable (addrOff f.addr) f.aux = true →
      let a := memRead s.time (addrRegion f.addr) 5 (addrOff f.addr) f.aux (taken s opREAD f)
      exec (.read f .mesh) s = .next (withMod s (respond s.time f a.2.1 0 (if a.2.1 = 0 then a.2.2 else []) a.1)))
  ∧ (∀ (f : Frame) (s : State), Up s → Served s opWRITE f → writable (addrOff f.addr) f.len = true → touchesState s.mod (addrRegion f.addr) (addrOff f.addr) f.len = false →
      let a := memWrite s.time (addrRegion f.addr) 5 (addrOff f.addr) f.body (taken s opWRITE f)
      exec (.write f .mesh) s = .next (withMod s (respond s.time f a.2 0 [] (armNorm (addrRegion f.addr) (addrOff f.addr) f.len a.1))))
  ∧ (∀ (f : Frame) (s : State), Up s → Served s opWRITE f → (writable (addrOff f.addr) f.len = false ∨ touchesState s.mod (addrRegion f.addr) (addrOff f.addr) f.len = true) →
      Ends (.write f .mesh) s fun t => t.mod.regions = (taken s opWRITE f).regions)
  ∧ (∀ (f : Frame) (s : State), Up s → Served s opSIGNAL f → addrOff f.addr < 255 → Ends (.signalFrame f .mesh) s fun t =>
      t.time = s.time ∧ (t.mod.work (addrRegion f.addr)).counter (addrOff f.addr) = ((s.mod.work (addrRegion f.addr)).counter (addrOff f.addr) + f.aux) % 65536
        ∧ (∀ k, k ≠ addrOff f.addr → (t.mod.work (addrRegion f.addr)).counter k = (s.mod.work (addrRegion f.addr)).counter k)
        ∧ ∃ d, (t.mod.rg (addrRegion f.addr)).dups = (s.mod.rg (addrRegion f.addr)).dups ++ [d] ∧ d.tag = f.tag ∧ d.status = 0 ∧ d.at_ = s.time)
  ∧ (∀ (f : Frame) (i : Nat) (s : State), Up s → Served s opSTAGE f → i = f.group % 32 → queueLive s.mod i = true → (s.mod.sqRec i).out = false →
      f.cseq = (s.mod.sq i).arrivedN % 2 ^ 24 → (s.mod.sq i).arrivedN < (s.mod.sq i).freedN + (s.mod.sqRec i).slots → f.aux = 0 → 0 < f.len →
      f.len = (s.mod.sqRec i).entry * 256 → (∀ k, Tab.find? (s.mod.sq i).parts k = none) →
      let a := memWrite s.time (addrRegion (s.mod.sqRec i).ring) 5 (addrOff (s.mod.sqRec i).ring
        + (s.mod.sq i).arrivedN % (s.mod.sqRec i).slots * f.len) f.body (taken s opSTAGE f)
      Ends (.stage f .mesh) s fun t =>
        t.time = s.time ∧ (t.mod.sq i).arrivedN = (s.mod.sq i).arrivedN + (if a.2 = 0 then 1 else 0) ∧ (s.mod.sq i).freedN ≤ (t.mod.sq i).freedN
          ∧ (t.mod.sq i).refused = (s.mod.sq i).refused + (if a.2 = 0 then 0 else 1)
          ∧ (∀ r, (t.mod.rg r).stack = (a.1.rg r).stack)
          ∧ ∃ d, (t.mod.rg (addrRegion f.addr)).dups = (s.mod.rg (addrRegion f.addr)).dups ++ [d] ∧ d.tag = f.tag ∧ d.status = a.2)
  ∧ (∀ (f : Frame) (i : Nat) (s : State), Up s → badRequest opCREDIT f = false → addrNode f.addr = s.mod.node → s.mod.mstate = 2 → i = f.group % 32 →
      queueLive s.mod i = true → (s.mod.sqRec i).peer = f.srcNode → (s.mod.sqRec i).out = true → 0 < f.aux → Ends (.credit f .mesh) s fun t =>
        t.time = s.time ∧ (t.mod.sq i).credits = (s.mod.sq i).credits + min f.aux ((s.mod.sqRec i).slots - (s.mod.sq i).credits)
          ∧ (t.mod.sq i).arrivedN = (s.mod.sq i).arrivedN)
  ∧ (∀ (f : Frame) (i : Nat) (s : State), Up s → badRequest opCREDIT f = false → addrNode f.addr = s.mod.node → s.mod.mstate = 2 → i = f.group % 32 →
      queueLive s.mod i = true → (s.mod.sqRec i).peer = f.srcNode → (s.mod.sqRec i).out = false → f.aux = 0 →
      exec (.credit f .mesh) s = .next (withMod s (restall s.time (sendCredit s.time i ((s.mod.sqRec i).slots - ((s.mod.sq i).arrivedN - (s.mod.sq i).freedN)) (quiet s)))))
  ∧ (∀ (f : Frame) (s : State), Up s → Served s opCOLL f → rankOf (s.mod.members f.group) f.srcNode f.srcRegion = none →
      exec (.coll f .mesh) s = .next (withMod s (answerOnce s.time f 2 0 [] (taken s opCOLL f))))
  ∧ (∀ (f : Frame) (k : Nat) (s : State), Up s → Served s opCOLL f → rankOf (s.mod.members f.group) f.srcNode f.srcRegion = some k →
      (collMode f.cop = 3 ∨ f.cop % 4 ≠ 3) → f.fmt ≤ 1 → f.len % collElem f.cop f.fmt = 0 → f.aux ≠ 1 →
      collRoom s.mod (addrRegion f.addr) f.group f.cseq = true →
      exec (.coll f .mesh) s = .next (withMod s (collDrain s.time (collTake s.time (collPartOf (taken s opCOLL f) f) (answerOnce s.time f 0 0 [] (taken s opCOLL f))))))
  ∧ (∀ (r k : Nat) (d : DupRec) (s : State), r < 16 → Up s → (s.mod.rg r).dups[k]? = some d → d.applying = false → Ends (.dupRecordExpiry r k) s fun t =>
      t.time = max s.time (d.at_ + 200000) ∧ (t.mod.rg r).dups = dropNth (s.mod.rg r).dups k ∧ ∀ q, q ≠ r → t.mod.rg q = s.mod.rg q)

/-- ACCUM, GATHER, REFETCH and RELEASE frames (R163, R179): a contribution to a block is answered with its status, and one of another step, or to a
block that expects none, is refused and counted; a lease raises RELCOUNT of each block that can be read and a release lowers it; an address in no working copy answers 0x02. -/
def Obligations.TrainingFramesAreServed : Prop :=
  (∀ (f : Frame) (e : Extent) (b : Nat) (s : State), Up s → Served s opACCUM f → f.fmt ≤ 1 → f.body.length = accBytes f.fmt →
      blockOfHdr s.mod (addrRegion f.addr) (addrOff f.addr) = some (e, b) → b < e.blocks →
      let a := addGradient s.time (addrRegion f.addr) e b f.fmt f.aux f.body (taken s opACCUM f)
      exec (.accum f .mesh) s = .next (withMod s (answerOnce s.time f a.2 0 [] a.1)))
  ∧ (∀ (now r : Nat) (e : Extent) (b fmt step : Nat) (bs : List Byte) (m : Module),
      (step ≠ (m.normRec r).step % 2 ^ 32 → addGradient now r e b fmt step bs m = (m.bump kGRAD_STALE 1, 2))
      ∧ (step = (m.normRec r).step % 2 ^ 32 → e.expect = 0 → ∀ x hb, readPart now r 3 e b pHDR m = (x, some hb) →
          addGradient now r e b fmt step bs m = (x.bump kGRAD_EXTRA 1, 2)))
  ∧ (∀ (f : Frame) (e : Extent) (b : Nat) (s : State), Up s → Served s opGATHER f → blockOfWc s.mod (addrRegion f.addr) (addrOff f.addr) = some (e, b) →
      f.aux = 1 → b + 1 ≤ e.blocks → (s.mod.hdr (addrRegion f.addr) e b).relcount < 65535 →
      let a := gatherOne s.time (addrRegion f.addr) e b 0 f.stored (taken s opGATHER f, {})
      exec (.gather f .mesh) s = .next (withMod s (answerOnce s.time f a.2.st a.2.aux a.2.body (noteUnserved f a.2 a.1))))
  ∧ (∀ (now r : Nat) (e : Extent) (b i : Nat) (stored : Bool) (m x y : Module) (hb w : List Byte) (c : Copies),
      readPart now r 5 e b pHDR m = (x, some hb) → wcOf now r e (partAddr x r e b pWC) stored x = (y, some w) →
      gatherOne now r e b i stored (m, c) = (setHdr now r e b { hdrOf hb with relcount := (hdrOf hb).relcount + 1 } y,
        { c with vers := c.vers ++ [(hdrOf hb).version], data := c.data ++ w }))
  ∧ (∀ (f : Frame) (e : Extent) (b : Nat) (s : State), Up s → Served s opREFETCH f → blockOfWc s.mod (addrRegion f.addr) (addrOff f.addr) = some (e, b) →
      f.aux = 1 → b + 1 ≤ e.blocks →
      let a := refetchOne s.time (addrRegion f.addr) e b 0 (leAt f.body 0 4) f.stored (taken s opREFETCH f, {})
      exec (.refetch f .mesh) s = .next (withMod s (respond s.time f a.2.st a.2.aux a.2.body (noteUnserved f a.2 a.1))))
  ∧ (∀ (f : Frame) (e : Extent) (b : Nat) (s : State), Up s → Served s opRELEASE f → blockOfWc s.mod (addrRegion f.addr) (addrOff f.addr) = some (e, b) →
      f.aux = 1 → b + 1 ≤ e.blocks →
      let a := releaseOne s.time (addrRegion f.addr) e b (leAt f.body 0 4) (taken s opRELEASE f, 0)
      exec (.release f .mesh) s = .next (withMod s (answerOnce s.time f a.2 0 [] a.1)))
  ∧ (∀ (now r : Nat) (e : Extent) (b ver st : Nat) (m x : Module) (hb : List Byte), readPart now r 5 e b pHDR m = (x, some hb) →
      (ver = (hdrOf hb).version → 0 < (hdrOf hb).relcount →
        releaseOne now r e b ver (m, st) = (setHdr now r e b { hdrOf hb with relcount := (hdrOf hb).relcount - 1 } x, st))
      ∧ (ver ≠ (hdrOf hb).version → ((hdrOf hb).retained = false ∨ ver ≠ ((hdrOf hb).version + 2 ^ 32 - 1) % 2 ^ 32) →
        releaseOne now r e b ver (m, st) = (x.bump kRELEASE_STALE 1, st)))
  ∧ (∀ p ∈ [(opGATHER, Instr.gather), (opRELEASE, Instr.release)], ∀ (f : Frame) (s : State), Up s → Served s p.1 f →
      blockOfWc s.mod (addrRegion f.addr) (addrOff f.addr) = none → exec (p.2 f .mesh) s = .next (withMod s (answerOnce s.time f 2 0 [] (taken s p.1 f))))

/-- DESC, REG_RD, REG_WR, DICT, CHANTER and TIMING frames (R78, R255, R268, R277, R281, R312, R440): a descriptor is submitted and its status answered, and with
HOLDFULL a full region holds it for at most 5 ms; a register is read or written; a dictionary message enters its queue, or finds it full; a segment is
gathered, while die 0 is out of reset; a time stamp is kept, and the first TIMING frame of a node has nothing to confirm. -/
def Obligations.ModuleFramesAreServed : Prop :=
  (∀ (f : Frame) (r : Nat) (s : State), Up s → badRequest opDESC f = false → addrNode f.addr = s.mod.node → r = addrRegion f.addr → s.mod.inReset r = false →
      (s.mod.rg r).power.pllOff = false → (f, Via.mesh) ∉ (s.mod.rg r).held →
      (f.aux % 2 = 0 ∨ submitStatus s.mod r (Desc.ofBytes f.body) ≠ 7 →
        let m := restall s.time (submit s.time r (Desc.ofBytes f.body) ((quiet s).modR r (fun g => { g with lastServed := s.time })))
        exec (.desc f .mesh) s = .next (withMod s (respond s.time f m.lastStatus 0 [] m)))
      ∧ (f.aux % 2 = 1 → submitStatus s.mod r (Desc.ofBytes f.body) = 7 → (∀ x ∈ (s.mod.rg r).heldDesc, x.1 ≠ f) →
        exec (.desc f .mesh) s = .next (withMod s ((quiet s).modR r (fun g => { g with heldDesc := g.heldDesc ++ [(f, s.time)], lastServed := s.time })))))
  ∧ (∀ (r t0 : Nat) (f : Frame) (rest : List (Frame × Nat)) (s : State), r < 16 → Up s → (s.mod.rg r).heldDesc = (f, t0) :: rest →
      let now := max s.time (t0 + 5000000)
      let m := submit now r (Desc.ofBytes f.body) ((quiet s).modR r (fun g => { g with heldDesc := rest }))
      exec (.descHoldTimeout r) s = .next (atTime s (t0 + 5000000) (fun _ _ => respond now f m.lastStatus 0 [] (m.bump kDESC_HELD_NS (now - t0)))))
  ∧ (∀ (f : Frame) (s : State), Up s → (badRequest opREGRD f = false ∧ f.op = opREGRD ∨ badRequest opREGWR f = false ∧ f.op = opREGWR) →
      addrNode f.addr = s.mod.node → accessOk (f.addr % 2 ^ 41) (regWidth f) = true → domainSilent s.mod (domainOf (regBlock f)) = false →
      domainInReset s.mod (domainOf (regBlock f)) = false → accessWaits (quiet s) .frame f = false →
      (f.op = opREGRD → let a := regRead s.time (regBlock f) (f.addr % 65536) f.aux (quiet s)
        exec (.regRd f .mesh) s = .next (withMod s (respond s.time f 0 0 (leBytes f.aux a.2) a.1)))
      ∧ (f.op = opREGWR → let a := regWrite s.time (.requester f.srcNode f.srcRegion) (regBlock f) (f.addr % 65536) f.len (leNat f.body) (quiet s)
        exec (.regWr f .mesh) s = .next (withMod s (respond s.time f a.2 0 [] a.1))))
  ∧ (∀ (f : Frame) (s : State), Up s → badRequest opDICT f = false → addrNode f.addr = s.mod.node → leAt f.body 0 1 = 1 → leAt f.body 1 1 = 1 →
      s.mod.drone.bandQ.length < 4 →
      exec (.dict f .mesh) s = .next (withMod s ((quiet s).modDrone (fun d => { d with bandQ := d.bandQ ++
        [{ src := .requester f.srcNode f.srcRegion, msg := dictOfBytes f.body, addr := [], port := 0, frame := some (f, .mesh), arrived := s.time }] }))))
  ∧ (∀ (f : Frame) (s : State), Up s → badRequest opCHANTER f = false → f.seg < f.segs → f.segs ≤ 4095 → addrNode f.addr = s.mod.node → s.mod.mstate = 2 →
      exec (.chanter f .mesh) s = .next (withMod s (if s.mod.dieInReset 0 = true then quiet s else addSegment s.time (pathOf .mesh) f (quiet s))))
  ∧ (∀ (f : Frame) (s : State), Up s → badRequest opTIMING f = false → 8 ≤ f.body.length → f.mac.length = 16 → addrNode f.addr = s.mod.node →
      Tab.find? s.mod.security.timingSeen f.srcNode = none →
      let m := (quiet s).modSec (fun x => { x with timingSeen := Tab.put x.timingSeen f.srcNode (leBytes 8 (leAt f.mac 0 8)) })
      exec (.timing f .mesh) s = .next (withMod s (if s.mod.mstate = 2 ∧ Config.ptpAsks (f.body.take (f.body.length - 8)) = true then sendTiming s.time f.srcNode m else m)))

/-! ### Responses, tags, the pool -/

/-- FABRIC_RESPONSE and POOL (R236, R237, R359, R394): a response under an outstanding tag frees the tag and goes to the request's owner; one of no
outstanding tag, or of a past generation, is dropped and counted in LATE_REPLY, one for another node in MISROUTED. A module serves no pool request.
TAG_ACQUIRE (R241): the first request of a holder that waits takes a free tag and is sent; its wait adds to TAG_WAIT_NS. A tag is free while no request
and no quarantine holds it; the tags of region r are 8,192 r to 8,192 r + 8,191, and those that the regions share are 131,072 to 261,119. -/
def Obligations.ResponsesReachTheirOwner : Prop :=
  (∀ (f : Frame) (q : Req) (s : State), Up s → goodResponse f → f.srcNode = s.mod.node → s.mod.fabric.reqs.find? (fun y => y.tag == f.tag) = some q →
      q.frame.op = f.op → rspAgrees q.frame f = true → lateFor s.mod q f = false → ∀ c, c = .fabricResponse f .mesh ∨ (c = .pool f .mesh ∧ f.op = opPOOL) →
      exec c s = .next (withMod s
        (ownerTakes s.time q f ((quiet s).modFab (fun x => { x with reqs := x.reqs.filter (fun y => y.tag ≠ f.tag) })))))
  ∧ (∀ (f : Frame) (q : Req) (s : State), Up s → goodResponse f → f.srcNode = s.mod.node → s.mod.fabric.reqs.find? (fun y => y.tag == f.tag) = some q →
      lateFor s.mod q f = false → (q.frame.op ≠ f.op ∨ rspAgrees q.frame f = false) → exec (.fabricResponse f .mesh) s = .next (withMod s ((quiet s).bump kBAD_FRAME 1)))
  ∧ (∀ (f : Frame) (s : State), Up s → goodResponse f → f.srcNode = s.mod.node →
      (s.mod.fabric.reqs.find? (fun y => y.tag == f.tag) = none
        ∨ ∃ q, s.mod.fabric.reqs.find? (fun y => y.tag == f.tag) = some q
            ∧ (f.gen ≠ s.mod.holderGen q.holder ∨ (q.holder < 16 ∧ q.ctx < 8 ∧ s.mod.cgen q.holder q.ctx ≠ q.ctxGen))) →
      exec (.fabricResponse f .mesh) s = .next (withMod s ((quiet s).bump kLATE_REPLY 1)))
  ∧ (∀ (f : Frame) (s : State), Up s → goodResponse f → f.srcNode ≠ s.mod.node →
      exec (.fabricResponse f .mesh) s = .next (withMod s ((quiet s).bump kMISROUTED 1)))
  ∧ (∀ (f : Frame) (via : Via) (s : State), Up s → f.rsp = true → f.op = opPOOL → exec (.pool f via) s = exec (.fabricResponse f via) s)
  ∧ (∀ (f : Frame) (s : State), Up s → Served s opPOOL f → exec (.pool f .mesh) s = .next (withMod s (respond s.time f 2 0 [] (taken s opPOOL f))))
  ∧ (∀ (holder tag : Nat) (w : TagWait) (s : State), holder < 18 → Up s → s.mod.fabric.waiting.find? (fun x => x.holder == holder) = some w →
      s.mod.newTag holder = some tag → w.frame.rsp = false → addrNode w.frame.addr = s.mod.node → Ends (.tagAcquire holder) s fun t =>
        t.time = s.time ∧ t.mod.fabric.waiting = s.mod.fabric.waiting.erase w ∧ t.mod.num kTAG_WAIT_NS = s.mod.num kTAG_WAIT_NS + (s.time - w.since)
          ∧ ∃ q, t.mod.fabric.reqs = s.mod.fabric.reqs ++ [q] ∧ q.tag = tag ∧ q.holder = holder ∧ q.owner = w.owner ∧ q.sentAt = s.time)
  ∧ (∀ (holder : Nat) (s : State), holder < 18 → Up s → s.mod.fabric.waiting.find? (fun x => x.holder == holder) = none →
      exec (.tagAcquire holder) s = .next (withMod s (quiet s)))
  ∧ (∀ (m : Module) (holder tag : Nat), m.newTag holder = some tag → m.tagFree tag = true
      ∧ (holder < 16 → m.tagsHeld holder < 32768 ∧ ((8192 * holder ≤ tag ∧ tag < 8192 * holder + 8192) ∨ (131072 ≤ tag ∧ tag < 261120)))
      ∧ (16 ≤ holder → 261120 ≤ tag ∧ tag < 262144))

/-- REQUEST_TIMEOUT and TAG_QUARANTINE_END (R242): a request without a response within its class's timeout ends with 0x04, counted from its first
send: 100 µs, 10 ms or 50 ms; its tag is in quarantine for twice the timeout, is not free, and a response under it is dropped; then the tag is free. No request
of the memory or register class is sent again; a pool request is. -/
def Obligations.RequestsTimeOut : Prop :=
  (∀ (tag : Nat) (q : Req) (s : State), Up s → s.mod.fabric.reqs.find? (fun y => y.tag == tag) = some q → q.parked = false → poolOf s.mod tag = none →
      exec (.requestTimeout tag) s = .next (atTime s (q.sentAt + timeoutOf q.frame.op) (fun now m => ownerFails now q.holder q.owner 4
        ((m.bump kTIMEOUTS 1).modFab (fun x => { x with reqs := x.reqs.filter (fun y => y.tag ≠ tag), quarantine := x.quarantine ++ [(tag, now + 2 * timeoutOf q.frame.op)] })))))
  ∧ (∀ op, op ∈ [opREAD, opWRITE, opACCUM, opGATHER, opREFETCH, opRELEASE, opSIGNAL, opSTAGE, opCOLL] → timeoutOf op = 100000)
  ∧ (∀ op, op ∈ [opREGRD, opREGWR, opDICT, opDESC] → timeoutOf op = 10000000) ∧ timeoutOf opPOOL = 50000000
  ∧ (∀ (tag d : Nat) (s : State), Up s → s.mod.fabric.quarantine.find? (fun x => x.1 == tag) = some (tag, d) →
      s.mod.tagFree tag = false
      ∧ exec (.tagQuarantineEnd tag) s = .next (atTime s d (fun _ m => m.modFab (fun x => { x with quarantine := x.quarantine.filter (fun y => y.1 ≠ tag) }))))
  ∧ (∀ (f : Frame) (s : State), Up s → goodResponse f → f.srcNode = s.mod.node → (∀ q ∈ s.mod.fabric.reqs, q.tag ≠ f.tag) →
      exec (.fabricResponse f .mesh) s = .next (withMod s ((quiet s).bump kLATE_REPLY 1)))
  ∧ (∀ (now holder idx id : Nat) (m : Module), ownerFails now holder .none 4 m = m
      ∧ ownerFails now holder (.flight id idx) 4 m = fabricDone now holder id (noteResult holder id idx 4 0 m))
  ∧ (∀ (c : Instr) (tag : Nat) (q : Req) (p : PoolReq) (s : State), (c = .poolTimeout tag ∨ c = .requestTimeout tag ∧ q.frame.op = opPOOL) → Up s →
      s.mod.fabric.reqs.find? (fun y => y.tag == tag) = some q → q.parked = false → poolOf s.mod tag = some (q, p) → p.tries < 8 →
      let d := q.sentAt + 50000000
      exec c s = .next (atTime s d (fun now m =>
        let m := (m.bump kTIMEOUTS 1).modFab (fun x => { x with reqs := x.reqs.filter (fun y => y.tag ≠ tag), quarantine := x.quarantine ++ [(tag, now + 100000000)] })
        let m := m.modCuts (fun c => { c with pool := c.pool.map (fun y => if y.k = p.k then { y with tries := y.tries + 1 } else y) })
        let a := issue now p.region (.pool p.k) noCtx (m.mkReq opPOOL (p.region % 16) (m.holderGen p.region) (mkAddr p.node 0 0) 0 p.body) m
        if a.2 = 8 then poolFails now p (a.1.modCuts (fun c => { c with pool := c.pool.filter (fun y => y.k ≠ p.k) })) else a.1)))

/-- Replies of the pool (R149, R152, R352, R358): the tag is free, the request is done, and its work goes on as its kind and PSTATUS say: a shard that the
pool lacks is sent, a refusal fails the drain; the COMMIT reply makes the manifest durable; a refused recall leaves the
extent FAILED. A reply to no waiting request changes no work; one to a request of an older generation is dropped and counted.
DRAIN_SHARD and MANIFEST_WRITE (R350, R352, R357, R358): a region takes its next shard, digests it and asks the pool for it; a shard that cannot be read
fails the drain, as one whose extent is no longer listed does (the model's choice, log entry 170); outside RUN the drain waits (R379). When every region has drained, the manifest is signed and sent, and CUT_STATE is 2. -/
def Obligations.PoolDrainsAndReplies : Prop :=
  (∀ x ∈ poolCommands, ∀ (tag : Nat) (p : PoolReply) (q : Req) (y : PoolReq) (s : State), Up s → poolOf s.mod tag = some (q, y) → poolLate s.mod tag = false → y.kind ∈ x.1 →
      exec (x.2 tag p) s = .next (withMod s (poolDone s.time y p (freed tag y.k (quiet s)))))
  ∧ (∀ x ∈ poolCommands, ∀ (tag : Nat) (p : PoolReply) (s : State), Up s → poolOf s.mod tag = none → poolLate s.mod tag = false → Ends (x.2 tag p) s fun t =>
      t.time = s.time ∧ t.mod.nums = s.mod.nums ∧ t.mod.cuts = s.mod.cuts ∧ t.mod.regions = s.mod.regions)
  ∧ (∀ x ∈ poolCommands, ∀ (tag : Nat) (p : PoolReply) (s : State), Up s → poolLate s.mod tag = true → exec (x.2 tag p) s = .next (withMod s ((quiet s).bump kLATE_REPLY 1)))
  ∧ (∀ (now : Nat) (y : PoolReq) (p : PoolReply) (m : Module),
      (y.kind = 1 ∧ p.pstatus = 1 → poolDone now y p m = shardAbsent now y.region m)
      ∧ (y.kind = 1 ∧ 1 < p.pstatus → poolDone now y p m = drainFailed now y.region m)
      ∧ (y.kind = 3 ∧ p.pstatus ≠ 0 → poolDone now y p m = recallEnds now y.region y.item m)
      ∧ (y.kind = 4 ∧ p.pstatus ≠ 0 → poolDone now y p m = writeBackFailed now y.region y.item m)
      ∧ (y.kind = 6 ∧ p.pstatus = 0 → (poolDone now y p m).num kCUT_STATE = 3
          ∧ (poolDone now y p m).blob kMANIFEST_LAST = leBytes 8 (m.num kCUT_STEP) ++ m.cuts.digest.take 16))
  ∧ (∀ (now r : Nat) (m : Module), (drainFailed now r m).num kCUT_STATE = 4 ∧ ∀ q, q < 16 → ((drainFailed now r m).rg q).cut.failed = true)
  ∧ (∀ (r : Nat) (s : State), r < 16 → Up s → nextShard s.mod r = none → exec (.drainShard r) s = .next (withMod s (quiet s)))
  ∧ (∀ (r i first : Nat) (s : State), r < 16 → Up s → nextShard s.mod r = some (i, first) →
      (s.mod.mstate ≠ 2 → exec (.drainShard r) s = .next (withMod s (quiet s)))
      ∧ (s.mod.mstate = 2 → s.mod.extent? r i = none → exec (.drainShard r) s = .next (withMod s (drainFailed s.time r (quiet s)))))
  ∧ (∀ (r i first : Nat) (e : Extent) (s : State), r < 16 → Up s → s.mod.mstate = 2 → nextShard s.mod r = some (i, first) →
      s.mod.extent? r i = some e → s.mod.num kCUT_STATE = 1 → (s.mod.rg r).cut.drain = none → (s.mod.rg r).cut.failed = false → needsWriteBack s.mod r e = false →
      (∀ b, b < min 4096 (e.blocks - first) → (s.mod.hdr r e (first + b)).pending = false) →
      exec (.drainShard r) s = .next (withMod s (match shardBody s.time r e first (min 4096 (e.blocks - first)) (quiet s) with
        | (m, none) => drainFailed s.time r m
        | (m, some body) =>
          let a := poolSend s.time r 1 0 0 (m.snapNum kPOOL_NODE) (poolHeader 2 0 0 0 (shake256 32 body)) (m.modCut r (fun c => { c with
            shards := c.shards.erase (i, first)
            drain := some { ext := i, first := first, count := min 4096 (e.blocks - first), size := body.length, digest := shake256 32 body } }))
          if a.2 then a.1 else drainFailed s.time r a.1)))
  ∧ (∀ s : State, Up s → drainEnded s.mod = false → exec .manifestWrite s = .next (withMod s (quiet s)))
  ∧ (∀ s : State, Up s → drainEnded s.mod = true → exec .manifestWrite s = .next (withMod s
      (match engineSign s.time (manifestBody s.mod) ((quiet s).setNum kCUT_STATE 2) with
       | (m, none) => drainFailed s.time 0 m
       | (m, some sig) =>
         let a := poolPut s.time 16 5 0 (m.snapNum kPOOL_NODE) (shake256 32 (manifestBody s.mod)) (manifestBody s.mod ++ manifestBlock sig) (m.modCuts (fun c => { c with
           digest := shake256 32 (manifestBody s.mod), putLeft := poolPieces m (m.snapNum kPOOL_NODE) (manifestBody s.mod ++ manifestBlock sig) }))
         if a.2 then a.1 else drainFailed s.time 0 a.1)))

/-! ### Cuts, restore, the slow tier -/

/-- CUT_AT (R361, R362): refused while the policy in force is 0, which a commit in RUN changes from the next step close (R382); a step not above STEP_CLOSED is refused and counted in CUT_LATE; one above the pending step
changes nothing; any other is the pending step.
RESTORE_GO, RESTORE_VERIFIED and RESTORE_APPLIED (R364, R365): a restore is refused while a region holds a descriptor; it asks the pool for the
manifest under RESTORE_KEY; a failed check leaves RESTORE_STATUS 5, and only a verified manifest is applied. -/
def Obligations.CutsAndRestores : Prop :=
  (∀ (v : Nat) (s : State), Up s →
    (s.mod.snapNum kSNAP_POLICY = 0 → exec (.cutAt v) s = .next (withMod s ((quiet s).status 8)))
    ∧ (s.mod.snapNum kSNAP_POLICY ≠ 0 → v ≤ s.mod.stepClosed → exec (.cutAt v) s = .next (withMod s (((quiet s).bump kCUT_LATE 1).status 2)))
    ∧ (s.mod.snapNum kSNAP_POLICY ≠ 0 → s.mod.stepClosed < v → s.mod.num kCUT_AT ≠ 0 → s.mod.num kCUT_AT < v → exec (.cutAt v) s = .next (withMod s ((quiet s).status 0)))
    ∧ (s.mod.snapNum kSNAP_POLICY ≠ 0 → s.mod.stepClosed < v → (s.mod.num kCUT_AT = 0 ∨ v ≤ s.mod.num kCUT_AT) →
        exec (.cutAt v) s = .next (withMod s (((quiet s).setNum kCUT_AT v).status 0))))
  ∧ (∀ (r : Nat) (s : State), Up s → r < 16 → (s.mod.work r).flights ≠ [] → exec (.restoreGo 1) s = .next (withMod s ((quiet s).status 9)))
  ∧ (∀ s : State, Up s → exec (.restoreGo 0) s = .next (withMod s ((quiet s).status 0)))
  ∧ (∀ (v : Nat) (s : State), Up s → 1 < v → exec (.restoreGo v) s = .next (withMod s ((quiet s).status 2)))
  ∧ (∀ s : State, Up s → (∀ r, r < 16 → (s.mod.work r).flights = []) →
      let a := poolSend s.time 16 7 0 0 (s.mod.snapNum kPOOL_NODE) (poolHeader 3 0 0 0 (s.mod.blob kRESTORE_KEY)) ((((quiet s).setNum kRESTORE_STATUS 1).setBlob kRESTORE_BAD []).modCuts
        (fun c => { c with pool := c.pool.filter (fun p => p.kind ≠ 7), mode := s.mod.num kRESTORE_MODE, restore := [], data := [], next := 0, passed := false, bad := [], resync := [], toSkip := [] }))
      exec (.restoreGo 1) s = .next (withMod s ((if a.2 then a.1 else manifestBad 1 a.1).status 0)))
  ∧ (∀ s : State, Up s → s.mod.num kRESTORE_STATUS = 1 → s.mod.cuts.passed = true → s.mod.cuts.bad ≠ [] →
      exec .restoreVerified s = .next (withMod s ((quiet s).setNum kRESTORE_STATUS 5)))
  ∧ (∀ s : State, Up s → s.mod.num kRESTORE_STATUS = 1 → s.mod.cuts.passed = true → s.mod.cuts.bad = [] →
      exec .restoreVerified s = .next (withMod s (startPass s.time ((quiet s).setNum kRESTORE_STATUS 2))))
  ∧ (∀ s : State, Up s → s.mod.num kRESTORE_STATUS = 2 → s.mod.cuts.passed = true → exec .restoreApplied s = .next (withMod s (restoreEnds s.time (quiet s))))
  ∧ (∀ (c : Instr) (s : State), (c = .restoreVerified ∧ (s.mod.num kRESTORE_STATUS ≠ 1 ∨ s.mod.cuts.passed = false)
        ∨ c = .restoreApplied ∧ (s.mod.num kRESTORE_STATUS ≠ 2 ∨ s.mod.cuts.passed = false)) → Up s → exec c s = .next (withMod s (quiet s)))

/-- RECALL_ARRIVAL, RECALL_DEADLINE_EXPIRY, WRITE_BACK and TIER_FLUSH (R149, R151, R152): an object whose digest is KEY goes into its frame and the extent is
WARM (after a restore, first the object of its present exchange parts, log entry 172), any other, or one that cannot be written, leaves it FAILED with an event, without a deadline, and the recalls that wait take the frames that are free; a missed deadline is counted; a DIRTY extent is WRITING and its object goes to the pool; a flush does so for every entry. -/
def Obligations.TierCommands : Prop :=
  (∀ (r i : Nat) (x : Recall) (s : State), r < 16 → Up s → (s.mod.rg r).tier.recalls.find? (fun y => y.entry == i) = some x → x.full = true →
      let m := (quiet s).modTier r (fun y => { y with recalls := y.recalls.filter (fun x => x.entry ≠ i) })
      let t := s.mod.tierEnt r i
      let key := recallKey s.mod r i
      let fix := Tab.find? (s.mod.rg r).tier.fixes i
      let a := placeObject s.time r 8 (frameAt m r t) (coldSlots t) x.data m
      ((shake256 32 x.data).take 16 = key → (∀ f, fix = some f → f.old = []) → a.2 = true → exec (.recallArrival r i) s = .next (withMod s (recallDone s.time r i a.1)))
      ∧ ((shake256 32 x.data).take 16 = key → (∀ f, fix = some f → f.old = []) → a.2 = false → exec (.recallArrival r i) s = .next (withMod s (recallEnds s.time r i a.1)))
      ∧ (∀ f, fix = some f → f.old ≠ [] → (shake256 32 x.data).take 16 = key → exec (.recallArrival r i) s = .next (withMod s (presentArrived s.time r i f x.data m)))
      ∧ ((shake256 32 x.data).take 16 ≠ key → exec (.recallArrival r i) s = .next (withMod s
        (serveFrames s.time r (post s.time 2 7 (srcRegion r) (leBytes 2 i ++ zeros 2 ++ key.take 8) (setFailed s.time r i m))))))
  ∧ (∀ (now r i : Nat) (m : Module), Tab.find? (m.rg r).tier.fixes i = none → recallKey m r i = (m.tierEnt r i).key
      ∧ recallDone now r i m = serveFrames now r ((setTier now r i { m.tierEnt r i with state := 2 } (m.bump kRECALLS 1)).modTier r (fun y =>
          { y with late := y.late.filter (· ≠ i), deadlines := Tab.del y.deadlines i, fixes := Tab.del y.fixes i })))
  ∧ (∀ (now r i : Nat) (m : Module), (∀ x ∈ ((setFailed now r i m).rg r).tier.recalls, x.entry ≠ i) ∧ (∀ f ∈ ((setFailed now r i m).rg r).tier.frames, f.2 ≠ i)
      ∧ Tab.find? ((setFailed now r i m).rg r).tier.deadlines i = none)
  ∧ (∀ (r i d : Nat) (s : State), r < 16 → Up s → Tab.find? (s.mod.rg r).tier.deadlines i = some d →
      ((2 ≤ (s.mod.tierEnt r i).state ∧ (s.mod.tierEnt r i).state ≤ 4) →
        exec (.recallDeadlineExpiry r i) s = .next (atTime s d (fun _ m => m.modTier r (fun y => { y with deadlines := Tab.del y.deadlines i }))))
      ∧ (((s.mod.tierEnt r i).state < 2 ∨ 4 < (s.mod.tierEnt r i).state) → (∀ x ∈ (s.mod.work r).flights, x.d.cls ≠ 5) → Ends (.recallDeadlineExpiry r i) s fun t =>
          t.time = max s.time d ∧ t.mod.num kRECALL_LATE = s.mod.num kRECALL_LATE + 1 ∧ i ∈ (t.mod.rg r).tier.late ∧ Tab.find? (t.mod.rg r).tier.deadlines i = none
            ∧ (t.mod.rg r).work = (s.mod.rg r).work ∧ (t.mod.rg r).stack = (s.mod.rg r).stack))
  ∧ (∀ (r i : Nat) (s : State), r < 16 → Up s → (s.mod.num (kTIER_CFG + r) = 0 ∨ (s.mod.tierEnt r i).state ≠ 3) → exec (.writeBack r i) s = .next (withMod s (quiet s)))
  ∧ (∀ (r i : Nat) (s : State), r < 16 → Up s → s.mod.num (kTIER_CFG + r) ≠ 0 → (s.mod.tierEnt r i).state = 3 →
      let w := setTier s.time r i { s.mod.tierEnt r i with state := 4 } (quiet s)
      exec (.writeBack r i) s = .next (withMod s (match storedObject s.time r 8 (frameAt w r (s.mod.tierEnt r i)) (coldSlots (s.mod.tierEnt r i)) w with
        | (m, none) => writeBackFailed s.time r i m
        | (m, some obj) =>
          let x := m.modTier r (fun x => { x with writes := x.writes ++ [{ entry := i, key := (shake256 32 obj).take 16, left := poolPieces m (m.tierHdr r).pool obj }] })
          let a := poolPut s.time r 4 i (x.tierHdr r).pool ((shake256 32 obj).take 16) obj x
          if a.2 then a.1 else writeBackFailed s.time r i a.1)))
  ∧ (∀ (r v : Nat) (s : State), r < 16 → Up s →
      (1 < v → exec (.tierFlush r v) s = .next (withMod s ((quiet s).status 2)))
      ∧ (v ≤ 1 → (v = 0 ∨ s.mod.num (kTIER_CFG + r) = 0) → exec (.tierFlush r v) s = .next (withMod s ((quiet s).status 0)))
      ∧ (v = 1 → s.mod.num (kTIER_CFG + r) ≠ 0 →
          exec (.tierFlush r v) s = .next (withMod s ((forN (s.mod.tierHdr r).entries (quiet s) (fun i m => startWriteBack s.time r i m)).status 0))))

/-! ### Links, ports, edge interfaces -/

/-- LINK_ACK, LINK_NAK, LINK_REPLAY_TIMEOUT, LINK_CREDIT, LINK_FRAME_RECEIVE and ACK_SEND_TIMER (R238, R240): frames up to the acknowledged one are freed; a NAK, or
1.5 µs without an acknowledgement, replays what is left, and after four replays of one frame the port retrains; credits return up to 768; a frame in sequence is taken and owed an acknowledgement
within 0.5 µs; a gap draws one NAK. -/
def Obligations.LinksDeliverInOrder : Prop :=
  (∀ (p seq t0 : Nat) (f : Frame) (pre post : List (Nat × Frame × Nat)) (s : State), p < 96 → Up s → s.mod.linked p = true →
      (s.mod.port p).unacked = pre ++ (seq, f, t0) :: post → (∀ u ∈ pre, u.1 ≠ seq) →
      let m := freeUnacked p (pre.length + 1) (quiet s)
      (m.port p).unacked = post ∧ (m.port p).waiting = (s.mod.port p).waiting ∧ (∀ q, q ≠ p → m.port q = s.mod.port q)
        ∧ exec (.linkAck p seq) s = .next (withMod s (flushWaiting s.time p m)))
  ∧ (∀ (p seq : Nat) (s : State), p < 96 → Up s →
      (s.mod.linked p = false → exec (.linkAck p seq) s = .next (withMod s (quiet s)))
      ∧ (s.mod.linked p = true → (∀ u ∈ (s.mod.port p).unacked, u.1 ≠ seq) → exec (.linkAck p seq) s = .next (withMod s (flushWaiting s.time p (quiet s)))))
  ∧ (∀ (now p : Nat) (m : Module), ((m.port p).waiting = [] ∨ m.up p = false) → flushWaiting now p m = m)
  ∧ (∀ (c : Instr) (p seq t0 d : Nat) (f : Frame) (post : List (Nat × Frame × Nat)) (s : State), p < 96 → Up s → s.mod.linked p = true →
      (s.mod.port p).unacked = (seq, f, t0) :: post → (c = .linkNak p seq ∧ d = 0 ∨ c = .linkReplayTimeout p ∧ d = t0 + 1500) →
      ((s.mod.port p).replays < 4 → Ends c s fun t => t.time = max s.time d
          ∧ (t.mod.port p).replayed = (s.mod.port p).unacked.foldl (fun x u => Tab.put x u.1 (Tab.get 0 x u.1 + 1)) (s.mod.port p).replayed
          ∧ (t.mod.port p).unacked = (s.mod.port p).unacked.map (fun u => (u.1, u.2.1, max s.time d)) ∧ t.mod.num (kREPLAYS + p) = s.mod.num (kREPLAYS + p) + 1)
      ∧ (4 ≤ (s.mod.port p).replays → exec c s = .next (atTime s d (fun now m => linkLost now p m))))
  ∧ (∀ (p vc n : Nat) (s : State), p < 96 → vc < 4 → Up s → (s.mod.port p).waiting = [] → Ends (.linkCredit p vc n) s fun t =>
      t.time = s.time ∧ (t.mod.port p).credit vc = min 768 ((s.mod.port p).credit vc + n) ∧ (∀ v, v ≠ vc → (t.mod.port p).credit v = (s.mod.port p).credit v)
        ∧ ∀ q, q ≠ p → t.mod.port q = s.mod.port q)
  ∧ (∀ (p : Nat) (f : Frame) (s : State), p < 96 → Up s → s.mod.linked p = true → s.mod.protectsPort p = false → f.enc = false → f.auth = false →
      exec (.linkFrameReceive p (s.mod.port p).recvSeq true f) s = .next (withMod s ((quiet s).modPort p (fun x =>
        { x with recvSeq := (x.recvSeq + 1) % 4096, nakSent := false, ackDue := true, ackAt := if x.ackDue then x.ackAt else s.time + 500, rx := x.rx ++ [f], rxCost := x.rxCost ++ [f.credits] }))))
  ∧ (∀ (p seq : Nat) (crcOk : Bool) (f : Frame) (s : State), p < 96 → Up s → s.mod.linked p = true → (s.mod.port p).nakSent = false →
      (crcOk = false ∨ 2048 < ((s.mod.port p).recvSeq + 4096 - seq % 4096) % 4096) →
      exec (.linkFrameReceive p seq crcOk f) s = .next (withMod s
        (((quiet s).modPort p (fun x => { x with nakSent := true })).emit (.linkNak p (s.mod.port p).recvSeq))))
  ∧ (∀ (p : Nat) (s : State), p < 96 → Up s → (s.mod.port p).ackDue = true →
      exec (.ackSendTimer p) s = .next (atTime s (s.mod.port p).ackAt (fun _ m =>
        (m.modPort p (fun x => { x with ackDue := false })).emit (.linkAck p (((s.mod.port p).recvSeq + 4095) % 4096)))))

/-- LANE_LOCK_LOSS, PORT_SIGNAL_DETECT, TRAINING_ATTEMPT_END, PORT_DISABLE and PORT_DRAIN_END (R230, R239, R256, R257): a port that loses its lanes trains again, after an attempt it sends its node number and its port index, three failed
attempts or a wrong neighbour make it FAILED; a disabled port drains and is then DISABLED, with "function disabled" posted; enabled again it trains. -/
def Obligations.PortStates : Prop :=
  (∀ (c : Instr) (p : Nat) (s : State), p < 96 → Up s → (s.mod.port p).unacked = [] → (s.mod.port p).waiting = [] →
      (c = .laneLockLoss p ∧ s.mod.up p = true ∨ c = .portSignalDetect p ∧ s.mod.portState p = 0) → Ends c s fun t =>
        t.time = s.time ∧ t.mod.portState p = 1 ∧ t.mod.num (kRETRAINS + p) = s.mod.num (kRETRAINS + p) + 1 ∧ (t.mod.port p).attempts = 0
          ∧ ∀ q, q < 96 → q ≠ p → t.mod.portState q = s.mod.portState q)
  ∧ (∀ (p node index : Nat) (ok : Bool) (s : State), p < 96 → Up s →
      exec (.trainingAttemptEnd p ok node index) s = .next (withMod s (serveTests s.time (recalEnds s.time p (attemptEnds s.time p ok node index (quiet s))))))
  ∧ (∀ (now p node index : Nat) (m : Module), p < 96 → m.portState p = 1 → wiredRight m p node index = true → let t := attemptEnds now p true node index m
      t.portState p = 2 ∧ ∀ vc, m.protectsPort p = false → (p < 88 ∨ m.protectsEdge = false) → (t.port p).credit vc = 768 ∧ (t.port p).unacked = [] ∧ (t.port p).recvSeq = 0)
  ∧ (∀ (now p node index : Nat) (m : Module), p < 96 → m.portState p = 1 → wiredRight m p node index = false →
      attemptEnds now p true node index m
        = post now 3 1 (srcPort p) (leBytes 1 p ++ leBytes 1 index ++ leBytes 2 node) ((m.emit (.portId p m.node (p % 8))).setPortState p 5))
  ∧ (∀ (now p node index : Nat) (m : Module), p < 96 → m.portState p = 1 →
      ((m.port p).attempts < 2 → attemptEnds now p false node index m = m.modPort p (fun x => { x with attempts := x.attempts + 1 }))
      ∧ (2 ≤ (m.port p).attempts → (attemptEnds now p false node index m).portState p = 5))
  ∧ (∀ (p : Nat) (m : Module), p < 88 → sendPortId p m = m.emit (.portId p m.node (p % 8)))
  ∧ (∀ (p : Nat) (s : State), p < 88 → Up s → s.mod.dieInReset (portDie p) = false → s.mod.portState p ≠ 3 → s.mod.portState p ≠ 4 → Ends (.portDisable p 1) s fun t =>
      t.time = s.time ∧ t.mod.portState p = 3 ∧ t.mod.num (kPORT_DISABLE + p) = 1 ∧ t.mod.lastStatus = 0
        ∧ (t.mod.port p).drainUntil = some (s.time + s.mod.num kDRAIN_TIMEOUT_MS * 1000000) ∧ ∀ q, q < 96 → q ≠ p → t.mod.portState q = s.mod.portState q)
  ∧ (∀ (p : Nat) (s : State), 88 ≤ p → p < 96 → Up s → s.mod.dieInReset 0 = false → (∀ q ∈ disabledWith p, s.mod.portState q = 2) → Ends (.portDisable p 1) s fun t =>
      ∀ q ∈ disabledWith p, t.mod.portState q = 3 ∧ t.mod.num (kPORT_DISABLE + q) = 1)
  ∧ (∀ (p : Nat) (s : State), p < 88 → Up s → s.mod.dieInReset (portDie p) = false → s.mod.portState p = 4 → Ends (.portDisable p 0) s fun t =>
      t.mod.portState p = 1 ∧ t.mod.num (kPORT_DISABLE + p) = 0 ∧ t.mod.lastStatus = 0)
  ∧ (∀ (p v : Nat) (s : State), p < 96 → 1 < v → Up s → exec (.portDisable p v) s = .next (withMod s ((quiet s).status 2)))
  ∧ (∀ (p : Nat) (s : State), p < 96 → Up s → s.mod.portState p = 3 → (s.mod.port p).unacked = [] → (s.mod.port p).waiting = [] → (s.mod.port p).enableAfter = false →
      FirstOf s.mod 11 4 srcDrone → Ends (.portDrainEnd p) s fun t =>
        t.time = s.time ∧ t.mod.portState p = 4 ∧ (t.mod.port p).drainUntil = none ∧ Posted s.mod t.mod s.time 11 4 srcDrone ([3] ++ leBytes 1 p))

/-- NEIGHBOR_SOLICITATION, ECHO_REQUEST, EDGE_PACKET_RECEIVE, REASM_TIMEOUT and SECTION_DECODE (R121, R124, R253–R255): an interface that is up answers for the module's own addresses, and the field port for its own, at a
transmit opportunity while PLCA is on (R299); a packet to another port, with extension headers or a bad UDP header is counted in EDGE_DROP, any other's frame is taken; a message that stays incomplete for REASM_MS is dropped; messages are
decoded in the order of their arrival. -/
def Obligations.EdgeInterfaces : Prop :=
  (∀ (e : Nat) (src target : List Byte) (s : State), e < 4 → Up s → exec (.neighborSolicitation e src target) s = .next (withMod s
      (if s.mod.edgeUp e = true ∧ ownEdgeAddr s.mod target = true then (quiet s).emit (.neighbor e (fitB 6 (s.mod.blob kEDGE_GW_MAC)) src target) else quiet s)))
  ∧ (∀ (e : Nat) (src dst data : List Byte) (s : State), e < 4 → Up s → exec (.echoRequest e src dst data) s = .next (withMod s
      (if s.mod.edgeUp e = true ∧ ownEdgeAddr s.mod dst = true then (quiet s).emit (.echo e (fitB 6 (s.mod.blob kEDGE_GW_MAC)) src data) else quiet s)))
  ∧ (∀ (src dst data : List Byte) (s : State), Up s → exec (.echoRequest 4 src dst data) s = .next (withMod s
      (if dst ∈ fieldAddrs (quiet s) then fieldSend (.echo 4 [] src data) (quiet s) else quiet s)))
  ∧ (∀ (x : Emit) (m : Module), (m.drone.plcaId = 0xFF → fieldSend x m = m.emit x)
      ∧ (m.drone.plcaId ≠ 0xFF → fieldSend x m = m.modDrone (fun d => { d with ipOut := d.ipOut ++ [x] })))
  ∧ (∀ (e : Nat) (pkt : EdgePkt) (s : State), e < 4 → Up s → s.mod.edgeUp e = true → s.mod.edgeRole e ≠ 0 →
      ((pkt.extHeaders = true ∨ pkt.udpOk = false ∨ pkt.dstPort ≠ s.mod.num kKG_UDP_PORT) → exec (.edgePacketReceive e pkt) s = .next (withMod s ((quiet s).bump kEDGE_DROP 1)))
      ∧ (pkt.extHeaders = false → pkt.udpOk = true → pkt.dstPort = s.mod.num kKG_UDP_PORT → s.mod.protectsEdge = false → pkt.frame.enc = false → pkt.frame.auth = false →
          s.mod.edgeRole e ≠ 2 → exec (.edgePacketReceive e pkt) s = .next (withMod s ((quiet s).modEdge e (fun x => { x with rx := x.rx ++ [pkt.frame] })))))
  ∧ (∀ (e node msg : Nat) (a : Reasm) (s : State), e < 5 → Up s → (s.mod.edge e).reasm.find? (fun a => a.isOf node msg) = some a →
      (a.dead = false → Ends (.reasmTimeout e node msg) s fun t => t.time = max s.time (a.first + s.mod.num kREASM_MS * 1000000)
        ∧ t.mod.num kREASM_DROP = s.mod.num kREASM_DROP + 1 ∧ (t.mod.edge e).smooth = (s.mod.edge e).smooth
        ∧ ∃ b, (t.mod.edge e).reasm.find? (fun a => a.isOf node msg) = some b ∧ b.dead = true)
      ∧ (a.dead = true → Ends (.reasmTimeout e node msg) s fun t => t.mod.nums = s.mod.nums ∧ ∀ b ∈ (t.mod.edge e).reasm, b.isOf node msg = false))
  ∧ (∀ (e node : Nat) (bs : List Byte) (rest : List (Nat × List Byte)) (s : State), e < 4 → Up s → (s.mod.edge e).smooth = (node, bs) :: rest →
      (chOfBytes bs).flags.testBit 1 = false → exec (.sectionDecode e) s = .next (withMod s ((quiet s).modEdge e (fun y =>
        { y with smooth := rest, ready := y.ready ++ [(node, chOfBytes bs)] }))))
  ∧ (∀ (e : Nat) (s : State), e < 4 → Up s → (s.mod.edge e).smooth = [] → exec (.sectionDecode e) s = .next (withMod s (quiet s)))

/-! ### The bridge -/

/-- A doorbell whose value gives (TAIL − HEAD) mod 2^20 greater than 2^LOG2SIZE is answered with 0x02 and counted in DB_BAD, and the latched TAIL stays as it was;
any other is latched and answered 0x00, and one that repeats the latched value changes no ring (R271). -/
def Obligations.DoorbellsAreSafeToRepeat : Prop :=
  ∀ (i v : Nat) (s : State), i < 256 → Up s → s.mod.num kMODULE_ROLE = 1 → s.mod.dieInReset 0 = false →
    let x := s.mod.ring i
    (2 ^ x.log2 < (v % 2 ^ 20 + 2 ^ 20 - x.head % 2 ^ 20) % 2 ^ 20 → Ends (.doorbell i v) s fun t =>
        t.mod.lastStatus = 2 ∧ t.mod.num kDB_BAD = s.mod.num kDB_BAD + 1 ∧ t.mod.bridge = s.mod.bridge ∧ t.time = s.time)
    ∧ ((v % 2 ^ 20 + 2 ^ 20 - x.head % 2 ^ 20) % 2 ^ 20 ≤ 2 ^ x.log2 → Ends (.doorbell i v) s fun t =>
        t.mod.lastStatus = 0 ∧ t.mod.num kDB_BAD = s.mod.num kDB_BAD ∧ t.mod.ring i = { x with tail := v % 2 ^ 20 } ∧ t.time = s.time
          ∧ (∀ j, j ≠ i → t.mod.ring j = s.mod.ring j) ∧ (v % 2 ^ 20 = x.tail → t.mod.ring i = x))

/-- DESC_FORWARD, DESC_RESPONSE, RING_RESUME, COMPLETION_DOORBELL and MGMT_ENTRY (R267, R269, R274, R275): the bridge forwards the entry at HEAD as a DESC request with HOLDFULL; its
response moves HEAD on, and another status than 0x00 halts the ring with STATUS and INDEX noted until RESUME; a completion doorbell is forwarded, one at a time for each queue; a
management entry becomes one request. A module that is no bridge refuses with 0x08.
HOST_FRAME_RECEIVE and HOST_DUP_RECORD_EXPIRY (R261–R264): frames of another source are counted in HOST_FOREIGN, those for another node in MISROUTED, other operations are answered
0x02 and counted in HOST_REFUSED; a repeated write is answered from its record; a write waits while 16,384 are recorded or still to be answered, behind those that wait; a record lasts 100 ms. -/
def Obligations.RingsForwardTheirEntries : Prop :=
  (∀ (i : Nat) (s : State), i < 256 → Up s → (ringReady s.mod i = false ∨ (s.mod.ring i).kind ≠ 0) → exec (.descForward i) s = .next (withMod s (quiet s)))
  ∧ (∀ (i : Nat) (s : State), i < 256 → Up s → ringReady s.mod i = true → (s.mod.ring i).kind = 0 →
      let x := s.mod.ring i
      let a := memRead s.time (spaceRegion x.entryAt) 5 (spaceOff x.entryAt) 64 (quiet s)
      a.2.1 = 0 → exec (.descForward i) s = .next (withMod s
        (let m := a.1.modRing i (fun x => { x with inFlight := some x.head })
         let b := issue s.time 17 (.ring i) 0 (m.mkReq opDESC 0 (m.dieGen 0) (mkAddr x.tnode x.tregion 0) 1 a.2.2) m
         if b.2 = 0 ∨ b.2 = 0x100 then b.1 else descResponse i b.2 b.1)))
  ∧ (∀ (i idx : Nat) (s : State), i < 256 → Up s → (s.mod.ring i).inFlight = some idx →
      (Ends (.descResponse i 0) s fun t => t.time = s.time ∧ t.mod.ring i = { s.mod.ring i with inFlight := none, head := (idx + 1) % 2 ^ 20 }
          ∧ t.mod.num kDESC_FWD = s.mod.num kDESC_FWD + 1)
      ∧ ∀ st, st ≠ 0 → Ends (.descResponse i st) s fun t => t.time = s.time ∧ t.mod.num kDESC_REFUSED = s.mod.num kDESC_REFUSED + 1
          ∧ t.mod.ring i = { s.mod.ring i with inFlight := none, head := (idx + 1) % 2 ^ 20, halted := true, errStatus := st, errIndex := idx })
  ∧ (∀ (i : Nat) (s : State), i < 256 → Up s →
      (s.mod.num kMODULE_ROLE = 1 → exec (.ringResume i) s = .next (withMod s (((quiet s).modRing i (fun x => { x with halted := false })).status 0)))
      ∧ (s.mod.num kMODULE_ROLE ≠ 1 → exec (.ringResume i) s = .next (withMod s ((quiet s).status 8))))
  ∧ (∀ (p r q v : Nat) (s : State), p < 8 → r < 16 → q < 64 → v < 2 ^ 25 → Up s → s.mod.dieInReset 0 = false →
      (s.mod.num kMODULE_ROLE ≠ 1 → exec (.completionDoorbell p r q v) s = .next (withMod s ((quiet s).status 8)))
      ∧ (∀ k, exec (.completionDoorbell p r q (v + 2 ^ 25 * k)) s = exec (.completionDoorbell p r q v) s)
      ∧ (s.mod.num kMODULE_ROLE = 1 → doorbellNo p r q ∈ s.mod.bridge.doorbellBusy → Ends (.completionDoorbell p r q v) s fun t =>
          t.mod.lastStatus = 0 ∧ Tab.get 0 t.mod.bridge.doorbells (doorbellNo p r q) = v ∧ Tab.get 0 t.mod.bridge.doorbellNext (doorbellNo p r q) = v + 1 ∧ t.mod.fabric = s.mod.fabric)
      ∧ (∀ tag, s.mod.num kMODULE_ROLE = 1 → doorbellNo p r q ∉ s.mod.bridge.doorbellBusy → s.mod.newTag 17 = some tag → s.mod.node = s.mod.node / 8 * 8 + p →
          s.mod.node < 32768 → Ends (.completionDoorbell p r q v) s fun t =>
            t.mod.lastStatus = 0 ∧ Tab.get 0 t.mod.bridge.doorbells (doorbellNo p r q) = v ∧ doorbellNo p r q ∈ t.mod.bridge.doorbellBusy
              ∧ ∃ y, t.mod.fabric.reqs = s.mod.fabric.reqs ++ [y] ∧ y.tag = tag ∧ y.frame.op = opREGWR ∧ y.frame.body = leBytes 4 v
                ∧ y.frame.addr = mkAddr s.mod.node 0 ((0x010 + r) * 2 ^ 16 + 0x1000 + 0x20 * q + 0x10)))
  ∧ (∀ (i : Nat) (s : State), i < 256 → Up s → (ringReady s.mod i = false ∨ (s.mod.ring i).kind ≠ 1) → exec (.mgmtEntry i) s = .next (withMod s (quiet s)))
  ∧ (∀ (i : Nat) (f : Frame) (s : State), i < 256 → Up s → ringReady s.mod i = true → (s.mod.ring i).kind = 1 →
      let x := s.mod.ring i
      let a := memRead s.time (spaceRegion x.entryAt) 5 (spaceOff x.entryAt) 64 (quiet s)
      let m := a.1.modRing i (fun x => { x with inFlight := some x.head })
      a.2.1 = 0 → (mgmtOf a.2.2).op ≠ opDICT → mgmtFrame m (mgmtOf a.2.2) [] = some f →
      ((mgmtOf a.2.2).tnode = s.mod.node → exec (.mgmtEntry i) s = .next (withMod s (routeAccess s.time (.ring i) f .mesh m)))
      ∧ ((mgmtOf a.2.2).tnode ≠ s.mod.node → exec (.mgmtEntry i) s = .next (withMod s
        (let b := issue s.time 17 (.mgmt i) 0 f m
         if b.2 = 0 ∨ b.2 = 0x100 then b.1 else mgmtFinish s.time i b.2 (mgmtOf a.2.2) [] b.1))))
  ∧ (∀ (e : Nat) (f : Frame) (s : State), e < 4 → Up s → s.mod.edgeRole e = 2 →
      let m := (quiet s).modEdge e (fun x => { x with hostRx := x.hostRx.erase f })
      (f.sender ≠ s.mod.num kHOST_NODE → exec (.hostFrameReceive e f) s = .next (withMod s ((dropRung f (.edge e) m).bump kHOST_FOREIGN 1)))
      ∧ (f.sender = s.mod.num kHOST_NODE → f.rsp = true → f.srcNode = s.mod.node →
          exec (.hostFrameReceive e f) s = .next (withMod s (m.modEdge e (fun x => { x with rx := x.rx ++ [f] }))))
      ∧ (f.sender = s.mod.num kHOST_NODE → f.dest ≠ s.mod.node → exec (.hostFrameReceive e f) s = .next (withMod s ((dropRung f (.edge e) m).bump kMISROUTED 1)))
      ∧ (f.srcNode = s.mod.num kHOST_NODE → addrNode f.addr = s.mod.node → f.rsp = false → hostOp f.op = false →
          exec (.hostFrameReceive e f) s = .next (withMod s (respond s.time f 2 0 [] (m.bump kHOST_REFUSED 1))))
      ∧ (f.srcNode = s.mod.num kHOST_NODE → addrNode f.addr = s.mod.node → f.rsp = false → hostOp f.op = true → f.retry = false →
          (recordedOp f = false ∨ hostRoom s.mod e = true ∧ (s.mod.edge e).hostHeld = []) → Ends (.hostFrameReceive e f) s fun t =>
            t.time = s.time ∧ (t.mod.edge e).rx = (s.mod.edge e).rx ++ [f] ∧ (t.mod.edge e).hostRx = (s.mod.edge e).hostRx.erase f ∧ t.mod.nums = s.mod.nums
              ∧ ∀ g, g ≠ e → t.mod.edge g = s.mod.edge g)
      ∧ (f.srcNode = s.mod.num kHOST_NODE → addrNode f.addr = s.mod.node → f.rsp = false → hostOp f.op = true → f.retry = false → recordedOp f = true →
          (hostRoom s.mod e = false ∨ (s.mod.edge e).hostHeld ≠ []) →
          exec (.hostFrameReceive e f) s = .next (withMod s (m.modEdge e (fun x => { x with hostHeld := x.hostHeld ++ [f] }))))
      ∧ (∀ st, f.srcNode = s.mod.num kHOST_NODE → addrNode f.addr = s.mod.node → f.rsp = false → f.op = opREGWR → hostRecord s.mod e f = some st →
          exec (.hostFrameReceive e f) s = .next (withMod s (respond s.time f st 0 [] (m.bump kHOST_DUP 1)))))
  ∧ (∀ (e k : Nat) (d : Nat × Nat × Nat × Nat) (s : State), e < 4 → Up s → (s.mod.edge e).hostDups[k]? = some d →
      exec (.hostDupRecordExpiry e k) s = .next (atTime s (d.2.2.2 + 100000000) (fun now m => hostRelease now e (m.modEdge e (fun x => { x with hostDups := dropNth x.hostDups k })))))
  ∧ (∀ (now e : Nat) (m : Module), ((m.edge e).hostHeld = [] ∨ hostRoom m e = false) → hostRelease now e m = m)
  ∧ (∀ (m : Module) (e : Nat), hostRoom m e = true → (m.edge e).hostDups.length < 16384)

/-! ### Chanter -/

/-- DELTA, RESULT, STATE, ACK, RESYNC, PROBE and PROBE_REPLY (R210, R211, R213, R215, R219, R396): a message is dropped and counted while Chanter is disabled, and one of another type is counted in FRAGS_BAD;
any other makes its node up again before it takes effect, and heard, but for a RESYNC or a PROBE. A fragment whose header breaks a rule is counted, one handled before is acknowledged again; a delta too stale is
dropped, and a fragment is acknowledged once it is handled.
FRAGMENT_SEND, RTO_EXPIRY, LONG_HAUL_RATE_RECOVERY, ACK_TIMER, PEER_HELD and PROBE_TIMER (R211–R213): a fragment leaves when its pacing allows, and again with twice its RTO, at most 2 s, when that expires,
which halves its site's share; the share grows by a sixteenth per SRTT; an acknowledgement leaves ACK_MS after the first fragment it covers; a node silent for DEAD_MS is held, and probed every PROBE_MS, and so is one of
another site without a key (R432). Chanter sends nothing under policy 0, while it is disabled, and while die 0 is in reset (R199, R396, R400). -/
def Obligations.MessagesAndStreams : Prop :=
  (∀ p ∈ messageCommands, ∀ (src : Nat) (x : ChMsg) (s : State), Up s → NotWaiting s src x →
      (s.mod.num kCHANTER_FSTATE ≠ 0 → exec (p.2.1 src x) s = .next (withMod s ((quiet s).bump kCHANTER_DROPPED 1)))
      ∧ (s.mod.num kCHANTER_FSTATE = 0 → s.mod.mstate ≠ 2 → exec (p.2.1 src x) s = .next (withMod s (quiet s)))
      ∧ (s.mod.num kCHANTER_FSTATE = 0 → s.mod.mstate = 2 → x.type ≠ p.1 → exec (p.2.1 src x) s = .next (withMod s ((quiet s).bump kFRAGS_BAD 1)))
      ∧ (s.mod.num kCHANTER_FSTATE = 0 → s.mod.mstate = 2 → 4 ≤ p.1 → (x.len ≠ 0 ∨ x.body ≠ []) → exec (p.2.1 src x) s = .next (withMod s ((quiet s).bump kFRAGS_BAD 1)))
      ∧ (s.mod.num kCHANTER_FSTATE = 0 → s.mod.mstate = 2 → x.type = p.1 → (4 ≤ p.1 → x.len = 0 ∧ x.body = []) →
          exec (p.2.1 src x) s = .next (withMod s (p.2.2 s.time src x (nodeUp s.time src (hear s.time src p.1 x.outer (quiet s)))))))
  ∧ (∀ (now src ty outer : Nat) (m : Module), Tab.get 0 (hear now src ty outer m).chanter.outer src = outer
      ∧ (ty ≠ 5 → ty ≠ 6 → Tab.find? (hear now src ty outer m).chanter.heard src = some now)
      ∧ ((ty = 5 ∨ ty = 6) → (hear now src ty outer m).chanter.heard = m.chanter.heard)
      ∧ Tab.find? (nodeUp now src m).chanter.held src = none)
  ∧ (∀ (now src : Nat) (x : ChMsg) (k : List (Nat × Extent × Nat) → Module → Module) (m : Module), msgBlocks m x = none → onFragment now src x k m = m.bump kFRAGS_BAD 1)
  ∧ (∀ (now src : Nat) (x : ChMsg) (k : List (Nat × Extent × Nat) → Module → Module) (bs : List (Nat × Extent × Nat)) (m : Module), msgBlocks m x = some bs →
      (m.recv (msgKey src x)).handled x.seq = true → let t := onFragment now src x k m
      t.num kFRAGS_DUP = m.num kFRAGS_DUP + 1 ∧ 1 ≤ (t.recv (msgKey src x)).fresh ∧ (t.recv (msgKey src x)).stream = x.stream ∧ t.regions = m.regions)
  ∧ (∀ (_m : Module) (src : Nat) (x y : ChMsg), msgKey src { x with stream := y.stream, seq := y.seq, body := y.body } = msgKey src x)
  ∧ (∀ (now g b i : Nat) (x : ChMsg) (e : Extent) (m : Module) (ok : Bool), let st := (m.hdr x.dstRegion e b).outerRnd - x.origin
      (m.roundNum kS_MAX < st ∨ 7 < st ∨ (m.num kEXCH_POLICY = 2 ∧ 0 < st)) → mergeBlock now x g e b i (m, ok) = (m.bump kSTALE_DROP 1, ok))
  ∧ (∀ (now key seq : Nat) (m : Module), ((m.recv key).handled seq = true → (m.recv key).fresh < 32 → (fragDone now key seq m).recv key = m.recv key)
      ∧ ((m.recv key).handled seq = false → (m.recv key).fresh < 31 →
        ((fragDone now key seq m).recv key).handled seq = true ∧ ((fragDone now key seq m).recv key).fresh = (m.recv key).fresh + 1))
  ∧ (∀ (stream : Nat) (st : StreamSt) (f : Frag) (s : State), Up s → nextFrag s.mod stream = some (st, f) →
      exec (.fragmentSend stream) s = .next (atTime s (paceAt s.mod st.node f.msg) (fun now m => sendFrag now stream st f (if f.sends = 0 then firstRto m st.node else min 2000000000 (2 * f.rto)) m)))
  ∧ (∀ (stream seq d : Nat) (st : StreamSt) (f : Frag) (s : State), Up s → rtoFrag s.mod stream seq = some (st, f, d) → Ends (.rtoExpiry stream seq) s fun t =>
      t.time = max s.time d ∧ Tab.find? t.mod.chanter.share (s.mod.siteOf st.node) = some (shareOf s.mod (s.mod.siteOf st.node) / 2)
        ∧ Tab.find? t.mod.chanter.shareAt (s.mod.siteOf st.node) = some (max s.time d)
        ∧ Tab.find? t.mod.chanter.streams stream = some { st with frags := st.frags.map (fun g =>
            if g.msg.seq = f.msg.seq then { g with sentAt := some (max s.time d), rto := min 2000000000 (2 * f.rto), sends := g.sends + 1 } else g) })
  ∧ (∀ (now stream rto : Nat) (st : StreamSt) (f : Frag) (m : Module), (sendFrag now stream st f rto m).chanter.sendNext = now + rateNs f.msg.body.length (m.num kLH_RATE_MBPS)
      ∧ Tab.find? (sendFrag now stream st f rto m).chanter.streams stream = some { st with frags := st.frags.map (fun g =>
          if g.msg.seq = f.msg.seq then { g with sentAt := some now, rto := rto, sends := g.sends + 1 } else g) }
      ∧ ∀ r, ((sendFrag now stream st f rto m).rg r).xch = (m.rg r).xch)
  ∧ (∀ (site : Nat) (s : State), site < 64 → Up s → shareOf s.mod site < s.mod.num kLH_RATE_MBPS →
      exec (.longHaulRateRecovery site) s = .next (atTime s (Tab.get 0 s.mod.chanter.shareAt site + siteSrtt s.mod site) (fun now m => m.modCh (fun c =>
        { c with share := Tab.put c.share site (min (s.mod.num kLH_RATE_MBPS) (shareOf s.mod site + s.mod.num kLH_RATE_MBPS / 16)), shareAt := Tab.put c.shareAt site now }))))
  ∧ (∀ (m : Module), m.chSends = true ↔ (m.num kEXCH_POLICY ≠ 0 ∧ m.num kCHANTER_FSTATE = 0 ∧ m.dieInReset 0 = false))
  ∧ (∀ (node stream : Nat) (s : State), Up s → s.mod.chSends = false → exec (.ackTimer node stream) s = .next (withMod s (quiet s)) ∧ exec (.probeTimer node) s = .next (withMod s (quiet s)))
  ∧ (∀ (now node : Nat) (x : ChMsg) (m : Module), m.chSends = false → sendMsg now node x m = m)
  ∧ (∀ (node stream key : Nat) (y : RecvSt) (s : State), Up s → s.mod.chSends = true → ackOwed s.mod node stream = some (key, y) →
      exec (.ackTimer node stream) s = .next (atTime s (y.since + s.mod.num kACK_MS * 1000000) (fun now m => sendAck now key m)))
  ∧ (∀ (now key : Nat) (m : Module), ((sendAck now key m).recv key).fresh = 0)
  ∧ (∀ (m : Module) (stream seq d : Nat) (st : StreamSt) (f : Frag), rtoFrag m stream seq = some (st, f, d) → paceAt m st.node f.msg ≤ d ∧ ∀ t, f.sentAt = some t → t + f.rto ≤ d)
  ∧ (∀ (node t0 : Nat) (s : State), Up s → Tab.find? s.mod.chanter.heard node = some t0 → Tab.find? s.mod.chanter.held node = none → Ends (.peerHeld node) s fun t =>
      t.time = max s.time (t0 + s.mod.num kDEAD_MS * 1000000) ∧ Tab.find? t.mod.chanter.held node = some (max s.time (t0 + s.mod.num kDEAD_MS * 1000000)) ∧ t.mod.regions = s.mod.regions
        ∧ ∀ site, site < 64 → node ∈ s.mod.siteNodes site → 2 ≤ peerState t.mod site)
  ∧ (∀ (m : Module) (now site : Nat), site < 64 → derivedEntry m now (kPEER_STATE + site) = some (leBytes 1 (peerState m site)))
  ∧ (∀ (m : Module) (node : Nat), Tab.find? m.chanter.held node = none → ((heldSince m node).isSome = true ↔ m.keyless node = true))
  ∧ (∀ (node h : Nat) (s : State), Up s → s.mod.chSends = true → heldSince s.mod node = some h →
      exec (.probeTimer node) s = .next (atTime s (max h (Tab.get 0 s.mod.chanter.probed node) + s.mod.num kPROBE_MS * 1000000) (fun now m =>
        sendMsg now node { noMsg with type := 6, w2 := now % 2 ^ 64 } (m.modCh (fun c => { c with probed := Tab.put c.probed node now })))))

/-- ROUND_DEADLINE, QUORUM_HOLD_EXPIRY, CATCHUP_DELTA and JOIN (R216, R226, R227): at its deadline an open round merges if the quorum is there and waits for QUORUM_HOLD_MS otherwise, after which it merges, a
missed quorum counted; a held block that is closed and caught up forms its delta; JOIN is refused outside RUN and while Chanter is disabled; accepted, it writes no memory. -/
def Obligations.RoundsEnd : Prop :=
  (∀ (d : Nat) (s : State), Up s → s.mod.chanter.deadline = some d →
      exec .roundDeadline s = .next (atTime s d (fun now m => mergeIfReady now (m.modCh (fun c =>
        { c with due := true, deadline := none, holdUntil := some (now + m.roundNum kQUORUM_HOLD_MS * 1000000) })))))
  ∧ (∀ (now n : Nat) (m : Module), (openRound m = none → mergeIfReady now m = m)
      ∧ (openRound m = some n → m.num kCHANTER_FSTATE = 0 → m.num kEXCH_POLICY ≠ 0 → m.num kEXCH_POLICY ≠ 1 → m.chanter.due = true → m.roundNum kQUORUM ≤ quorumNow m → mergeIfReady now m = mergeRound now n m)
      ∧ (m.num kEXCH_POLICY = 0 → mergeIfReady now m = m)
      ∧ (m.num kEXCH_POLICY ≠ 1 → quorumNow m < m.roundNum kQUORUM → mergeIfReady now m = m))
  ∧ (∀ (n h : Nat) (s : State), Up s → s.mod.chanter.due = true → s.mod.chanter.holdUntil = some h → s.mod.num kCHANTER_FSTATE = 0 → openRound s.mod = some n →
      exec .quorumHoldExpiry s = .next (atTime s h (fun now m => mergeRound now n (m.bump kQUORUM_MISS (if quorumNow s.mod < s.mod.roundNum kQUORUM then 1 else 0)))))
  ∧ (∀ (r pos b n : Nat) (e : Extent) (s : State), r < 16 → Up s → s.mod.mstate = 2 → (s.mod.blocksOf r)[pos]? = some (e, b) → pos ∈ (s.mod.rg r).xch.heldPos →
      (s.mod.hdr r e b).isOpen = false → homeNode s.mod (s.mod.gidx r e b) = some n → heldSince s.mod n = none → (s.mod.hdr r e b).adoptRnd = Tab.get 0 s.mod.chanter.outer n →
      s.mod.num kCHANTER_FSTATE = 0 → s.mod.num kEXCH_POLICY ≠ 0 → deltaRoom s.mod r (payloadLen (s.mod.rg r).xch.codec (s.mod.rg r).xch.k) = true →
      exec (.catchupDelta r pos) s = .next (withMod s (runAll s.time r (queueCommit s.time r
        { ext := e.idx, blk := b, kind := 4, round := (s.mod.hdr r e b).adoptRnd + 1, origin := (s.mod.hdr r e b).deltaRnd, flags := 8 } (quiet s)))))
  ∧ (∀ (r pos : Nat) (s : State), r < 16 → Up s → (s.mod.mstate ≠ 2 ∨ (s.mod.blocksOf r)[pos]? = none ∨ pos ∉ (s.mod.rg r).xch.heldPos) →
      exec (.catchupDelta r pos) s = .next (withMod s (quiet s)))
  ∧ (∀ (v : Nat) (s : State), Up s →
      (1 < v → exec (.join v) s = .next (withMod s ((quiet s).status 2)))
      ∧ (v ≤ 1 → (s.mod.mstate ≠ 2 ∨ s.mod.num kCHANTER_FSTATE ≠ 0) → exec (.join v) s = .next (withMod s ((quiet s).status 8)))
      ∧ (v = 0 → s.mod.mstate = 2 → s.mod.num kCHANTER_FSTATE = 0 → exec (.join v) s = .next (withMod s ((quiet s).status 0)))
      ∧ (v = 1 → s.mod.mstate = 2 → s.mod.num kCHANTER_FSTATE = 0 → Ends (.join v) s fun t => t.time = s.time ∧ t.mod.lastStatus = 0 ∧ t.mod.regions = s.mod.regions))

/-- When no exchange succeeds for 10 s, ALIGN_OK clears and Chanter posts "time alignment lost"; deadlines of rounds whose boundaries fall while ALIGN_OK is clear are those of R222, DEADLINE_MS after
the boundary in module time; an exchange waits until the next TIMING frame of TIME_REF confirms it, within 1 ns of the time kept (R440), which sets ALIGN_OK again (R223, R224);
one that it contradicts is discarded. No exchange is made outside RUN (the model's choice, log entry 181). -/
def Obligations.AlignmentIsLostAndFound : Prop :=
  (∀ s : State, Up s → s.mod.num kALIGN_OK = 1 → FirstOf s.mod 4 1 srcChanter → Ends .alignLost s fun t =>
      t.time = max s.time (s.mod.chanter.lastGood + 10000000000) ∧ t.mod.num kALIGN_OK = 0 ∧ t.mod.chanter = s.mod.chanter
        ∧ Posted s.mod t.mod t.time 4 1 srcChanter (leBytes 2 (s.mod.roundNum kTIME_REF)))
  ∧ (∀ (now n : Nat) (m : Module), m.num kALIGN_OK = 0 → deadlineOf m now n = now + m.num kDEADLINE_MS * 1000000)
  ∧ (∀ (t1 t2 t3 t4 : Nat) (s : State), Up s → s.mod.mstate = 2 → s.mod.roundNum kTIME_ALIGN = 1 → s.mod.roundNum kTIME_REF ≠ s.mod.node → Ends (.timeExchange t1 t2 t3 t4) s fun t =>
      t.time = max s.time (s.mod.timer tALIGN + 125000000) ∧ t.mod.num kALIGN_OK = s.mod.num kALIGN_OK ∧ t.mod.chanter.theta = s.mod.chanter.theta
        ∧ t.mod.chanter.exchange = some ((((t2 : Int) - t1) - ((t4 : Int) - t3) - asI32 (s.mod.num (kASYM_NS + s.mod.siteOf (s.mod.roundNum kTIME_REF)))) / 2))
  ∧ (∀ (t1 t2 t3 t4 : Nat) (s : State), Up s → (s.mod.mstate ≠ 2 ∨ s.mod.roundNum kTIME_ALIGN ≠ 1 ∨ s.mod.roundNum kTIME_REF = s.mod.node) →
      exec (.timeExchange t1 t2 t3 t4) s = .next (withMod s (quiet s)))
  ∧ (∀ (f : Frame) (old : List Byte) (s : State), Up s → badRequest opTIMING f = false → 8 ≤ f.body.length → f.mac.length = 16 → addrNode f.addr = s.mod.node →
      f.srcNode = s.mod.roundNum kTIME_REF → Tab.find? s.mod.security.timingSeen f.srcNode = some old →
      let near := leNat old ≤ priorTx f + 1 ∧ priorTx f ≤ leNat old + 1
      (∀ th, near → s.mod.chanter.exchange = some th → Ends (.timing f .mesh) s fun t =>
          t.time = s.time ∧ t.mod.num kALIGN_OK = 1 ∧ t.mod.chanter.lastGood = s.time ∧ t.mod.chanter.exchange = none
            ∧ t.mod.chanter.theta = (s.mod.chanter.theta ++ [(th, s.time)]).drop (s.mod.chanter.theta.length + 1 - 8)
            ∧ t.mod.num kALIGN_ERR_NS = min (spreadOf t.mod.chanter.theta) 0xFFFFFFFF)
      ∧ (¬near → Ends (.timing f .mesh) s fun t => t.mod.num kTIMING_MISMATCH = s.mod.num kTIMING_MISMATCH + 1 ∧ t.mod.chanter.exchange = none
          ∧ t.mod.chanter.theta = s.mod.chanter.theta ∧ t.mod.num kALIGN_OK = s.mod.num kALIGN_OK))

/-! ### Updates, the norm fence, the close of a step -/

/-- INNER_UPDATE, BLOCK_COMMIT and RESERVE_STALL_TIMEOUT (R172, R175, R176, R182): a descriptor that passes its checks queues one commit for each of its blocks, in order; a commit that may not start waits, one that is
recorded already is skipped and counted, one that has its shadow half goes on to its commit point, and one held on the way waits for its extent; one that has waited RESERVE_STALL_MS for the reserve ends with 0x0A. A commit raises VERSION only where it
stores WC, clears PENDING and records its id; a retained copy takes over the open leases.
A descriptor whose norm record, and a tiered block whose entry, cannot be read ends with 0x01 (R134); a helper's item of an older CHANTER_GEN is discarded (R394). -/
def Obligations.BlocksAreCommitted : Prop :=
  (∀ (r id : Nat) (x : Flight) (s : State), Ready s r id x → x.d.cls = 5 →
      let a := readRecord s.time r 3 (s.mod.num (kNORM_BASE + r)) 32 (quiet s)
      (a.2 = false → exec (.innerUpdate r id) s = .next (withMod s (endNow s.time r x.id 1 a.1)))
      ∧ (a.2 = true → updStatus a.1 r x ≠ 0 → exec (.innerUpdate r id) s = .next (withMod s (endNow s.time r x.id (updStatus a.1 r x) a.1)))
      ∧ (a.2 = true → updStatus a.1 r x = 0 → Ends (.innerUpdate r id) s fun t =>
          t.time = s.time ∧ t.mod.nums = a.1.nums ∧ (t.mod.rg r).stack = (a.1.rg r).stack ∧ (∃ y, (t.mod.work r).flight? id = some y ∧ y.phase = 4)
            ∧ (t.mod.rg r).train.commits = (s.mod.rg r).train.commits ++ (List.range (updOf x.d).count).map (fun i =>
              { id := (s.mod.rg r).train.nextCommit + i, flight := x.id + 1, ext := (updOf x.d).extent, blk := (updOf x.d).first + i, idx := i, since := s.time,
                kind := if (updOf x.d).skipnf = true ∧ (a.1.normRec r).state = 2 then 5 else 1 })))
  ∧ (∀ (r k : Nat) (s : State), r < 16 → Up s → (s.mod.inReset r = true ∨ s.mod.commit? r k = none) → exec (.blockCommit r k) s = .next (withMod s (quiet s)))
  ∧ (∀ (r k : Nat) (c : Commit) (e : Extent) (s : State), r < 16 → Up s → s.mod.inReset r = false → s.mod.commit? r k = some c → s.mod.extent? r c.ext = some e →
      (c.lanes = true ∨ s.mod.num kCHANTER_FSTATE = 0) → (c.flight ≠ 0 ∨ c.chGen = s.mod.num kCHANTER_GEN) → exec (.blockCommit r k) s = .next (withMod s
        (let m := advance s.time r e c (quiet s)
         if e.form = 2 ∧ c.lanes = false ∧ (m.commit? r k).isSome = true then startRecall s.time r e.base m else m)))
  ∧ (∀ (r k : Nat) (c : Commit) (e : Extent) (s : State), r < 16 → Up s → s.mod.inReset r = false → s.mod.commit? r k = some c → s.mod.extent? r c.ext = some e →
      (c.lanes = true ∨ s.mod.num kCHANTER_FSTATE = 0) → c.flight = 0 → c.chGen ≠ s.mod.num kCHANTER_GEN →
      exec (.blockCommit r k) s = .next (withMod s ((freeShadow s.time r c (noteWait s.time c (quiet s))).dropCommit r c.id)))
  ∧ (∀ (now r : Nat) (e : Extent) (c : Commit) (m0 m : Module), e.form = 2 → readTier now r e.base m0 = (m, false) → advance now r e c m0 = leaveUe now r c m)
  ∧ (∀ (now r : Nat) (e : Extent) (c : Commit) (m0 m : Module), (e.form ≠ 2 ∧ m = m0 ∨ e.form = 2 ∧ readTier now r e.base m0 = (m, true)) →
      (∀ n, c.step ≤ 4 → mayStart m r e c = .wait n → c.step = n → advance now r e c m0 = m)
      ∧ (∀ x hb, c.step ≤ 4 → mayStart m r e c = .go → readPart now r c.req e c.blk pHDR m = (x, some hb) → commitId x r c ≤ recordedId (hdrOf hb) c.kind →
          advance now r e c m0 = endCommit now r c 0 true
            ((if c.lanes = true ∧ commitId x r c = (hdrOf hb).step then tierUpdated now r e c.blk (hdrOf hb).step x else x).bump kSKIPPED 1))
      ∧ (∀ x y hb half parts out sums, c.step ≤ 4 → mayStart m r e c = .go → readPart now r c.req e c.blk pHDR m = (x, some hb) → recordedId (hdrOf hb) c.kind < commitId x r c →
          freeHalf x r = some half → make now r e { c with half := some half, step := 4, since := now } (noteWait now c x) = (y, .ok parts out sums) →
          let d := { c with half := some half, step := 4, since := now, parts := parts, out := out, sums := sums, codec := (y.rg r).xch.codec, k := (y.rg r).xch.k }
          advance now r e c m0 = commitTail now r e d ((writeHalf now r e d half parts y).modCommit r c.id (fun _ => d)))
      ∧ (4 < c.step → (∀ n, tierGo m r e c = .wait n → advance now r e c m0 = m) ∧ (tierGo m r e c = .go → advance now r e c m0 = commitTail now r e c m)))
  ∧ (∀ (now r : Nat) (e : Extent) (c : Commit) (m : Module), m.copies r = false → (storesWc m r c = false ∨ (m.hdr r e c.blk).relcount = 0) →
      let p := commitPoint now r e c none m
      commitTail now r e c m = endCommit now r c (if p.2 = true then 0 else 1) false (afterCommit now r e c p.1))
  ∧ (∀ (m : Module) (r : Nat) (c : Commit) (k : Option Nat) (h : Hdr), let g := hdrAfter m r c k h
      g.version = h.version + (if storesWc m r c = true then 1 else 0) ∧ g.kind = c.kind ∧ g.pending = false ∧ recordedId g c.kind = commitId m r c
        ∧ (k = none → g.relcount = h.relcount ∧ g.retained = h.retained) ∧ (∀ n, k = some n → g.retained = true ∧ g.retain = n ∧ g.retrel = h.relcount ∧ g.relcount = 0))
  ∧ (∀ (r k : Nat) (c : Commit) (s : State), r < 16 → Up s → s.mod.commit? r k = some c → c.step = 5 →
      exec (.reserveStallTimeout r k) s = .next (atTime s (c.since + s.mod.num kRESERVE_STALL_MS * 1000000) (fun now m => endCommit now r c 0x0A false m)))

/-- NORM_MODULE_SUM, NORM_FENCE and STEP_CLOSE (R165, R181): once all 16 regions have passed their values the module's sum goes to its group; the sum that returns raises NORM_SIG in every region that has passed its
value, and clears what it passed; a step that may close is noted in STEP_CLOSED, raises CLOSE_SIG, and its update-to-weight sums start anew. -/
def Obligations.FencesAndCloses : Prop :=
  (∀ s : State, Up s → (∃ r, r < 16 ∧ Tab.find? s.mod.norm r = none) → exec .normModuleSum s = .next (withMod s (quiet s)))
  ∧ (∀ (to_ : Nat × Nat) (rest : List (Nat × Nat)) (s : State), Up s → (∀ r, r < 16 → (Tab.find? s.mod.norm r).isSome = true) → s.mod.members (s.mod.num kNORM_GROUP) = to_ :: rest →
      let m := { quiet s with norm := s.mod.norm.filter (fun p => decide (16 ≤ p.1)) }
      exec .normModuleSum s = .next (withMod s (issueOnly s.time 0 .none noCtx
        (collFrame m 0 to_ (s.mod.num kNORM_GROUP) ((m.normRec 0).step % 2 ^ 24) 0 0 0 0 (leBytes 4 (toF32 (normSum s.mod).1))) m)))
  ∧ (∀ (sum : W32) (s : State), Up s → Ends (.normFence sum) s fun t => t.time = s.time ∧ Tab.find? t.mod.norm 32 = none
      ∧ ∀ r, r < 16 → (t.mod.rg r).train.passed = false
          ∧ ((s.mod.rg r).train.passed = true → s.mod.num (kNORM_SIG + r) < 255 →
              (t.mod.work r).counter (s.mod.num (kNORM_SIG + r)) = ((s.mod.work r).counter (s.mod.num (kNORM_SIG + r)) + 1) % 65536 ∧ (t.mod.rg r).train.complete = 0)
          ∧ ((s.mod.rg r).train.passed = false → t.mod.work r = s.mod.work r ∧ (t.mod.rg r).stack = (s.mod.rg r).stack))
  ∧ (∀ (r : Nat) (s : State), r < 16 → Up s → closable s.mod r = none → exec (.stepClose r) s = .next (withMod s (quiet s)))
  ∧ (∀ (r k id : Nat) (s : State), r < 16 → Up s → closable s.mod r = some (k, id) → s.mod.num kEXCH_POLICY = 0 → s.mod.num kSNAP_POLICY = 0 → r ∉ s.mod.cuts.toTake →
      Ends (.stepClose r) s fun t => t.time = s.time ∧ t.mod.num (kSTEP_CLOSED + r) = k ∧ (t.mod.rg r).train.uwr = [] ∧ (t.mod.rg r).train.unmapped = 0
        ∧ (t.mod.rg r).train.closing = (s.mod.rg r).train.closing.filter (fun c => c ≠ (k, id)) ∧ t.mod.cuts = { s.mod.cuts with params := [] }
        ∧ (s.mod.num (kCLOSE_SIG + r) < 255 → (t.mod.work r).counter (s.mod.num (kCLOSE_SIG + r)) = ((s.mod.work r).counter (s.mod.num (kCLOSE_SIG + r)) + 1) % 65536)
        ∧ ∀ q, q < 16 → q ≠ r → t.mod.num (kSTEP_CLOSED + q) = s.mod.num (kSTEP_CLOSED + q))

/-! ### Upkeep of bonded memory -/

/-- SCRUB_VISIT, ROW_REPAIR, REPAIR_TABLE_APPEND, REFRESH_WINDOW_CHANGE, SELF_REFRESH_ENTRY and SELF_REFRESH_EXIT (R136–R142): a visit writes corrected sectors back and leaves every byte and code as it was, and touches nothing of a slot whose
metadata sector cannot be read (R105); a candidate row gets the next of its bank's 8 spares that neither serves nor fails its test; the repairs in force go to flash; the refresh window halves above 85 °C, and widens after 1 s at 82 °C or less; 10 µs without a request, clusters and lanes idle, the stack refreshes itself. -/
def Obligations.UpkeepKeepsMemory : Prop :=
  (∀ (r slot : Nat) (s : State), r < 16 → slot < 402653184 → Up s → (s.mod.num kSCRUB_HOURS = 0 ∨ (s.mod.rg r).stack.selfRefresh = true) →
      exec (.scrubVisit r slot) s = .next (withMod s (quiet s)))
  ∧ (∀ (r slot : Nat) (s : State), r < 16 → slot < 402653184 → Up s → s.mod.num kSCRUB_HOURS ≠ 0 → (s.mod.rg r).stack.selfRefresh = false → Ends (.scrubVisit r slot) s fun t =>
      t.time = s.time ∧ (t.mod.rg r).stack.data = (s.mod.rg r).stack.data ∧ (t.mod.rg r).stack.codes = (s.mod.rg r).stack.codes ∧ (t.mod.rg r).stack.scrubSlot = (slot + 1) % 402653184
        ∧ (∀ x ∈ ((s.mod.rg r).stack.seen r slot).slotSectors slot, (metaSlot slot = true ∨ ((s.mod.rg r).stack.decode r (metaSector slot)).1 < 2) → ∀ pos v, Tab.find? (s.mod.rg r).stack.errs x = some [(pos, v)] → (s.mod.rg r).stack.decode r x = (1, pos, v) →
            Tab.find? (t.mod.rg r).stack.errs x = none)
        ∧ (metaSlot slot = false → 2 ≤ ((s.mod.rg r).stack.decode r (metaSector slot)).1 → (t.mod.rg r).stack.errs = (s.mod.rg r).stack.errs)
        ∧ (∀ x, x ∉ ((s.mod.rg r).stack.seen r slot).slotSectors slot → (metaSlot slot = true ∨ x ≠ metaSector slot) → Tab.find? (t.mod.rg r).stack.errs x = Tab.find? (s.mod.rg r).stack.errs x)
        ∧ ∀ q, q ≠ r → (t.mod.rg q).stack = (s.mod.rg q).stack)
  ∧ (∀ (r row : Nat) (s : State), r < 16 → row < 512 * 16 * 12288 → Up s → row ∉ (s.mod.rg r).stack.candidates → exec (.rowRepair r row) s = .next (withMod s (quiet s)))
  ∧ (∀ (r row : Nat) (s : State), r < 16 → row < 512 * 16 * 12288 → Up s → row ∈ (s.mod.rg r).stack.candidates →
      (∀ n, spareFor (s.mod.rg r).stack (bankOf row) = some n → (s.mod.rg r).stack.soft.length < 2048 → Ends (.rowRepair r row) s fun t =>
          t.time = s.time ∧ (t.mod.rg r).stack.soft = (s.mod.rg r).stack.soft ++ [(row, n)] ∧ row ∉ (t.mod.rg r).stack.candidates
            ∧ (t.mod.rg r).stack.data = (s.mod.rg r).stack.data ∧ (t.mod.rg r).stack.errs = (s.mod.rg r).stack.errs ∧ t.mod.nums = s.mod.nums)
      ∧ ((spareFor (s.mod.rg r).stack (bankOf row) = none ∨ 2048 ≤ (s.mod.rg r).stack.soft.length) → Ends (.rowRepair r row) s fun t =>
          (t.mod.rg r).stack.soft = (s.mod.rg r).stack.soft ∧ t.mod.num kREPAIR_EXHAUSTED = s.mod.num kREPAIR_EXHAUSTED + 1))
  ∧ (∀ (k : Stack) (bank n : Nat), spareFor k bank = some n → n < 8 ∧ (bank, n) ∉ k.spareBad ∧ ∀ x ∈ k.soft ++ k.fuses, bankOf x.1 = bank → x.2 ≠ n)
  ∧ (∀ (k : Stack) (bank n : Nat), spareFor k bank = none → n < 8 → (bank, n) ∈ k.spareBad ∨ ∃ x ∈ k.soft ++ k.fuses, bankOf x.1 = bank ∧ x.2 = n)
  ∧ (∀ (r : Nat) (s : State), r < 16 → Up s →
      ((s.mod.rg r).stack.softFlash = (s.mod.rg r).stack.soft → exec (.repairTableAppend r) s = .next (withMod s (quiet s)))
      ∧ ((s.mod.rg r).stack.softFlash ≠ (s.mod.rg r).stack.soft → s.mod.worn (wearSoft 0) = false → s.mod.worn (wearSoft 1) = false → Ends (.repairTableAppend r) s fun t =>
          t.time = s.time ∧ (t.mod.rg r).stack = { (s.mod.rg r).stack with softFlash := (s.mod.rg r).stack.soft } ∧ t.mod.nums = s.mod.nums))
  ∧ (∀ (r : Nat) (s : State), r < 16 → Up s →
      ((s.mod.rg r).stack.hotWindow = false → 85000 < (s.mod.rg r).power.dramMilliC →
        exec (.refreshWindowChange r) s = .next (withMod s ((quiet s).modStack r (fun k => { k with hotWindow := true }))))
      ∧ (∀ c, (s.mod.rg r).stack.hotWindow = true → (s.mod.rg r).stack.coolSince = some c →
        exec (.refreshWindowChange r) s = .next (atTime s (c + 1000000000) (fun _ m => m.modStack r (fun k => { k with hotWindow := false }))))
      ∧ (selfRefreshReady s.mod r = true →
        exec (.selfRefreshEntry r) s = .next (atTime s ((s.mod.rg r).stack.lastReq + 10000) (fun _ m => m.modStack r (fun k => { k with selfRefresh := true }))))
      ∧ (Ends (.selfRefreshExit r) s fun t => t.time = s.time ∧ (t.mod.rg r).stack = { (s.mod.rg r).stack with selfRefresh := false, lastReq := s.time }
          ∧ t.mod.num kSR_EXIT_NS = s.mod.num kSR_EXIT_NS + (if (s.mod.rg r).stack.selfRefresh = true then 2000 else 0)))

/-! ### Sleep, clocks, power and heat -/

/-- SLEEP_DECISION, START_ADMIT, CLUSTER_READY, PLL_STOP and PLL_RESTART (R334–R337, R339, R340): each microsecond a cluster goes to the deepest state within its limit
whose break-even its idle time has passed, and stays awake while it has work; C3 loses the rows and C4 the buffer; at most two starts of a region ramp at once, 500 ns each; an admitted
cluster is ready after its wake latency; a region's PLL stops only as R339 allows, and its restart takes 40 µs from the first request. -/
def Obligations.ClustersSleepAndWake : Prop :=
  (∀ (r : Nat) (s : State), r < 16 → Up s → exec (.sleepDecision r) s = .next (atTime s (s.mod.timer (tSLEEP r) + 1000) (fun now m =>
      forN 16 (m.setTimer (tSLEEP r) (now - now % 1000)) (fun c m => decideSleep now r c m))))
  ∧ (∀ (m : Module) (now r c : Nat),
      (sleepTarget m now r c).1 ≤ max 1 (sleepLimit m r c)
      ∧ (m.clusterBusy r c = true → sleepTarget m now r c = (0, false))
      ∧ (m.nextEvent now r c = noEvent → 2 ≤ (sleepTarget m now r c).1 → breakEven (sleepTarget m now r c).1 ≤ now - (m.cl r c).idleSince)
      ∧ (m.nextEvent now r c = noEvent → 1 ≤ (sleepTarget m now r c).1 →
          ∀ k, (sleepTarget m now r c).1 < k → k ≤ sleepLimit m r c → now - (m.cl r c).idleSince < breakEven k)
      ∧ sleepLimit m r c ≤ m.num kSLEEP_DEEPEST ∧ ((m.cl r c).lastHold = true → sleepLimit m r c ≤ 2) ∧ ((m.work r).keep.testBit c = true → sleepLimit m r c ≤ 3))
  ∧ (∀ (now r c n : Nat) (m : Module), let t := enterSleep now r c n m
      (t.cl r c).sleep = n ∧ (∀ k, k ≠ c → t.cl r k = m.cl r k) ∧ t.num (kRESIDENCY_NS + (m.cl r c).sleep) = m.num (kRESIDENCY_NS + (m.cl r c).sleep) + (now - (m.cl r c).since)
        ∧ (n < 4 → (t.cl r c).buf = (m.cl r c).buf) ∧ (n = 4 → (t.cl r c).buf = [] ∧ (t.cl r c).epoch = (m.cl r c).epoch + 1)
        ∧ (n < 3 → (t.cl r c).units = (m.cl r c).units) ∧ (3 ≤ n → ∀ u, u < 8 → (t.un r c u).rows = [] ∧ (t.un r c u).flags = (m.un r c u).flags))
  ∧ (∀ (r : Nat) (s : State), r < 16 → Up s → Ends (.startAdmit r) s fun t =>
      t.time = s.time ∧ (t.mod.rg r).power.ramp.length ≤ max 2 (s.mod.rg r).power.ramp.length ∧ (∀ x ∈ (t.mod.rg r).power.ramp, s.time < x.2) ∧ (∀ q, q ≠ r → t.mod.rg q = s.mod.rg q)
        ∧ ((s.mod.bellows.failing = true ∨ (s.mod.rg r).power.pllOff = true) → t.mod.nums = s.mod.nums ∧ ∀ c, t.mod.cl r c = s.mod.cl r c))
  ∧ (∀ (now r c : Nat) (m : Module), let x := m.modPower r (fun p => { p with ramp := p.ramp.filter (fun x => decide (now < x.2)) })
      m.bellows.failing = false → (m.rg r).power.pllOff = false → (x.rg r).power.ramp.length < 2 → nextStart x now r = some c → let t := admitStart now r m
        (t.cl r c).waiting = none ∧ (t.cl r c).waking = some (now + wakeNs (m.cl r c).sleep) ∧ (t.rg r).power.ramp = (c, now + 500) :: (x.rg r).power.ramp
          ∧ t.num kSTARTS = m.num kSTARTS + 1 ∧ ∀ k, k ≠ c → t.cl r k = m.cl r k)
  ∧ (∀ (r c d : Nat) (s : State), r < 16 → c < 16 → Up s → (s.mod.cl r c).waking = some d →
      exec (.clusterReady r c) s = .next (atTime s d (fun now m => serveTests now (clusterReady now r c m))))
  ∧ (∀ (now r c : Nat) (m : Module), let t := clusterReady now r c m
      (t.cl r c).sleep = 0 ∧ (t.cl r c).waking = none ∧ (t.cl r c).idleSince = (m.cl r c).idleSince ∧ (t.cl r c).buf = (m.cl r c).buf ∧ ∀ k, k ≠ c → t.cl r k = m.cl r k)
  ∧ (∀ (r : Nat) (s : State), r < 16 → Up s →
      (pllMayStop s.mod s.time r = true → exec (.pllStop r) s = .next (withMod s (restall s.time (((quiet s).bump kPLL_STOPS 1).modPower r (fun p => { p with pllOff := true, pllWake := none })))))
      ∧ (pllMayStop s.mod s.time r = false → exec (.pllStop r) s = .next (withMod s (quiet s)))
      ∧ (∀ d, (s.mod.rg r).power.pllOff = true → (s.mod.rg r).power.pllWake = some d →
          exec (.pllRestart r) s = .next (atTime s d (fun now m => restall now (m.modPower r (fun p => { p with pllOff := false, pllWake := none }))))))
  ∧ (∀ (m : Module) (now r : Nat), pllMayStop m now r = true → m.num kPLL_STOP = 1 ∧ (m.rg r).stack.selfRefresh = true ∧ ∀ c, c < 16 → 3 ≤ (m.cl r c).sleep)
  ∧ (∀ (now r : Nat) (m : Module), (m.rg r).power.pllOff = true → (m.rg r).power.pllWake = none → ((wakePll now r m).rg r).power.pllWake = some (now + 40000))

/-- FAST_LOOP, SLOW_LOOP, ESTIMATE_REFIT, DIVERGENCE_ENTER, DIVERGENCE_EXIT, ESTIMATE_ONLY_EXIT and HEARTBEAT_TICK (R287, R320–R325, R327): each microsecond the gates chosen keep P within the target, or are at most 1; the bucket stays within B_max, its input voltage that of the last measurement period; the control modes change as R323 says, and each change is posted; Drone and the regions beat each millisecond.
DROOP_DETECT, DROOP_RECOVER, VF_STEP, LOGIC_SENSOR_READ and DRAM_SENSOR_READ (R329, R341–R343, R417): a droop stretches the region's clock until it recovers, and is counted once; a hot region steps down one point a millisecond to
point 7 and up one each 10 ms, its voltage first and its frequency when the rail reports it; from 105 °C its gate is 0 until below 103 °C; its stack's rate is halved down to 1/8; an inlet above 40 °C is posted and changes nothing else. -/
def Obligations.PowerAndHeatAreLimited : Prop :=
  (∀ (g x : List Nat) (d v : Nat) (s : State), Up s → exec (.fastLoop g x d v) s = .next (atTime s (s.mod.timer tFAST + 1000) (fun now m =>
      serveTests now (fastLoop now g x d v (m.setTimer tFAST (now - now % 1000))))))
  ∧ (∀ (now : Nat) (g x : List Nat) (d v : Nat) (m : Module), let t := fastLoop now g x d v m
      t.env.inputMv = v ∧ t.bellows.inputMv = m.bellows.inputMv ∧ t.bellows.bucketNj ≤ bucketMax (sustained t) ∧ t.num kPOWER_CAP_W = m.num kPOWER_CAP_W
        ∧ (m.bellows.failing = true → ∀ r, r < 16 → (t.rg r).power.gate = 0))
  ∧ (∀ (m : Module) (g x : List Nat) (d target : Nat) (bounds : List Nat), let gates := (chooseGates m g x d target bounds).1
      gates.length = 16 ∧ (usedPower m (estimateAt m g x d gates) ≤ target ∨ ∀ n ∈ gates, n ≤ 1))
  ∧ (∀ (rails : List RailReading) (s : State), Up s →
      exec (.slowLoop rails) s = .next (atTime s (s.mod.timer tSLOW + 50000) (fun now m => slowLoop now rails (m.setTimer tSLOW (now - now % 50000)))))
  ∧ (∀ (now : Nat) (rails : List RailReading) (m : Module) (x : Nat × Nat), implausible m rails = some x → (m.num kCTRL_MODE = 0 ∨ m.num kCTRL_MODE = 1) → m.env.droneUp = true →
      (slowLoop now rails m).num kCTRL_MODE = 2 ∧ (slowLoop now rails m).num kSENSOR_FAULTS = m.num kSENSOR_FAULTS + 1 ∧ (slowLoop now rails m).bellows.badPeriods = 0)
  ∧ (∀ (now : Nat) (rails : List RailReading) (m : Module), implausible m rails = none → (slowLoop now rails m).num kCTRL_MODE = m.num kCTRL_MODE
      ∧ (slowLoop now rails m).nums = m.nums ∧ (slowLoop now rails m).bellows.measMw = railMw (railAt rails 0))
  ∧ (∀ s : State, Up s → exec .estimateRefit s = .next (atTime s (s.mod.timer tREFIT + 100000000) (fun now m =>
      if s.mod.num kCTRL_MODE = 0 then forN 16 (m.setTimer tREFIT (now - now % 100000000)) refit else m.setTimer tREFIT (now - now % 100000000))))
  ∧ (∀ (r : Nat) (m : Module), Tab.find? m.bellows.gains r = none ∨ (800000 ≤ (gainOf m r).1 ∧ (gainOf m r).1 ≤ 1250000) →
      800000 ≤ (gainOf (refit r m) r).1 ∧ (gainOf (refit r m) r).1 ≤ 1250000)
  ∧ (∀ s : State, Up s →
      (s.mod.num kCTRL_MODE = 0 → 20 ≤ s.mod.bellows.badPeriods → FirstOf s.mod 7 2 srcBellows → Ends .divergenceEnter s fun t =>
        t.time = s.time ∧ t.mod.num kCTRL_MODE = 1 ∧ t.mod.num kDIVERGENCES = s.mod.num kDIVERGENCES + 1 ∧ t.mod.bellows.goodPeriods = 0
          ∧ Posted s.mod t.mod s.time 7 2 srcBellows (leBytes 4 (f32Milli (s.mod.bellows.estMean : Int)) ++ leBytes 4 (f32Milli (s.mod.bellows.measMw : Int))))
      ∧ ((s.mod.num kCTRL_MODE ≠ 0 ∨ s.mod.bellows.badPeriods < 20) → exec .divergenceEnter s = .next (withMod s (quiet s)))
      ∧ (s.mod.num kCTRL_MODE = 1 → 200 ≤ s.mod.bellows.goodPeriods → FirstOf s.mod 7 3 srcBellows → Ends .divergenceExit s fun t =>
        t.time = s.time ∧ t.mod.num kCTRL_MODE = 0 ∧ t.mod.bellows.badPeriods = 0
          ∧ Posted s.mod t.mod s.time 7 3 srcBellows (leBytes 8 ((s.time - s.mod.bellows.divergedAt) / 1000)))
      ∧ ((s.mod.num kCTRL_MODE ≠ 1 ∨ s.mod.bellows.goodPeriods < 200) → exec .divergenceExit s = .next (withMod s (quiet s)))
      ∧ (s.mod.num kCTRL_MODE = 2 → 2000 ≤ s.mod.bellows.goodPeriods → exec .estimateOnlyExit s = .next (withMod s
          (((quiet s).setNum kCTRL_MODE 0).modBel (fun b => { b with badPeriods := 0, goodPeriods := 0 }))))
      ∧ ((s.mod.num kCTRL_MODE ≠ 2 ∨ s.mod.bellows.goodPeriods < 2000) → exec .estimateOnlyExit s = .next (withMod s (quiet s))))
  ∧ (∀ s : State, Up s → exec .heartbeatTick s = .next (atTime s (s.mod.timer tBEAT + 1000000) (fun now m => serveTests now (retryKex now (heartbeat (m.setTimer tBEAT (now - now % 1000000)))))))
  ∧ (∀ (r : Nat) (m : Module), r < 16 → m.env.droneUp = true → (heartbeat m).num kDRONE_HEARTBEAT = (m.num kDRONE_HEARTBEAT + 1) % 2 ^ 32
      ∧ ((heartbeat m).work r).heartbeat = if m.inReset r = true ∨ m.fstate r = 2 ∨ m.env.rails = false then (m.work r).heartbeat else ((m.work r).heartbeat + 1) % 2 ^ 32)
  ∧ (∀ (r : Nat) (s : State), r < 16 → Up s →
      ((s.mod.rg r).power.stretch = false → exec (.droopDetect r) s = .next (withMod s (((quiet s).bump kDROOP_EVENTS 1).modPower r (fun p => { p with stretch := true }))))
      ∧ ((s.mod.rg r).power.stretch = true → exec (.droopDetect r) s = .next (withMod s (quiet s)))
      ∧ exec (.droopRecover r) s = .next (withMod s ((quiet s).modPower r (fun p => { p with stretch := false }))))
  ∧ (∀ (r : Nat) (s : State), r < 16 → Up s → let p := (s.mod.rg r).power
      (milliGe p.logicMilliC (s.mod.num kLOGIC_THROTTLE_C) = true → p.fpoint < 7 →
        exec (.vfStep r true) s = .next (atTime s (p.vfDownAt + 1000000) (fun now m => m.modPower r (fun p =>
          { p with fpoint := p.fpoint + 1, vpoint := p.fpoint + 1, railFall := some (railMv m now r, now), vfDownAt := now }))))
      ∧ (milliGe (p.logicMilliC + 3000) (s.mod.num kLOGIC_THROTTLE_C) = false → 0 < p.fpoint → p.vpoint = p.fpoint →
        exec (.vfStep r false) s = .next (atTime s (max p.vfDownAt p.vfUpAt + 10000000) (fun now m => m.modPower r (fun p =>
          { p with vpoint := p.fpoint - 1, railFall := none, vfUpAt := now })))))
  ∧ (∀ (r : Nat) (x : RailReading) (m : Module), (m.rg r).power.vpoint < (m.rg r).power.fpoint → vfMv m r (m.rg r).power.vpoint ≤ x.mv →
      ((noteRail r x m).rg r).power.fpoint = (m.rg r).power.vpoint)
  ∧ (∀ (r : Nat) (milliC : List Int) (inlet : Int) (s : State), r < 16 → Up s → FirstOf s.mod 7 5 srcBellows → Ends (.logicSensorRead r milliC inlet) s fun t =>
      t.time = max s.time (s.mod.timer (tLOGIC r) + 100000) ∧ (t.mod.rg r).power.logicMilliC = hottest milliC ∧ t.mod.num (kLOGIC_TEMP_C + r) = f32Milli (hottest milliC)
        ∧ t.mod.num kCOOLANT_INLET_C = f32Milli inlet ∧ (t.mod.rg r).work = (s.mod.rg r).work ∧ (t.mod.rg r).stack = (s.mod.rg r).stack ∧ (∀ q, q ≠ r → t.mod.rg q = s.mod.rg q)
        ∧ (105000 ≤ hottest milliC → (t.mod.rg r).power.gate = 0 ∧ (t.mod.rg r).power.hotGate = true)
        ∧ (hottest milliC < 105000 → (t.mod.rg r).power.gate = (s.mod.rg r).power.gate)
        ∧ (hottest milliC < 103000 → (t.mod.rg r).power.hotGate = false)
        ∧ ((t.mod.rg r).power.logicTripSince.isSome = true ↔ 110000 ≤ hottest milliC)
        ∧ (inlet ≤ 40000 → t.mod.num kEVENT_SEQ = s.mod.num kEVENT_SEQ)
        ∧ (40000 < inlet → Posted s.mod t.mod t.time 7 5 srcBellows (leBytes 4 (f32Milli inlet))))
  ∧ (∀ (r : Nat) (milliC : List Int) (inlet : Int) (s : State), r < 16 → Up s → Ends (.dramSensorRead r milliC inlet) s fun t =>
      let p := (s.mod.rg r).power
      let d := hottest milliC
      t.time = max s.time (s.mod.timer (tDRAM r) + 1000000) ∧ (t.mod.rg r).power.dramMilliC = d ∧ t.mod.num (kDRAM_TEMP_C + r) = f32Milli d
        ∧ (∀ q, q ≠ r → t.mod.rg q = s.mod.rg q)
        ∧ (95000 ≤ d → (t.mod.rg r).power.dramLimit = 3)
        ∧ (d < 95000 → milliGe d (s.mod.num kDRAM_THROTTLE_C) = true → (t.mod.rg r).power.dramLimit = if p.dramLimit < 3 then p.dramLimit + 1 else p.dramLimit)
        ∧ (d < 95000 → milliGe d (s.mod.num kDRAM_THROTTLE_C) = false → milliGe (d + 2000) (s.mod.num kDRAM_THROTTLE_C) = true → (t.mod.rg r).power.dramLimit = p.dramLimit)
        ∧ (d < 95000 → milliGe (d + 2000) (s.mod.num kDRAM_THROTTLE_C) = false → p.dramLimit ≤ (t.mod.rg r).power.dramLimit + 1)
        ∧ ((t.mod.rg r).power.dramTripSince.isSome = true ↔ 100000 ≤ d)
        ∧ (t.mod.num kDRAM_RECAL_DUE).testBit r = ((s.mod.num kDRAM_RECAL_DUE).testBit r || (milliC.zip (if (s.mod.rg r).stack.trainTemps = [] then milliC else (s.mod.rg r).stack.trainTemps)).any (fun x => decide (10000 ≤ (x.1 - x.2).natAbs)))
        ∧ (t.mod.rg r).stack.coolSince = if d ≤ 82000 then some ((s.mod.rg r).stack.coolSince.getD t.time) else none)

/-- HOST_GATE sets an upper bound on every region's gate; while it is below 64, reason 0x8 accumulates: one microsecond in each microsecond (R7, R328). -/
def Obligations.HostGateBoundsEveryGate : Prop :=
  ∀ (g x : List Nat) (d v : Nat) (s : State), Up s → s.mod.test.reqs = [] → Ends (.fastLoop g x d v) s fun t =>
    (∀ r, r < 16 → (t.mod.rg r).power.gate ≤ t.mod.num kHOST_GATE) ∧ t.mod.num kHOST_GATE = s.mod.num kHOST_GATE
      ∧ t.mod.num (kTHROTTLE_US + 7) = s.mod.num (kTHROTTLE_US + 7) + (if s.mod.num kHOST_GATE < 64 then 1 else 0)

/-! ### Flags, registers, commits, locks -/

/-- FLAGS_CLEAR and FLAG_REGISTER_CLEAR (R64, R65): a write clears only the bits written as 1, in every flag register of the module or in the one register that it names, under each
alias of its group; FLAGS_CLEAR computes FLAGS_OR again; nothing else changes.
REGISTER_WRITE and HELD_ACCESS_COMPLETE (R277, R278, R281, R286): an access of another size than 4 or 8 bytes, one that is not aligned, one outside the used blocks and one into a domain in reset are
refused; an offset that no register has is counted; a write whose staged fields are refused applies its direct fields alone; a held access is carried out when its domain answers, and its wait adds to REG_STALL_NS. -/
def Obligations.FlagsAndRegisters : Prop :=
  (∀ (v : Nat) (s : State), Up s → exec (.flagsClear v) s = .next (withMod s ((flagsClear v (quiet s)).status 0)))
  ∧ (∀ (v : Nat) (m : Module), let t := flagsClear v m
      (∀ r c u, (t.un r c u).flags = clearFlags (m.un r c u).flags v ∧ (t.un r c u).rows = (m.un r c u).rows ∧ (t.cl r c).convFlags = clearFlags (m.cl r c).convFlags v ∧ (t.cl r c).buf = (m.cl r c).buf)
      ∧ (∀ r, (t.rg r).train.ulaneFlags = clearFlags (m.rg r).train.ulaneFlags v ∧ t.work r = m.work r ∧ (t.rg r).stack = (m.rg r).stack)
      ∧ (∀ d, Tab.get 0 t.fabric.collFlags d = clearFlags (Tab.get 0 m.fabric.collFlags d) v) ∧ t.fabric.reqs = m.fabric.reqs
      ∧ (15 ≤ v % 16 → t.num kFLAGS_OR = 0 ∧ t.num kFLAGS_REGIONS = 0)
      ∧ ∀ k, k ≠ kFLAGS_OR → k ≠ kFLAGS_REGIONS → t.num k = m.num k)
  ∧ (∀ (f v i : Nat), f < 16 → i < 4 → (clearFlags f v).testBit i = (f.testBit i && !v.testBit i))
  ∧ (∀ (block off v : Nat) (x : FlagReg) (s : State), Up s → flagRegAt block off = some x →
      exec (.flagRegisterClear block off v) s = .next (withMod s (if off % 8 = 0 then (x.clear v (quiet s)).status 0 else (quiet s).status 0)))
  ∧ (∀ (block off v : Nat) (s : State), Up s → flagRegAt block off = none → exec (.flagRegisterClear block off v) s = .next (withMod s ((quiet s).status 2)))
  ∧ (∀ r c u k, r < 16 → c < 16 → u < 8 → k < 8 → flagRegAt (0x100 + 16 * r + c) (0x1000 + 0x100 * u + 32 * k) = some (.unit r c u)
      ∧ flagRegAt (0x100 + 16 * r + c) (0x800 + 32 * k) = some (.conv r c) ∧ flagRegAt (0x010 + r) (0x400 + 32 * k) = some (.ulane r))
  ∧ (∀ (src : Source) (b off width v : Nat) (s : State), Up s →
      ((4096 ≤ b ∨ 65536 ≤ off ∨ (width ≠ 4 ∧ width ≠ 8) ∨ off % width ≠ 0 ∨ blockUsed b = false) → exec (.registerWrite src b off width v) s = .next (withMod s ((quiet s).status 2)))
      ∧ (b < 4096 → off < 65536 → accessOk (b * 65536 + off) width = true → domainSilent s.mod (domainOf b) = true →
          exec (.registerWrite src b off width v) s = .next (withMod s (quiet s)))
      ∧ (b < 4096 → off < 65536 → accessOk (b * 65536 + off) width = true → domainSilent s.mod (domainOf b) = false → domainInReset s.mod (domainOf b) = true →
          exec (.registerWrite src b off width v) s = .next (withMod s ((quiet s).status 9)))
      ∧ (b < 4096 → off < 65536 → v < 2 ^ (8 * width) → accessOk (b * 65536 + off) width = true → domainSilent s.mod (domainOf b) = false →
          domainInReset s.mod (domainOf b) = false → let f := writeFrame (quiet s) b off width v
          (accessWaits (quiet s) (.command src) f = false → let a := regWrite s.time src b off width v (quiet s)
            exec (.registerWrite src b off width v) s = .next (withMod s (a.1.status a.2)))
          ∧ (accessWaits (quiet s) (.command src) f = true →
            exec (.registerWrite src b off width v) s = .next (withMod s (holdAccess s.time (.command src) f .mesh (quiet s))))))
  ∧ (∀ (now : Nat) (asker : Asker) (f : Frame) (via : Via) (m : Module), let t := holdAccess now asker f via m
      (∃ h, t.heldAccess = m.heldAccess ++ [h] ∧ h.frame = f ∧ h.asker = asker ∧ h.since = now) ∧ t.blobs = m.blobs ∧ t.staging = m.staging ∧ t.bridge = m.bridge)
  ∧ (∀ (now : Nat) (src : Source) (b off width v : Nat) (m : Module), bridgeBlock b = false → canonOff b off = none →
      regWrite now src b off width v m = (m.bump kREG_VOID 1, 0) ∧ regRead now b off width m = (m.bump kREG_VOID 1, 0))
  ∧ (∀ (now : Nat) (src : Source) (b off o width v st : Nat) (m : Module), bridgeBlock b = false → canonOff b off = some o →
      let items := fieldItems m now b (o / 8 * 8) (o % 8) width v
      let a := directFields now src b (o / 8 * 8) (wordMask (o % 8) width) (wordValue (o % 8) width v) m
      items ≠ [] → stageStatus a.1 src (groupOfBlock b) items = st → st ≠ 0 → regWrite now src b off width v m = (a.1, if a.2 ≠ 0 then a.2 else st))
  ∧ (∀ (r k now : Nat) (src : Source) (v : Nat) (m : Module), r < 16 → k < 255 →
      ∃ t, regWrite now src (0x010 + r) (0x2000 + 4 * k) 4 v m = (t, 0) ∧ (t.work r).counter k = v % 65536 ∧ (∀ j, j ≠ k → (t.work r).counter j = (m.work r).counter j)
        ∧ ∀ q, q ≠ r → t.rg q = m.rg q)
  ∧ (∀ (k : Nat) (h : HeldAccess) (s : State), Up s → heldReady s.mod k = some h → exec (.heldAccessComplete k) s = .next (atTime s h.until_ (fun now m =>
      performAccess now h.asker h.frame h.via ({ m with heldAccess := m.heldAccess.filter (fun x => x.id ≠ k) }.bump kREG_STALL_NS (now - h.since)))))
  ∧ (∀ (k : Nat) (s : State), Up s → heldReady s.mod k = none → exec (.heldAccessComplete k) s = .next (withMod s (quiet s)))

/-- MODULE_COMMIT and MODULE_DISCARD (R284): a commit by another source than a selected group's claimer, or of a group in reset, is refused with 0x09 in COMMIT_STATUS and applies nothing; one that must wake a region, or comes behind another, waits; one with a bad value leaves every value in force but the error fields, and
all staging as they were, and says where; so does one whose tables cannot be read, with 0x01 (log entry 171), or whose image the engine cannot check, beside what the reading itself does; one that is clean applies
and empties the staging and releases the claims of the selected groups. A discard empties the staging without a check; another source's waits for 10 s. A source's accesses are held behind its earlier ones, and nothing answers while die 0 is in reset (R286). -/
def Obligations.CommitsApplyWholeOrNotAtAll : Prop :=
  (∀ (src : Source) (mask : Nat) (s : State), Up s → s.mod.dieInReset 0 = false → let f := writeFrame (quiet s) 0 0 8 (mask % 2 ^ 32)
      (accessWaits (quiet s) (.command src) f = false → let a := commitGroups s.time src mask (quiet s)
        exec (.moduleCommit src mask) s = .next (withMod s (a.1.status a.2)))
      ∧ (accessWaits (quiet s) (.command src) f = true → exec (.moduleCommit src mask) s = .next (withMod s (holdAccess s.time (.command src) f .mesh (quiet s)))))
  ∧ (∀ (src : Source) (mask v : Nat) (s : State), Up s → s.mod.dieInReset 0 = true →
      exec (.moduleCommit src mask) s = .next (withMod s (quiet s)) ∧ exec (.moduleDiscard src mask) s = .next (withMod s (quiet s)) ∧ exec (.lock v) s = .next (withMod s (quiet s)))
  ∧ (∀ (now : Nat) (src : Source) (mask g : Nat) (m : Module), g ∈ selected m mask → (groupInReset m g = true ∨ ((m.grp g).items ≠ [] ∧ (m.grp g).claim ≠ some src)) →
      commitGroups now src mask m = (m.setNum kCOMMIT_STATUS (place 9 31 24), 9))
  ∧ (∀ (now : Nat) (src : Source) (mask : Nat) (b : Bad) (m : Module), maySelect m src mask → refusalOf now m mask = some b → let x := (imageChecked now m mask).1
      ∃ t, commitGroups now src mask m = (t, b.st) ∧ t.staging = m.staging ∧ t.regions = x.regions ∧ t.blobs = x.blobs
        ∧ t.num kCOMMIT_STATUS = place b.st 31 24 + place b.group 23 19 + place b.item 15 0
        ∧ (∀ k, k ≠ kCOMMIT_STATUS → (∀ v, b.err ≠ some (k, v)) → t.num k = x.num k)
        ∧ (x = clearErrors m → ((∀ v, b.err ≠ some (kSTAGEQ_ERROR, v)) → t.num kSTAGEQ_ERROR = 0xFF) ∧ ((∀ v, b.err ≠ some (kCOLL_ERROR, v)) → t.num kCOLL_ERROR = 0xFFFF)))
  ∧ (∀ (now mask : Nat) (m : Module), (∀ x ∈ stagedOf m mask, x.2.dict = true → tableOf (wouldStand now m mask) x.2.key = none ∧ x.2.key ≠ kFW_LEN) →
      tablesRead now m mask = (clearErrors m, none) ∧ imageChecked now m mask = (clearErrors m, none))
  ∧ (∀ (now mask : Nat) (m : Module) (b : Bad), (tablesRead now m mask).2 = some b → b.st = 1 ∧ refusalOf now m mask = some b ∧ ∀ e v, b.err = some (e, v) → v = 0xFFFF)
  ∧ (∀ (now : Nat) (src : Source) (mask : Nat) (m : Module), maySelect m src mask → refusalOf now m mask = none →
      ∃ t, commitGroups now src mask m = (t, 0) ∧ t.num kCOMMIT_STATUS = 0 ∧ ∀ g ∈ selected m mask, Tab.find? t.staging g = none)
  ∧ (∀ (now : Nat) (src : Source) (v : Nat) (x : GroupSt) (m : Module), maySelect m src (2 ^ 21) → (m.num kLOCK).testBit 21 = false → v < 65536 → m.grp 21 = x →
      x.items = [{ dict := true, key := kPOWER_CAP_W, width := 0, value := 0, bytes := leBytes 2 v }] →
      ∃ t, commitGroups now src (2 ^ 21) m = (t, 0) ∧ t.num kPOWER_CAP_W = v ∧ t.num kSHORT_TERM_W = v * 7 / 6 ∧ t.bellows.bucketNj ≤ bucketMax (sustained t)
        ∧ t.num kCONFIG_COMMITS = m.num kCONFIG_COMMITS + 1 ∧ t.regions = m.regions ∧ t.blobs = m.blobs ∧ (t.grp 21).items = [] ∧ ∀ g, g ≠ 21 → t.grp g = m.grp g)
  ∧ (∀ (src : Source) (mask : Nat) (s : State), Up s → s.mod.dieInReset 0 = false → ¬TakesModuleWrites s src →
      exec (.moduleDiscard src mask) s = .next (withMod s (holdAccess s.time (.command src) (writeFrame (quiet s) 0 0 8 (2 ^ 63 + mask % 2 ^ 32)) .mesh (quiet s))))
  ∧ (∀ (src : Source) (mask : Nat) (s : State), Up s → TakesModuleWrites s src →
      ((∃ g, g < 29 ∧ mask.testBit g = true ∧ (s.mod.grp g).items ≠ [] ∧ (s.mod.grp g).claim ≠ some src ∧ s.time < (s.mod.grp g).lastWrite + 10000000000) →
        exec (.moduleDiscard src mask) s = .next (withMod s ((quiet s).status 9)))
      ∧ ((∀ g, g < 29 → mask.testBit g = true → (s.mod.grp g).items = [] ∨ (s.mod.grp g).claim = some src ∨ (s.mod.grp g).lastWrite + 10000000000 ≤ s.time) →
        Ends (.moduleDiscard src mask) s fun t => t.time = s.time ∧ t.mod.lastStatus = 0 ∧ t.mod.nums = s.mod.nums ∧ t.mod.blobs = s.mod.blobs ∧ t.mod.regions = s.mod.regions
          ∧ ∀ g, g < 29 → (t.mod.grp g).items = if mask.testBit g = true then [] else (s.mod.grp g).items))

/-- LOCK holds one bit per strobe group: a write of 1 sets that bit, a write of 0 has no effect; a write that names a group with staged entries is refused with 0x09 and sets no bit; staged writes to a locked group
are refused with 0x08, and a commit treats it as empty (R285). One that comes behind the driver's earlier accesses is held (R286). -/
def Obligations.LockedGroupsTakeNoStagedWrite : Prop :=
  (∀ (v : Nat) (s : State), Up s → TakesModuleWrites s s.mod.driver → (∀ g, g < 29 → v.testBit g = true → (s.mod.grp g).items = []) → Ends (.lock v) s fun t =>
      t.time = s.time ∧ t.mod.lastStatus = 0 ∧ (∀ g, g < 29 → (t.mod.num kLOCK).testBit g = ((s.mod.num kLOCK).testBit g || v.testBit g)) ∧ (∀ k, k ≠ kLOCK → t.mod.num k = s.mod.num k)
        ∧ t.mod.staging = s.mod.staging ∧ t.mod.regions = s.mod.regions ∧ t.mod.blobs = s.mod.blobs)
  ∧ (∀ (v g : Nat) (s : State), Up s → TakesModuleWrites s s.mod.driver → g < 29 → v.testBit g = true → (s.mod.grp g).items ≠ [] → exec (.lock v) s = .next (withMod s ((quiet s).status 9)))
  ∧ (∀ (v : Nat) (s : State), Up s → s.mod.dieInReset 0 = false → ¬TakesModuleWrites s s.mod.driver →
      exec (.lock v) s = .next (withMod s (holdAccess s.time (.command s.mod.driver) (writeFrame (quiet s) 0 0x10 4 (v % 2 ^ 32)) .mesh (quiet s))))
  ∧ (∀ (now g : Nat) (src : Source) (x : Staged) (xs : List Staged) (m : Module), (m.num kLOCK).testBit g = true → stage now src g (x :: xs) m = (m, 8))
  ∧ (∀ (m : Module) (mask g : Nat), (m.num kLOCK).testBit g = true → g ∉ selected m mask)

/-! ### The object dictionary and the field port -/

/-- DICT_READ, DICT_WRITE and DICT_INFO (R292, R302, R312, R313): a request that no queue holds is served at once and answered to its source with its own index and sequence number; an index that no entry has, a
write to a read-only or constant entry and one of another length are refused with 0x02 and change nothing; a write of another entry stages its value or acts at once; a read carries the value in force; FIELD_RO refuses each write from the field port with 0x08.
A write of STORE, RUN_ENTER or a reset request is parked while a commit is in progress (R305, R307, R380, R399); a ninth has no place (R305) and, as a command, is refused with 0x09 (log entry 178). -/
def Obligations.DictionaryRequests : Prop :=
  (∀ (src : Source) (x : DictMsg) (s : State), Up s → s.mod.drone.fieldQ = [] → s.mod.drone.bandQ = [] → s.mod.env.resetAsked = none →
      let key := dkey x.index x.sub
      (∀ row, dictRow? key = some row → entryInReset s.mod row key = false → entryAsleep s.mod row key = none →
        let v := readValue (quiet s) s.time row key (x.flags.testBit 0)
        (row.numeric = true → x.len = v.length → x.offset = 0 → exec (.dictRead src x) s = .next (withMod s (said s src x 1 0 (v.take (min v.length (msgLimit src))) key (quiet s))))
        ∧ (row.numeric = true → (x.len ≠ v.length ∨ x.offset ≠ 0) → exec (.dictRead src x) s = .next (withMod s (said s src x 1 2 [] key (quiet s))))
        ∧ (row.numeric = false → exec (.dictRead src x) s = .next (withMod s (said s src x 1 0 ((v.drop x.offset).take (min x.len (msgLimit src))) key (quiet s)))))
      ∧ (∀ row, dictRow? key = some row → entryInReset s.mod row key = true → entryAsleep s.mod row key = none → exec (.dictRead src x) s = .next (withMod s (said s src x 1 9 [] key (quiet s))))
      ∧ (key < 0xF00000 → dictRow? key = none → exec (.dictRead src x) s = .next (withMod s (said s src x 1 2 [] key (quiet s)))
          ∧ (pathRefuses s.mod src key = false → key ≠ kATTEST_NONCE → exec (.dictWrite src x) s = .next (withMod s (said s src x 2 2 [] key (quiet s)))))
      ∧ (pathRefuses s.mod src key = true →
          exec (.dictWrite src x) s = .next (withMod s (said s src x 2 8 [] key (quiet s))))
      ∧ (∀ row, dictRow? key = some row → pathRefuses s.mod src key = false → (row.acc = 0 ∨ row.acc = 4 ∨ x.len ≠ x.data.length) →
          exec (.dictWrite src x) s = .next (withMod s (said s src x 2 2 [] key (quiet s))))
      ∧ (∀ row, dictRow? key = some row → pathRefuses s.mod src key = false → x.len = x.data.length → x.len ≤ msgLimit src → entryInReset s.mod row key = false →
          entryAsleep s.mod row key = none →
          (row.acc = 3 → key ≠ kCOMMIT → key ≠ kATTEST_NONCE → let a := stagedWrite s.time src { x with op := 2 } row key (quiet s)
            exec (.dictWrite src x) s = .next (restarted s 0 (said s src x 2 a.2 [] key a.1)))
          ∧ (row.acc ≠ 0 → row.acc ≠ 3 → row.acc ≠ 4 → key ≠ kCOMMIT → key ≠ kATTEST_NONCE → key ≠ kKEX_MAILBOX →
            (row.numeric = true → x.offset = 0 → valueOk row x.data = true → (waitsCommit key = false ∨ NoCommit s) → let a := numWrite s.time src key (leNat x.data) (quiet s)
              exec (.dictWrite src x) s = .next (restarted s 0 (said s src x 2 a.2 [] key a.1)))
            ∧ (row.numeric = true → x.offset = 0 → valueOk row x.data = true → waitsCommit key = true → ¬NoCommit s →
              (s.mod.drone.parked.length < 8 → exec (.dictWrite src x) s = .next (restarted s 0
                (park { src := src, msg := { x with op := 2 }, addr := [], port := 0, arrived := s.time } 101 (quiet s))))
              ∧ (8 ≤ s.mod.drone.parked.length → exec (.dictWrite src x) s = .next (withMod s ((quiet s).status 9))))
            ∧ (row.numeric = true → (x.offset ≠ 0 ∨ valueOk row x.data = false) → exec (.dictWrite src x) s = .next (withMod s (said s src x 2 2 [] key (quiet s))))
            ∧ (row.numeric = false → let a := blobWrite s.time { x with op := 2 } row key (quiet s)
              exec (.dictWrite src x) s = .next (restarted s 0 (said s src x 2 a.2 [] key a.1)))))
      ∧ (∀ row, dictRow? key = some row → x.flags.testBit 2 = false → entryInReset s.mod row key = true →
          exec (.dictInfo src x) s = .next (withMod s (said s src x 3 9 [] key (quiet s))))
      ∧ (∀ row, dictRow? key = some row → x.flags.testBit 2 = false → entryInReset s.mod row key = false → ∃ data, data.length = 16
          ∧ exec (.dictInfo src x) s = .next (withMod s (said s src x 3 0 data key (quiet s))) ∧ leAt data 0 1 = row.ty ∧ leAt data 1 1 = row.acc ∧ leAt data 2 1 = row.pers))
  ∧ (∀ (src : Source) (m : Module), m.num kFIELD_RO = 1 → ∀ key, pathRefuses m .fieldPort key = true ∧ (0xF00000 ≤ key → pathRefuses m src key = true))

/-- FIELD_REQUEST_RECEIVE, PARKED_REQUEST_RESUME, TRANSMIT_OPPORTUNITY, PLCA_BEACON, FIELD_NEIGHBOR_SOLICITATION and TELEM_TICK (R299, R300, R304, R305, R308): a packet that is no request of version 1 to port
47,210 is dropped; a write that matches one of the last 16 within 100 ms is answered from its record and not applied; a full queue drops the request; a parked request goes on when what it waits for has come; one frame leaves at a
time, telemetry last, and the IP layer's answers first (log entry 174), which leave at once while PLCA is off; new PLCA settings act at the beacon. -/
def Obligations.FieldPortServes : Prop :=
  (∀ (p : FieldPkt) (s : State), Up s → let x := dictOfBytes p.payload
      (badPacket p → exec (.fieldRequestReceive p) s = .next (withMod s ((quiet s).bump kFIELD_BAD 1)))
      ∧ (¬badPacket p → x.kind ≠ 1 → exec (.fieldRequestReceive p) s = .next (withMod s (quiet s)))
      ∧ (¬badPacket p → x.kind = 1 → (x.op ≠ 2 ∨ recordOf s.mod s.time p x = none) →
          (s.mod.drone.fieldQ.length < 4 → exec (.fieldRequestReceive p) s = .next (withMod s (((quiet s).bump kFIELD_RX 1).modDrone (fun d =>
            { d with fieldQ := d.fieldQ ++ [{ src := .fieldPort, msg := x, addr := p.srcAddr, port := p.srcPort, arrived := s.time }] }))))
          ∧ (4 ≤ s.mod.drone.fieldQ.length → exec (.fieldRequestReceive p) s = .next (withMod s (((quiet s).bump kFIELD_RX 1).bump kFIELD_DROP 1))))
      ∧ (∀ a, ¬badPacket p → x.kind = 1 → x.op = 2 → recordOf s.mod s.time p x = some a → exec (.fieldRequestReceive p) s = .next (withMod s
          ((((quiet s).bump kFIELD_RX 1).bump kFIELD_DUP 1).modDrone (fun d => { d with outbox := d.outbox ++ [(p.srcAddr, p.srcPort, a)] })))))
  ∧ (∀ (k d : Nat) (s : State), Up s → (parkedReq s.mod k).bind (parkedUntil s.mod) = some d →
      exec (.parkedRequestResume k) s = .next (restarted s d (resumeParked (max s.time d) k (quiet s))))
  ∧ (∀ (now k : Nat) (q : DictReq) (m : Module), parkedReq m k = some q → let x := m.modDrone (fun d => { d with parked := d.parked.filter (fun y => y.id ≠ k) })
      (q.wait ≠ 100 → resumeParked now k m = serveTaken now q x)
      ∧ (q.wait = 100 → resumeParked now k m = reply now q (attest now q.msg.data x).2 [] kATTEST_NONCE (attest now q.msg.data x).1))
  ∧ (∀ (k : Nat) (s : State), Up s → s.mod.env.resetAsked = none → (parkedReq s.mod k).bind (parkedUntil s.mod) = none → exec (.parkedRequestResume k) s = .next (withMod s (quiet s)))
  ∧ (∀ s : State, Up s →
      (∀ y rest, s.mod.drone.ipOut = y :: rest → exec .transmitOpportunity s = .next (withMod s (((quiet s).modDrone (fun d => { d with ipOut := rest })).emit y)))
      ∧ (∀ a p x rest, s.mod.drone.ipOut = [] → s.mod.drone.outbox = (a, p, x) :: rest → exec .transmitOpportunity s = .next (withMod s (((quiet s).modDrone (fun d => { d with outbox := rest })).emit (.field a p x))))
      ∧ (∀ a p x, s.mod.drone.ipOut = [] → s.mod.drone.outbox = [] → s.mod.drone.telem = some (a, p, x) →
          exec .transmitOpportunity s = .next (withMod s ((((quiet s).bump kTELEM_SENT 1).modDrone (fun d => { d with telem := none })).emit (.field a p x))))
      ∧ (s.mod.drone.ipOut = [] → s.mod.drone.outbox = [] → s.mod.drone.telem = none → exec .transmitOpportunity s = .next (withMod s (quiet s)))
      ∧ (Ends .plcaBeacon s fun t => t.time = s.time ∧ t.mod.drone.plcaId = s.mod.num kFIELD_PLCA_ID ∧ t.mod.drone.plcaCount = s.mod.num kFIELD_PLCA_COUNT ∧ t.mod.nums = s.mod.nums
          ∧ t.mod.out = if s.mod.num kFIELD_PLCA_ID = 0 then [.beacon (s.mod.num kFIELD_PLCA_COUNT)] else []))
  ∧ (∀ (src target : List Byte) (s : State), Up s →
      exec (.fieldNeighborSolicitation src target) s = .next (withMod s (if target ∈ fieldAddrs (quiet s) then
        (if s.mod.drone.plcaId = 0xFF then (quiet s).emit (.neighbor 4 [] src target)
         else (quiet s).modDrone (fun d => { d with ipOut := s.mod.drone.ipOut ++ [.neighbor 4 [] src target] })) else quiet s)))
  ∧ (∀ s : State, Up s → s.mod.num kTELEM_PERIOD_MS ≠ 0 → Ends .telemTick s fun t =>
      t.time = max s.time (max (s.mod.timer tTELEM + s.mod.num kTELEM_PERIOD_MS * 1000000) (ceilDiv s.time 1000000 * 1000000))
        ∧ t.mod.num kTELEM_SKIPPED = s.mod.num kTELEM_SKIPPED + (if s.mod.drone.telem = none then 0 else 1) ∧ t.mod.regions = s.mod.regions
        ∧ ∃ x, t.mod.drone.telem = some ((s.mod.dest kTELEM_DEST).take 16, leAt (s.mod.dest kTELEM_DEST) 16 2, x) ∧ x.kind = 3 ∧ x.seq = s.mod.drone.telemSeq % 65536 ∧ x.time = t.time ∧ 48 ≤ x.data.length)
  ∧ (∀ s : State, Up s → s.mod.num kTELEM_PERIOD_MS = 0 → exec .telemTick s = .next (withMod s (quiet s)))

/-- STORE_SAVE, STORE_COMPLETE and STORE_ERASE (R294, R295): a save goes into the slot that does not hold the record in use, with a sequence number one higher, and is refused while one runs; only at its end does the
slot hold it; a save that fails leaves the record in use; an erase empties both slots; no value in force changes; a worn area is neither erased nor written (R421).
CAL_PROGRAM_DONE, FW_PROGRAM_DONE and ATTEST_NONCE (R419, R427, R429): the calibration set and the idle slot hold what was programmed; a report is signed within 20 ms and
holds the nonce. -/
def Obligations.FlashRecordsAndReports : Prop :=
  (∀ s : State, Up s → s.mod.num kSTORE_STATUS = 1 → NoCommit s → exec .storeSave s = .next (withMod s ((quiet s).status 9)) ∧ exec .storeErase s = .next (withMod s ((quiet s).status 9)))
  ∧ (∀ s : State, Up s → s.mod.num kSTORE_STATUS ≠ 1 → NoCommit s → s.mod.worn (wearCfg 0) = false → s.mod.worn (wearCfg 1) = false → Ends .storeSave s fun t =>
      t.time = s.time ∧ t.mod.lastStatus = 0 ∧ t.mod.num kSTORE_STATUS = 1 ∧ t.mod.num kSTORE_SEQ = s.mod.num kSTORE_SEQ ∧ t.mod.regions = s.mod.regions ∧ t.mod.blobs = s.mod.blobs
        ∧ (∃ xs, t.mod.flash.saving = some (s.time + 200000000, s.mod.num kSTORE_SEQ + 1, xs))
        ∧ (otherSlot s.mod = 0 → t.mod.flash.cfg1 = s.mod.flash.cfg1) ∧ (otherSlot s.mod ≠ 0 → t.mod.flash.cfg0 = s.mod.flash.cfg0))
  ∧ (∀ (d seq : Nat) (xs : List (Nat × List Byte)) (s : State), Up s → s.mod.flash.saving = some (d, seq, xs) →
      (Ends (.storeComplete true) s fun t => t.time = s.time ∧ t.mod.num kSTORE_STATUS = 2 ∧ t.mod.num kSTORE_SEQ = seq ∧ t.mod.flash.saving = none ∧ t.mod.regions = s.mod.regions
        ∧ (otherSlot s.mod = 0 → t.mod.flash.cfg0 = some (seq, xs) ∧ t.mod.flash.cfg1 = s.mod.flash.cfg1) ∧ (otherSlot s.mod ≠ 0 → t.mod.flash.cfg1 = some (seq, xs) ∧ t.mod.flash.cfg0 = s.mod.flash.cfg0))
      ∧ (Ends (.storeComplete false) s fun t => t.mod.num kSTORE_STATUS = 3 ∧ t.mod.flash.saving = none ∧ t.mod.flash.cfg0 = s.mod.flash.cfg0 ∧ t.mod.flash.cfg1 = s.mod.flash.cfg1
        ∧ t.mod.num kSTORE_SEQ = s.mod.num kSTORE_SEQ))
  ∧ (∀ s : State, Up s → s.mod.num kSTORE_STATUS ≠ 1 → NoCommit s → (s.mod.worn (wearCfg 0) = true ∨ s.mod.worn (wearCfg 1) = true) →
      exec .storeSave s = .next (withMod s (((quiet s).setNum kSTORE_STATUS 3).status 0)) ∧ exec .storeErase s = .next (withMod s (((quiet s).setNum kSTORE_STATUS 3).status 0)))
  ∧ (∀ s : State, Up s → s.mod.num kSTORE_STATUS ≠ 1 → NoCommit s → s.mod.worn (wearCfg 0) = false → s.mod.worn (wearCfg 1) = false → Ends .storeErase s fun t =>
      t.time = s.time ∧ t.mod.lastStatus = 0 ∧ t.mod.flash.cfg0 = none ∧ t.mod.flash.cfg1 = none ∧ t.mod.nums = s.mod.nums ∧ t.mod.regions = s.mod.regions)
  ∧ (∀ (d : Nat) (img : List Byte) (s : State), Up s → s.mod.flash.calBusy = some (d, img) → s.mod.env.resetPending = false →
      exec .calProgramDone s = .next (atTime s d (fun _ m => { m with flash := { s.mod.flash with cal := some img, calBusy := none } })))
  ∧ (∀ s : State, Up s → s.mod.flash.calBusy = none → exec .calProgramDone s = .next (withMod s (quiet s)))
  ∧ (∀ (d slot : Nat) (x : FwImage) (s : State), Up s → s.mod.flash.fwBusy = some (d, slot, x) → Ends .fwProgramDone s fun t =>
      t.time = max s.time d ∧ t.mod.num kFW_UPDATE_STATUS = 2 ∧ t.mod.flash.fwBusy = none ∧ (slot = 0 → t.mod.flash.image0 = some x ∧ t.mod.flash.image1 = s.mod.flash.image1)
        ∧ (slot ≠ 0 → t.mod.flash.image1 = some x ∧ t.mod.flash.image0 = s.mod.flash.image0) ∧ t.mod.regions = s.mod.regions)
  ∧ (∀ s : State, Up s → s.mod.flash.fwBusy = none → exec .fwProgramDone s = .next (withMod s (quiet s)))
  ∧ (∀ (nonce : List Byte) (s : State), Up s → nonce.length ≠ 32 → exec (.attestNonce nonce) s = .next (withMod s ((quiet s).status 2)))
  ∧ (∀ (nonce : List Byte) (s : State), Up s → nonce.length = 32 →
      let t0 := signedAt s.time s.mod
      let x := (quiet s).useFree.modSec (fun x => { x with attest := none })
      Ends (.attestNonce nonce) s fun t => s.time ≤ t.time ∧ t.time ≤ s.time + 20000000
        ∧ (match engineSign t0 (reportBody x t0 nonce) x with
           | (m, some sig) => t.mod.lastStatus = 0 ∧ t.mod.blob kATTEST_REPORT = reportBody x t0 nonce ++ sigBlock sig ∧ t.mod.regions = m.regions
           | (_, none) => t.mod.lastStatus ≠ 0 ∧ t.mod.blob kATTEST_REPORT = s.mod.blob kATTEST_REPORT))
  ∧ (∀ (now : Nat) (nonce : List Byte) (m : Module), nonce.length = 32 → (reportBody m now nonce).length = 256 ∧ ((reportBody m now nonce).drop 168).take 32 = nonce)

/-! ### Self-test and recalibration -/

/-- LOGIC_TEST, MEMORY_TEST, PORT_RECAL and DRAM_RECAL (R411, R413): a target that does not exist is refused with 0x02, a ninth request with 0x07, and one for a region that is disabled or lost with 0x08; any other is
queued, and the pending requests go on as far as they may. A logic test begins only while the bucket is empty and P with the test stays within the cap.
BIST_DEADLINE, LOGIC_TEST_DONE, MEMTEST_GRANULE, PORT_RECAL_TIMER, DRAM_TRAINING_AGE_DUE and DRAM_RECAL_DONE (R406–R412, R416, R417): a request that still waits at its deadline is refused; a logic test ends at its time, the
cluster's state lost and the region lost with a failed signature; a tested granule reads as zeros; the port that is due leaves service to train; 720 h after the last training a recalibration is due; a recalibration clears that. -/
def Obligations.TestsRunAndEnd : Prop :=
  (∀ (target mask deadline : Nat) (s : State), Up s → ∀ x ∈ requestCommands target mask deadline,
      let far := (if x.1 = 3 then 96 else 16) ≤ target
      let off := x.1 ≠ 3 ∧ (s.mod.fstate target = 3 ∨ s.mod.fstate target = 4)
      (far → exec x.2.2.2 s = .next (withMod s ((quiet s).status 2)))
      ∧ (¬far → 8 ≤ s.mod.test.reqs.length → exec x.2.2.2 s = .next (withMod s ((quiet s).status 7)))
      ∧ (¬far → s.mod.test.reqs.length < 8 → off → exec x.2.2.2 s = .next (withMod s ((quiet s).status 8)))
      ∧ (¬far → s.mod.test.reqs.length < 8 → ¬off →
          exec x.2.2.2 s = .next (withMod s ((serveTests s.time (requested s (newRequest s x.1 target x.2.1 x.2.2.1))).status 0))))
  ∧ (∀ (now : Nat) (b : Bist) (m : Module), (m.bellows.bucketNj ≠ 0 ∨ 92000 * m.num kPOWER_CAP_W < 92 * usedPower m m.bellows.estMw + 1800000) →
      ∀ x ∈ (serveLogic now b m).test.reqs, ∃ y ∈ m.test.reqs, y.id = x.id ∧ y.running = x.running)
  ∧ (∀ (k d : Nat) (s : State), Up s → bistDeadline? s.mod k = some d → exec (.bistDeadline k) s = .next (atTime s d (fun now m => bistLate now k m)))
  ∧ (∀ (k : Nat) (s : State), Up s → bistDeadline? s.mod k = none → exec (.bistDeadline k) s = .next (withMod s (quiet s)))
  ∧ (∀ (now k : Nat) (b : Bist) (m : Module), m.env.droneUp = true → m.test.reqs = [b] → b.id = k → b.running = none → b.kind = 2 → (m.rg b.region).stack.clearFrom 49152 0 = none →
      (bistLate now k m).num kBIST_REFUSED = m.num kBIST_REFUSED + 1 ∧ (bistLate now k m).num kBIST_SEQ = (m.num kBIST_SEQ + 1) % 2 ^ 32 ∧ (bistLate now k m).num kBIST_PENDING = 0
        ∧ (bistLate now k m).test.reqs = [] ∧ (bistLate now k m).regions = m.regions)
  ∧ (∀ (r c fails : Nat) (b : Bist) (s : State), r < 16 → c < 16 → Up s → logicOn s.mod r c = some b →
      exec (.logicTestDone r c fails) s = .next (atTime s b.until_ (fun now m => logicDone now b c (fails % 1024) m)))
  ∧ (∀ (now c fails : Nat) (b : Bist) (m : Module), m.env.droneUp = true → m.test.reqs = [b] → b.kind = 1 → b.mask = 2 ^ c → c < 16 → (fails = 0 ∨ m.mstate ≠ 2) → let t := logicDone now b c fails m
      t.num kLBIST_RUNS = m.num kLBIST_RUNS + 1 ∧ t.num kLBIST_FAILS = m.num kLBIST_FAILS + (if fails = 0 then 0 else 1) ∧ (t.cl b.region c).buf = [] ∧ t.test.reqs = []
        ∧ (t.cl b.region c).epoch = (m.cl b.region c).epoch + 1 ∧ (fails = 0 → t.env = m.env)
        ∧ (fails ≠ 0 → t.env.regionsDown.testBit b.region = true ∧ (m.env.regionsDown.testBit b.region = false → t.fstate b.region = 4)))
  ∧ (∀ (r : Nat) (fails : List BitFail) (s : State), r < 16 → Up s →
      (∀ g, s.mod.underTest r = some g → s.mod.env.rails = true → s.mod.inReset r = false → exec (.memtestGranule r fails) s = .next (withMod s (granuleDone s.time r g fails (quiet s))))
      ∧ ((s.mod.underTest r = none ∨ s.mod.env.rails = false ∨ s.mod.inReset r = true) → exec (.memtestGranule r fails) s = .next (withMod s (quiet s))))
  ∧ (∀ (now r g : Nat) (m : Module), m.test.reqs = [] → let t := granuleDone now r g [] m
      (∀ x ∈ (t.rg r).stack.data, ¬(2097152 * g ≤ x.1 ∧ x.1 < 2097152 * (g + 1))) ∧ (∀ a, ¬(2097152 * g ≤ a ∧ a < 2097152 * (g + 1)) → Tab.find? (t.rg r).stack.data a = Tab.find? (m.rg r).stack.data a)
        ∧ (∀ q, q ≠ r → t.rg q = m.rg q) ∧ t.num kMEMTEST_GRANULES = m.num kMEMTEST_GRANULES + (if Tab.get 0 m.test.touched r = 1 then 0 else 1))
  ∧ (∀ (p : Nat) (s : State), Up s → recalNext s.mod = some p →
      exec .portRecalTimer s = .next (atTime s (recalDue s.mod p) (fun now m => startRecal now p (m.modTest (fun t => { t with nextPort := p + 1 })))))
  ∧ (∀ s : State, Up s → recalNext s.mod = none → exec .portRecalTimer s = .next (withMod s (quiet s)))
  ∧ (∀ (now p : Nat) (m : Module), p < 96 → ∀ q ∈ disabledWith p, (startRecal now p m).portState q = 3 ∧ ((startRecal now p m).port q).enableAfter = true)
  ∧ (∀ (r : Nat) (s : State), r < 16 → Up s →
      exec (.dramTrainingAgeDue r) s = .next (atTime s ((s.mod.rg r).stack.trainTime + 2592000000000000) (fun _ m => m.setNum kDRAM_RECAL_DUE (setBit (m.num kDRAM_RECAL_DUE) r)))
      ∧ (regionRetrains s.mod r = true → exec (.dramRecalDone r) s = .next (atTime s (Tab.get 0 s.mod.test.dramRecal r) (fun now m => dramRecalEnds now r m)))
      ∧ (regionRetrains s.mod r = false → exec (.dramRecalDone r) s = .next (withMod s (quiet s))))
  ∧ (∀ (now r : Nat) (m : Module), m.test.reqs = [] → let t := dramRecalEnds now r m
      (t.num kDRAM_RECAL_DUE).testBit r = false ∧ t.num kDRAM_RECALS = m.num kDRAM_RECALS + 1 ∧ (t.rg r).stack.trainTime = now ∧ (t.rg r).stack.data = (m.rg r).stack.data
        ∧ Tab.find? t.test.dramRecal r = none)

/-! ### Line keys -/

/-- INIT, REPLY, UPDATE, HANDSHAKE_START and REKEY (R432–R434, R438, R439): messages of a way that no key protects are refused with 0x02 and an event; the end that initiates refuses INIT with 0x09; a signature that fails, or the engine, ends the
handshake without a key; a good REPLY establishes the keys that both ends derive; an UPDATE puts key n + 1 beside key n, and a second one waits until key n is retired.
KEY_UPDATE_TIMER, KEY_UPDATE_RETRY, KEY_RETIRE and KEX_HOURS_TIMER (R433, R438, R439): a sending key is renewed KEY_UPDATE_S after it came into force, or at its frame limit; a refused update is tried again after 2W; the older
key goes 2W after the first frame under the newer; fresh handshakes run every KEX_HOURS. -/
def Obligations.KeysAreEstablishedAndRenewed : Prop :=
  (∀ (via : Via) (x : KexMsg) (s : State), Up s → okVia via = true → slotOf via x.node = none →
      exec (.init via x) s = .next (withMod s (quiet s)) ∧ exec (.reply via x) s = .next (withMod s (quiet s)) ∧ exec (.update via x) s = .next (withMod s (quiet s))
        ∧ exec (.handshakeStart via x.node) s = .next (withMod s (quiet s)))
  ∧ (∀ (via : Via) (x : KexMsg) (slot : Nat) (s : State), Up s → okVia via = true → slotOf via x.node = some slot →
      let m := (quiet s).modKey slot (fun k => { k with hsFrame := none })
      (s.mod.protectsSlot slot = false → exec (.init via x) s = .next (withMod s ((kexStray s.time slot m).status 2)))
      ∧ (s.mod.protectsSlot slot = true → initiates s.mod slot = true → exec (.init via x) s = .next (withMod s (m.status 9)))
      ∧ (s.mod.protectsSlot slot = true → initiates s.mod slot = false → (x.node ≠ peerNode s.mod slot ∨ s.mod.security.disabled = true) → exec (.init via x) s = .next (withMod s ((kexStray s.time slot m).status 2)))
      ∧ (s.mod.protectsSlot slot = true → initiates s.mod slot = false → x.node = peerNode s.mod slot → s.mod.security.disabled = false →
          exec (.init via x) s = .next (withMod s (readPeerKey s.time slot (noteKeys slot (m.modKey slot (fun k => { k with hs := 3, hsWait := some x }))))))
      ∧ ((s.mod.protectsSlot slot = false ∨ (s.mod.key slot).hs ≠ 2) → exec (.reply via x) s = .next (withMod s ((kexStray s.time slot (quiet s)).status 2)))
      ∧ (s.mod.protectsSlot slot = true → (s.mod.key slot).hs = 2 → exec (.reply via x) s = .next (withMod s
          (let refused := fun (m : Module) => (kexRefused s.time slot (fingerprint (s.mod.key slot).peerPub) m).status 2
           let a := engineVerify s.time (s.mod.key slot).peerPub (kexHead x ++ shake256 32 (s.mod.key slot).hsMsg) x.signature (quiet s)
           let b := engineOp s.time 2 a.1
           let c := engineOp s.time 3 b.1
           if a.2 = false then refused a.1 else if b.2 = false then refused b.1 else if c.2 = false then refused c.1
           else let d := installKeys s.time slot (kexMaster c.1 slot x.node (Config.kemDecaps (s.mod.key slot).hsSeed x.kem) (s.mod.key slot).hsMsg (kexBytes x)) c.1
             if d.2 = true then d.1.status 0 else refused d.1)))
      ∧ ((s.mod.protectsSlot slot = false ∨ (s.mod.key slot).established = false) → exec (.update via x) s = .next (withMod s ((kexStray s.time slot (quiet s)).status 2)))
      ∧ (s.mod.protectsSlot slot = true → (s.mod.key slot).established = true → (s.mod.key slot).recvOld.isSome = true → exec (.update via x) s = .next (withMod s ((quiet s).status 9)))
      ∧ (s.mod.protectsSlot slot = true → (s.mod.key slot).established = true → (s.mod.key slot).recvOld = none → x.count ≠ (s.mod.key slot).recvIdx + 1 →
          exec (.update via x) s = .next (withMod s ((kexStray s.time slot (quiet s)).status 2)))
      ∧ (s.mod.protectsSlot slot = true → (s.mod.key slot).established = true → (s.mod.key slot).recvOld = none → x.count = (s.mod.key slot).recvIdx + 1 →
          Ends (.update via x) s fun t => t.time = s.time ∧ (t.mod.key slot).established = true ∧ (t.mod.key slot).master = (s.mod.key slot).master ∧ (∀ q, q ≠ slot → t.mod.key q = s.mod.key q)
            ∧ (if (engineOp s.time 3 (quiet s)).2 = true ∧ (engineOp s.time 4 (engineOp s.time 3 (quiet s)).1).2 = true then t.mod.lastStatus = 0 ∧ (t.mod.key slot).recvIdx = (s.mod.key slot).recvIdx + 1 ∧ (t.mod.key slot).recvOld = some (s.mod.key slot).recvIdx
               else t.mod.lastStatus = 2 ∧ t.mod.key slot = s.mod.key slot))
      ∧ (exec (.handshakeStart via x.node) s = .next (withMod s
          (if s.mod.protectsSlot slot = true ∧ initiates s.mod slot = true ∧ s.mod.security.disabled = false then readPeerKey s.time slot (noteKeys slot ((quiet s).modKey slot (fun k => { k with hs := 1, want := false }))) else quiet s))))
  ∧ (∀ (now slot : Nat) (master : List Byte) (m : Module), let a := installKeys now slot master m
      let t := a.1
      a.2 = (engineOp now 4 m).2 ∧ (t.key slot).hs = 0 ∧ (∀ q, q ≠ slot → t.key q = m.key q)
      ∧ (a.2 = true → (t.key slot).established = true ∧ (t.key slot).master = master ∧ (t.key slot).since = now ∧ (t.key slot).gone = none ∧ t.num kHANDSHAKES = m.num kHANDSHAKES + 1)
      ∧ (a.2 = false → (t.key slot).established = (m.key slot).established ∧ (t.key slot).master = (m.key slot).master ∧ t.num kHANDSHAKES = m.num kHANDSHAKES))
  ∧ (∀ (now slot : Nat) (print : List Byte) (m : Module), ((kexRefused now slot print m).key slot).hs = 0 ∧ ((kexRefused now slot print m).key slot).established = (m.key slot).established)
  ∧ (∀ (node : Nat) (s : State), Up s → exec (.rekey node) s = .next (withMod s ((rekey s.time node (quiet s)).status 0)))
  ∧ (∀ (now node : Nat) (m : Module), m.protectsEdge = false → rekey now node m = m)
  ∧ (∀ (via : Via) (node slot : Nat) (s : State), Up s → okVia via = true → slotOf via node = some slot →
      (∀ d, updateDue s.mod slot = some d → exec (.keyUpdateTimer via node) s = .next (atTime s d (fun now m => sendUpdate now slot m)))
      ∧ (updateDue s.mod slot = none → exec (.keyUpdateTimer via node) s = .next (withMod s (quiet s)))
      ∧ (∀ d, (s.mod.key slot).retryAt = some d → exec (.keyUpdateRetry via node) s = .next (atTime s d (fun now m => sendUpdate now slot m)))
      ∧ ((s.mod.key slot).retryAt = none → exec (.keyUpdateRetry via node) s = .next (withMod s (quiet s)))
      ∧ (∀ d, (s.mod.key slot).oldFirst = some d → exec (.keyRetire via node) s = .next (atTime s (d + 2 * (if slot < 256 then 8000 else 2000000000)) (fun _ m =>
          noteKeys slot (m.modKey slot (fun k => { k with recvOld := none, oldFirst := none, oldWindow := [] })))))
      ∧ ((s.mod.key slot).oldFirst = none → exec (.keyRetire via node) s = .next (withMod s (quiet s))))
  ∧ (∀ (m : Module) (slot : Nat), let k := m.key slot
      (k.established = true → k.updating = false → k.sent < 2 ^ m.num kKEY_FRAMES_LOG2 → updateDue m slot = some (k.since + m.num kKEY_UPDATE_S * 1000000000))
      ∧ (k.established = true → k.updating = false → 2 ^ m.num kKEY_FRAMES_LOG2 ≤ k.sent → updateDue m slot = some 0)
      ∧ ((k.established = false ∨ k.updating = true) → updateDue m slot = none))
  ∧ (∀ s : State, Up s → (s.mod.protectsEdge = true →
        exec .kexHoursTimer s = .next (atTime s (s.mod.timer tKEX + s.mod.num kKEX_HOURS * 3600000000000) (fun now m => handshakeAll now false (m.setTimer tKEX now))))
      ∧ (s.mod.protectsEdge = false → exec .kexHoursTimer s = .next (withMod s (quiet s))))

/-! ### RUN, pins, clocks, calibration, firmware, attestation -/

/-- RUN_ENTER (R380): refused with 0x09 while STARTING and with 0x08 when FAILED; in CONFIG the first check that fails gives its status and its code in RUN_CHECK, and the module stays in CONFIG; when every check passes, the module is in RUN.
ALERT_ACK, REFERENCE_CLOCK_LOST, REFERENCE_CLOCK_RESTORED, BYPASS, IDCODE, SAMPLE/PRELOAD and EXTEST (R332, R333, R391, R456): the alert line is released; a die's lost reference takes its ports out of UP and posts one event; the test
access port shifts its bypass bit, its identification, and the boundary register, which drives pins only while RESET_N is low. -/
def Obligations.RunEntryPinsAndClocks : Prop :=
  (∀ (v : Nat) (s : State), Up s → NoCommit s →
      (1 < v → exec (.runEnter v) s = .next (withMod s ((quiet s).status 2)))
      ∧ ((v = 0 ∨ v = 1 ∧ s.mod.mstate = 2) → exec (.runEnter v) s = .next (withMod s ((quiet s).status 0)))
      ∧ (v = 1 → s.mod.mstate = 0 → exec (.runEnter v) s = .next (withMod s ((quiet s).status 9)))
      ∧ (v = 1 → s.mod.mstate = 3 → exec (.runEnter v) s = .next (withMod s ((quiet s).status 8)))
      ∧ (∀ k st, v = 1 → s.mod.mstate = 1 → firstFailing 1 (runChecks s.mod) = some (k, st) → exec (.runEnter v) s = .next (withMod s (((quiet s).setNum kRUN_CHECK k).status st)))
      ∧ (v = 1 → s.mod.mstate = 1 → firstFailing 1 (runChecks s.mod) = none → s.mod.num kEXCH_POLICY = 0 → s.mod.num kLINE_ENC = 0 → FirstOf s.mod 9 2 srcDrone → Ends (.runEnter v) s fun t =>
          t.time = s.time ∧ t.mod.mstate = 2 ∧ t.mod.num kRUN_CHECK = 0 ∧ t.mod.lastStatus = 0 ∧ t.mod.regions = s.mod.regions ∧ Posted s.mod t.mod s.time 9 2 srcDrone []))
  ∧ (∀ m : Module, (m.num kMODULE_ROLE = 2 → firstFailing 1 (runChecks m) = some (1, 2))
      ∧ (∀ r, r < 16 → m.num kMODULE_ROLE ≠ 2 → (m.fstate r = 3 ∨ m.fstate r = 4) → firstFailing 1 (runChecks m) = some (2, 8))
      ∧ (firstFailing 1 (runChecks m) = none → ∀ g ∈ m.staging, g.2.items = []))
  ∧ (∀ (v : Nat) (s : State), Up s →
      (1 < v → exec (.alertAck v) s = .next (withMod s ((quiet s).status 2)))
      ∧ exec (.alertAck 1) s = .next (withMod s { quiet s with env := { s.mod.env with alertN := true }, lastStatus := 0 })
      ∧ exec (.alertAck 0) s = .next (withMod s ((quiet s).status 0)))
  ∧ (∀ (w : Nat) (s : State), w < 5 → Up s → s.mod.env.refLost.testBit w = true → exec (.referenceClockLost w) s = .next (withMod s (quiet s)))
  ∧ (∀ s : State, Up s → s.mod.env.refLost.testBit 0 = false → FirstOf s.mod 8 1 srcDrone → Ends (.referenceClockLost 0) s fun t =>
      t.time = s.time ∧ t.mod.env.refLost.testBit 0 = true ∧ Posted s.mod t.mod s.time 8 1 srcDrone [0] ∧ t.mod.regions = s.mod.regions ∧ t.mod.ports = s.mod.ports)
  ∧ (∀ (d : Nat) (s : State), d < 4 → Up s → s.mod.env.refLost.testBit (1 + d) = false → (∀ p, p < 96 → (s.mod.port p).unacked = [] ∧ (s.mod.port p).waiting = []) → Ends (.referenceClockLost (1 + d)) s fun t =>
      t.time = s.time ∧ t.mod.env.refLost.testBit (1 + d) = true
        ∧ ∀ p, p < 96 → t.mod.portState p = if portDie p = d ∧ s.mod.portState p = 2 then 1 else s.mod.portState p)
  ∧ (∀ (w : Nat) (s : State), w < 5 → exec (.referenceClockRestored w) s = .next (withMod s { quiet s with env := { s.mod.env with refLost := clrBit s.mod.env.refLost w } }))
  ∧ (∀ (b : Bool) (s : State), Ends (.bypass b) s fun t => t.mod.out = [.tdo [s.mod.tap.bypass]] ∧ t.mod.tap.bypass = b ∧ t.mod.tap.drive = false ∧ t.mod.regions = s.mod.regions ∧ t.mod.nums = s.mod.nums)
  ∧ (∀ s : State, Ends .idcode s fun t => t.mod.regions = s.mod.regions ∧ t.mod.nums = s.mod.nums ∧ ∃ bits, t.mod.out = [.tdo bits] ∧ bits.length = 32 ∧ ∀ i, i < 32 → bits[i]? = some ((0x09616A2D : Nat).testBit i))
  ∧ (∀ (shift : List Bool) (s : State), Ends (.samplePreload shift) s fun t => t.mod.tap.drive = false ∧ t.mod.regions = s.mod.regions ∧ t.mod.nums = s.mod.nums
      ∧ (shift.length = 16 → t.mod.tap.boundary = shift ∧ t.mod.out = [.tdo (pinLevels (quiet s))]))
  ∧ (∀ (shift : List Bool) (s : State), (s.mod.env.resetN = false → Ends (.extest shift) s fun t => t.mod.tap.drive = true ∧ t.mod.regions = s.mod.regions ∧ (shift.length = 16 → t.mod.tap.boundary = shift))
      ∧ (s.mod.env.resetN = true → Ends (.extest shift) s fun t => t.mod.tap.drive = false ∧ t.mod.tap.boundary = s.mod.tap.boundary ∧ t.mod.regions = s.mod.regions))

/-! ### Events -/

/-- Each event is recorded at once, numbered and queued for EVENT_DEST, unless one of its class, code and source was recorded within the millisecond before, when it is merged and counted; a fatal one asserts the alert line,
recorded or merged; nothing else changes (R311, R390, R391). -/
def Obligations.EventsArePosted : Prop :=
  (∀ (fatal : Bool) (now cls code src : Nat) (detail : List Byte) (m : Module), m.env.droneUp = true → let t := postF fatal now cls code src detail m
      let last := Tab.find? m.drone.lastEvent ((cls * 2 ^ 16 + code) * 2 ^ 32 + src)
      t.env.alertN = (m.env.alertN && !fatal) ∧ t.regions = m.regions ∧ t.ports = m.ports ∧ t.blobs = m.blobs ∧ t.out = m.out
      ∧ (∀ t0, last = some t0 → now < t0 + 1000000 → t.num kEVENTS_MERGED = m.num kEVENTS_MERGED + 1 ∧ t.num kEVENT_SEQ = m.num kEVENT_SEQ ∧ t.drone = m.drone)
      ∧ ((last = none ∨ ∃ t0, last = some t0 ∧ t0 + 1000000 ≤ now) → Posted m t now cls code src detail ∧ t.num kEVENTS_SENT = m.num kEVENTS_SENT + 1 ∧ t.num kEVENTS_MERGED = m.num kEVENTS_MERGED
          ∧ Tab.find? t.drone.lastEvent ((cls * 2 ^ 16 + code) * 2 ^ 32 + src) = some now ∧ t.drone.outbox.length = m.drone.outbox.length + 1))
  ∧ (∀ (fatal : Bool) (now cls code src : Nat) (detail : List Byte) (m : Module), m.env.droneUp = false → postF fatal now cls code src detail m = m)
  ∧ (∀ (seq cls code now src : Nat) (detail : List Byte), (eventRecord seq cls code now src detail).length = 32)
end

