-- ==== Sys2Proof/Laws/Forms.lean ====
section
/-! SUPPORT. Laws of the forms of a meaning: what each form answers, with Drone running and without, and that none touches
the command queue. -/

namespace Sys2Proof.Machine

variable {s t : State} {f g : Nat → Module → Module} {d : Nat} {c ok : Bool} {o : Host.Outcome State Fault Refusal}

/-! ### A command goes on exactly when its parts exist -/

theorem guarded_true : guarded true o = o := rfl
theorem guarded_false : guarded false o = .fault .noSuchPart := rfl

theorem guarded_next : guarded ok o = .next t ↔ ok = true ∧ o = .next t := by cases ok <;> simp [guarded]

/-! ### With Drone running -/

theorem does_up (h : s.mod.env.droneUp = true) : s.does f = .next { s with mod := f s.time { s.mod with out := [] } } := by
  simp [State.does, State.always, h]

theorem doesAt_up (h : s.mod.env.droneUp = true) :
    s.doesAt d f = .next { s with time := max s.time d, mod := f (max s.time d) { s.mod with out := [] } } := by simp [State.doesAt, h]

theorem doesWhen_up (h : s.mod.env.droneUp = true) (hc : c = true) :
    s.doesWhen c d f = .next { s with time := max s.time d, mod := f (max s.time d) { s.mod with out := [] } } := by
  simp [State.doesWhen, State.doesAt, h, hc]

theorem every_up {key period : Nat} (h : s.mod.env.droneUp = true) :
    s.every key period f =
      (let now := max s.time (s.mod.timer key + period)
       .next { s with time := now, mod := f now (Module.setTimer { s.mod with out := [] } key (now - now % period)) }) := by
  simp [State.every, State.doesAt, h]

theorem always_next : s.always f = .next { s with mod := f s.time { s.mod with out := [] } } := rfl

/-! ### Without Drone -/

theorem does_off (h : s.mod.env.droneUp = false) : s.does f = .next { s with mod := { s.mod with out := [] } } := by
  simp [State.does, State.always, h]

theorem doesAt_off (h : s.mod.env.droneUp = false) : s.doesAt d f = .next { s with mod := { s.mod with out := [] } } := by
  simp [State.doesAt, h]

theorem doesWhen_off (h : s.mod.env.droneUp = false) : s.doesWhen c d f = .next { s with mod := { s.mod with out := [] } } := doesAt_off h

theorem every_off {key period : Nat} (h : s.mod.env.droneUp = false) : s.every key period f = .next { s with mod := { s.mod with out := [] } } :=
  doesAt_off h

theorem serves_off (h : s.mod.env.droneUp = false) : s.serves d f = .next { s with mod := { s.mod with out := [] } } := by
  simp [State.serves, h]

theorem reboots_not (h : c = false) :
    s.reboots c d f g = .next { s with time := max s.time d, mod := g (max s.time d) { s.mod with out := [] } } := by
  simp [State.reboots, h]

theorem reboots_yes (h : c = true) :
    s.reboots c d f g = .next { s with time := bootTime, mod := f (max s.time d) { s.mod with out := [] } } := by
  simp [State.reboots, h]

/-! ### Every form goes on, and leaves the queue -/

theorem always_goes : ∃ t, s.always f = .next t ∧ t.pending = s.pending ∧ t.time = s.time := ⟨_, rfl, rfl, rfl⟩

theorem does_goes : ∃ t, s.does f = .next t ∧ t.pending = s.pending ∧ t.time = s.time := ⟨_, rfl, rfl, rfl⟩

theorem doesAt_goes : ∃ t, s.doesAt d f = .next t ∧ t.pending = s.pending ∧ s.time ≤ t.time := by
  unfold State.doesAt; split
  · exact ⟨_, rfl, rfl, Nat.le_max_left _ _⟩
  · exact ⟨_, rfl, rfl, Nat.le_refl _⟩

theorem doesWhen_goes : ∃ t, s.doesWhen c d f = .next t ∧ t.pending = s.pending ∧ s.time ≤ t.time := doesAt_goes

theorem every_goes {key period : Nat} : ∃ t, s.every key period f = .next t ∧ t.pending = s.pending ∧ s.time ≤ t.time := doesAt_goes

theorem reboots_goes : ∃ t, s.reboots c d f g = .next t ∧ t.pending = s.pending := ⟨_, rfl, rfl⟩

theorem serves_goes : ∃ t, s.serves d f = .next t ∧ t.pending = s.pending := by
  unfold State.serves; split
  · simp only []
    split <;> exact ⟨_, rfl, rfl⟩
  · exact ⟨_, rfl, rfl⟩

end Sys2Proof.Machine
end

