-- ==== Sys2Proof/Laws/Tab.lean ====
section
/-! SUPPORT. Laws of sparse tables: what reads give after writes, and the forms that writes keep. -/

namespace Sys2Proof.Machine

variable {α : Type}

@[simp] theorem Tab.find?_nil (k : Nat) : Tab.find? ([] : List (Nat × α)) k = none := rfl

/-- A value put under a key is found there. -/
@[simp] theorem Tab.find?_put_self (t : List (Nat × α)) (k : Nat) (v : α) : Tab.find? (Tab.put t k v) k = some v := by
  induction t with
  | nil => simp [Tab.put, Tab.find?]
  | cons p t ih =>
    obtain ⟨j, w⟩ := p
    by_cases h1 : j = k
    · simp [Tab.put, Tab.find?, h1]
    · by_cases h2 : k < j
      · simp [Tab.put, Tab.find?, h1, h2]
      · simp [Tab.put, Tab.find?, h1, h2, ih]

/-- Other keys read as before. -/
theorem Tab.find?_put_ne (t : List (Nat × α)) {k j : Nat} (v : α) (h : j ≠ k) : Tab.find? (Tab.put t k v) j = Tab.find? t j := by
  induction t with
  | nil => simp [Tab.put, Tab.find?]; omega
  | cons p t ih =>
    obtain ⟨i, w⟩ := p
    by_cases h1 : i = k
    · subst h1; simp [Tab.put, Tab.find?, Ne.symm h]
    · by_cases h2 : k < i
      · simp [Tab.put, Tab.find?, h1, h2, Ne.symm h]
      · simp [Tab.put, Tab.find?, h1, h2, ih]

@[simp] theorem Tab.get_put_self (d : α) (t : Tab α) (k : Nat) (v : α) : Tab.get d (Tab.put t k v) k = v := by simp [Tab.get]

theorem Tab.get_put_ne (d : α) (t : Tab α) {k j : Nat} (v : α) (h : j ≠ k) : Tab.get d (Tab.put t k v) j = Tab.get d t j := by
  simp [Tab.get, Tab.find?_put_ne t v h]

/-- Keys from a bound on stay so. -/
theorem Tab.sortedFrom_mono {t : List (Nat × α)} {a b : Nat} (h : a ≤ b) (hs : Tab.sortedFrom b t = true) : Tab.sortedFrom a t = true := by
  cases t with
  | nil => rfl
  | cons p t =>
    simp only [Tab.sortedFrom, Bool.and_eq_true, decide_eq_true_eq] at *
    exact ⟨by omega, hs.2⟩

theorem Tab.sortedFrom_put {t : List (Nat × α)} {lo k : Nat} (v : α) (hk : lo ≤ k) (hs : Tab.sortedFrom lo t = true) :
    Tab.sortedFrom lo (Tab.put t k v) = true := by
  induction t generalizing lo with
  | nil => simp [Tab.put, Tab.sortedFrom, hk]
  | cons p t ih =>
    obtain ⟨i, w⟩ := p
    simp only [Tab.sortedFrom, Bool.and_eq_true, decide_eq_true_eq] at hs
    by_cases h1 : i = k
    · subst h1; simp [Tab.put, Tab.sortedFrom, hs]
    · by_cases h2 : k < i
      · simp [Tab.put, Tab.sortedFrom, h1, h2, hk, hs.2] <;> omega
      · simp [Tab.put, Tab.sortedFrom, h1, h2, hs.1, ih (by omega : i + 1 ≤ k) hs.2]

theorem Tab.sortedFrom_del {t : List (Nat × α)} {lo k : Nat} (hs : Tab.sortedFrom lo t = true) : Tab.sortedFrom lo (Tab.del t k) = true := by
  induction t generalizing lo with
  | nil => rfl
  | cons p t ih =>
    obtain ⟨i, w⟩ := p
    simp only [Tab.sortedFrom, Bool.and_eq_true, decide_eq_true_eq] at hs
    by_cases h1 : i = k
    · simp only [Tab.del, h1, if_true]; exact ih (Tab.sortedFrom_mono (by omega) hs.2)
    · simp [Tab.del, Tab.sortedFrom, h1, hs.1, ih hs.2]

/-- Writing keeps keys strictly rising. -/
theorem Tab.wf_put {t : Tab α} (k : Nat) (v : α) (h : Tab.wf t = true) : Tab.wf (Tab.put t k v) = true := Tab.sortedFrom_put v (Nat.zero_le k) h

theorem Tab.wf_del {t : Tab α} (k : Nat) (h : Tab.wf t = true) : Tab.wf (Tab.del t k) = true := Tab.sortedFrom_del h

theorem Tab.wf_set [DecidableEq α] (d : α) {t : Tab α} (k : Nat) (v : α) (h : Tab.wf t = true) : Tab.wf (Tab.set d t k v) = true := by
  unfold Tab.set; split
  · exact Tab.wf_del k h
  · exact Tab.wf_put k v h

@[simp] theorem Tab.find?_del_self (t : List (Nat × α)) (k : Nat) : Tab.find? (Tab.del t k) k = none := by
  induction t with
  | nil => rfl
  | cons p t ih =>
    obtain ⟨i, w⟩ := p
    by_cases h1 : i = k
    · simp [Tab.del, h1, ih]
    · simp [Tab.del, Tab.find?, h1, ih]

theorem Tab.find?_del_ne (t : List (Nat × α)) {k j : Nat} (hj : j ≠ k) : Tab.find? (Tab.del t k) j = Tab.find? t j := by
  induction t with
  | nil => rfl
  | cons p t ih =>
    obtain ⟨i, w⟩ := p
    by_cases h1 : i = k
    · subst h1; simp [Tab.del, Tab.find?, Ne.symm hj, ih]
    · simp [Tab.del, Tab.find?, h1, ih]

/-- A written value is read back. -/
@[simp] theorem Tab.get_set_self [DecidableEq α] (d : α) (t : Tab α) (k : Nat) (v : α) : Tab.get d (Tab.set d t k v) k = v := by
  unfold Tab.set; split
  · rename_i hv; simp [Tab.get, hv]
  · simp

theorem Tab.get_set_ne [DecidableEq α] (d : α) (t : Tab α) {k j : Nat} (v : α) (hj : j ≠ k) :
    Tab.get d (Tab.set d t k v) j = Tab.get d t j := by
  unfold Tab.set; split
  · simp [Tab.get, Tab.find?_del_ne t hj]
  · exact Tab.get_put_ne d t v hj

/-- Writes keep "no listed value is the default". -/
theorem Tab.all_put {t : List (Nat × α)} {p : Nat × α → Bool} {k : Nat} {v : α} (ht : t.all p = true) (hv : p (k, v) = true) :
    (Tab.put t k v).all p = true := by
  induction t with
  | nil => simp [Tab.put, hv]
  | cons x t ih =>
    obtain ⟨i, w⟩ := x
    simp only [List.all_cons, Bool.and_eq_true] at ht
    by_cases h1 : i = k
    · simp [Tab.put, h1, hv]; simpa using ht.2
    · by_cases h2 : k < i
      · simp [Tab.put, h1, h2, hv, ht.1]; simpa using ht.2
      · simp [Tab.put, h1, h2, ht.1]; simpa using ih ht.2

theorem Tab.all_del {t : List (Nat × α)} {p : Nat × α → Bool} {k : Nat} (ht : t.all p = true) : (Tab.del t k).all p = true := by
  induction t with
  | nil => rfl
  | cons x t ih =>
    obtain ⟨i, w⟩ := x
    simp only [List.all_cons, Bool.and_eq_true] at ht
    by_cases h1 : i = k
    · simp only [Tab.del, h1, if_true]; exact ih ht.2
    · simp [Tab.del, h1, ht.1]; simpa using ih ht.2

/-- Writing keeps a table canonical. -/
theorem Tab.canon_set [DecidableEq α] (d : α) {t : Tab α} (k : Nat) (v : α) (h : Tab.canon d t = true) : Tab.canon d (Tab.set d t k v) = true := by
  simp only [Tab.canon, Bool.and_eq_true] at *
  refine ⟨Tab.wf_set d k v h.1, ?_⟩
  unfold Tab.set; split
  · exact Tab.all_del h.2
  · rename_i hv; exact Tab.all_put h.2 (by simp [hv])

theorem Tab.sortedFrom_filter {t : List (Nat × α)} {p : Nat × α → Bool} {lo : Nat} (h : Tab.sortedFrom lo t = true) :
    Tab.sortedFrom lo (t.filter p) = true := by
  induction t generalizing lo with
  | nil => rfl
  | cons x t ih =>
    obtain ⟨i, w⟩ := x
    simp only [Tab.sortedFrom, Bool.and_eq_true, decide_eq_true_eq] at h
    by_cases hp : p (i, w) = true
    · simp [List.filter, hp, Tab.sortedFrom, h.1, ih h.2]
    · simp [List.filter, hp]; exact ih (Tab.sortedFrom_mono (by omega) h.2)

/-- Dropping entries keeps a table canonical. -/
theorem Tab.canon_filter [DecidableEq α] (d : α) {t : Tab α} (p : Nat × α → Bool) (h : Tab.canon d t = true) : Tab.canon d (t.filter p) = true := by
  simp only [Tab.canon, Bool.and_eq_true, Tab.wf] at *
  refine ⟨Tab.sortedFrom_filter h.1, ?_⟩
  simp only [List.all_eq_true, List.mem_filter] at *
  exact fun x hx => h.2 x hx.1

end Sys2Proof.Machine
end

