-- ==== Sys2Proof/Laws/State.lean ====
section
/-! SUPPORT. The updates of the module field by field (each true by definition), and what reads give after them. -/

namespace Sys2Proof.Machine

variable (m : Module)

/-! `setNum` -/

@[simp] theorem Module.setNum_nums (k v : Nat) : (m.setNum k v).nums = Tab.set 0 m.nums k v := rfl
@[simp] theorem Module.setNum_blobs (k v : Nat) : (m.setNum k v).blobs = m.blobs := rfl
@[simp] theorem Module.setNum_staging (k v : Nat) : (m.setNum k v).staging = m.staging := rfl
@[simp] theorem Module.setNum_heldAccess (k v : Nat) : (m.setNum k v).heldAccess = m.heldAccess := rfl
@[simp] theorem Module.setNum_nextHeld (k v : Nat) : (m.setNum k v).nextHeld = m.nextHeld := rfl
@[simp] theorem Module.setNum_regions (k v : Nat) : (m.setNum k v).regions = m.regions := rfl
@[simp] theorem Module.setNum_ctxGen (k v : Nat) : (m.setNum k v).ctxGen = m.ctxGen := rfl
@[simp] theorem Module.setNum_ports (k v : Nat) : (m.setNum k v).ports = m.ports := rfl
@[simp] theorem Module.setNum_edges (k v : Nat) : (m.setNum k v).edges = m.edges := rfl
@[simp] theorem Module.setNum_fabric (k v : Nat) : (m.setNum k v).fabric = m.fabric := rfl
@[simp] theorem Module.setNum_bridge (k v : Nat) : (m.setNum k v).bridge = m.bridge := rfl
@[simp] theorem Module.setNum_drone (k v : Nat) : (m.setNum k v).drone = m.drone := rfl
@[simp] theorem Module.setNum_chanter (k v : Nat) : (m.setNum k v).chanter = m.chanter := rfl
@[simp] theorem Module.setNum_stageqs (k v : Nat) : (m.setNum k v).stageqs = m.stageqs := rfl
@[simp] theorem Module.setNum_cycles (k v : Nat) : (m.setNum k v).cycles = m.cycles := rfl
@[simp] theorem Module.setNum_resets (k v : Nat) : (m.setNum k v).resets = m.resets := rfl
@[simp] theorem Module.setNum_env (k v : Nat) : (m.setNum k v).env = m.env := rfl
@[simp] theorem Module.setNum_flash (k v : Nat) : (m.setNum k v).flash = m.flash := rfl
@[simp] theorem Module.setNum_bellows (k v : Nat) : (m.setNum k v).bellows = m.bellows := rfl
@[simp] theorem Module.setNum_cal (k v : Nat) : (m.setNum k v).cal = m.cal := rfl
@[simp] theorem Module.setNum_cuts (k v : Nat) : (m.setNum k v).cuts = m.cuts := rfl
@[simp] theorem Module.setNum_test (k v : Nat) : (m.setNum k v).test = m.test := rfl
@[simp] theorem Module.setNum_security (k v : Nat) : (m.setNum k v).security = m.security := rfl
@[simp] theorem Module.setNum_tap (k v : Nat) : (m.setNum k v).tap = m.tap := rfl
@[simp] theorem Module.setNum_norm (k v : Nat) : (m.setNum k v).norm = m.norm := rfl
@[simp] theorem Module.setNum_timers (k v : Nat) : (m.setNum k v).timers = m.timers := rfl
@[simp] theorem Module.setNum_out (k v : Nat) : (m.setNum k v).out = m.out := rfl
@[simp] theorem Module.setNum_lastStatus (k v : Nat) : (m.setNum k v).lastStatus = m.lastStatus := rfl
@[simp] theorem Module.setNum_free (k v : Nat) : (m.setNum k v).free = m.free := rfl

/-! `bump` -/

@[simp] theorem Module.bump_nums (k n : Nat) : (m.bump k n).nums = Tab.set 0 m.nums k (m.num k + n) := rfl
@[simp] theorem Module.bump_blobs (k n : Nat) : (m.bump k n).blobs = m.blobs := rfl
@[simp] theorem Module.bump_staging (k n : Nat) : (m.bump k n).staging = m.staging := rfl
@[simp] theorem Module.bump_heldAccess (k n : Nat) : (m.bump k n).heldAccess = m.heldAccess := rfl
@[simp] theorem Module.bump_nextHeld (k n : Nat) : (m.bump k n).nextHeld = m.nextHeld := rfl
@[simp] theorem Module.bump_regions (k n : Nat) : (m.bump k n).regions = m.regions := rfl
@[simp] theorem Module.bump_ctxGen (k n : Nat) : (m.bump k n).ctxGen = m.ctxGen := rfl
@[simp] theorem Module.bump_ports (k n : Nat) : (m.bump k n).ports = m.ports := rfl
@[simp] theorem Module.bump_edges (k n : Nat) : (m.bump k n).edges = m.edges := rfl
@[simp] theorem Module.bump_fabric (k n : Nat) : (m.bump k n).fabric = m.fabric := rfl
@[simp] theorem Module.bump_bridge (k n : Nat) : (m.bump k n).bridge = m.bridge := rfl
@[simp] theorem Module.bump_drone (k n : Nat) : (m.bump k n).drone = m.drone := rfl
@[simp] theorem Module.bump_chanter (k n : Nat) : (m.bump k n).chanter = m.chanter := rfl
@[simp] theorem Module.bump_stageqs (k n : Nat) : (m.bump k n).stageqs = m.stageqs := rfl
@[simp] theorem Module.bump_cycles (k n : Nat) : (m.bump k n).cycles = m.cycles := rfl
@[simp] theorem Module.bump_resets (k n : Nat) : (m.bump k n).resets = m.resets := rfl
@[simp] theorem Module.bump_env (k n : Nat) : (m.bump k n).env = m.env := rfl
@[simp] theorem Module.bump_flash (k n : Nat) : (m.bump k n).flash = m.flash := rfl
@[simp] theorem Module.bump_bellows (k n : Nat) : (m.bump k n).bellows = m.bellows := rfl
@[simp] theorem Module.bump_cal (k n : Nat) : (m.bump k n).cal = m.cal := rfl
@[simp] theorem Module.bump_cuts (k n : Nat) : (m.bump k n).cuts = m.cuts := rfl
@[simp] theorem Module.bump_test (k n : Nat) : (m.bump k n).test = m.test := rfl
@[simp] theorem Module.bump_security (k n : Nat) : (m.bump k n).security = m.security := rfl
@[simp] theorem Module.bump_tap (k n : Nat) : (m.bump k n).tap = m.tap := rfl
@[simp] theorem Module.bump_norm (k n : Nat) : (m.bump k n).norm = m.norm := rfl
@[simp] theorem Module.bump_timers (k n : Nat) : (m.bump k n).timers = m.timers := rfl
@[simp] theorem Module.bump_out (k n : Nat) : (m.bump k n).out = m.out := rfl
@[simp] theorem Module.bump_lastStatus (k n : Nat) : (m.bump k n).lastStatus = m.lastStatus := rfl
@[simp] theorem Module.bump_free (k n : Nat) : (m.bump k n).free = m.free := rfl

/-! `setBlob` -/

@[simp] theorem Module.setBlob_nums (k : Nat) (v : List Byte) : (m.setBlob k v).nums = m.nums := rfl
@[simp] theorem Module.setBlob_blobs (k : Nat) (v : List Byte) : (m.setBlob k v).blobs = Tab.set [] m.blobs k v := rfl
@[simp] theorem Module.setBlob_staging (k : Nat) (v : List Byte) : (m.setBlob k v).staging = m.staging := rfl
@[simp] theorem Module.setBlob_heldAccess (k : Nat) (v : List Byte) : (m.setBlob k v).heldAccess = m.heldAccess := rfl
@[simp] theorem Module.setBlob_nextHeld (k : Nat) (v : List Byte) : (m.setBlob k v).nextHeld = m.nextHeld := rfl
@[simp] theorem Module.setBlob_regions (k : Nat) (v : List Byte) : (m.setBlob k v).regions = m.regions := rfl
@[simp] theorem Module.setBlob_ctxGen (k : Nat) (v : List Byte) : (m.setBlob k v).ctxGen = m.ctxGen := rfl
@[simp] theorem Module.setBlob_ports (k : Nat) (v : List Byte) : (m.setBlob k v).ports = m.ports := rfl
@[simp] theorem Module.setBlob_edges (k : Nat) (v : List Byte) : (m.setBlob k v).edges = m.edges := rfl
@[simp] theorem Module.setBlob_fabric (k : Nat) (v : List Byte) : (m.setBlob k v).fabric = m.fabric := rfl
@[simp] theorem Module.setBlob_bridge (k : Nat) (v : List Byte) : (m.setBlob k v).bridge = m.bridge := rfl
@[simp] theorem Module.setBlob_drone (k : Nat) (v : List Byte) : (m.setBlob k v).drone = m.drone := rfl
@[simp] theorem Module.setBlob_chanter (k : Nat) (v : List Byte) : (m.setBlob k v).chanter = m.chanter := rfl
@[simp] theorem Module.setBlob_stageqs (k : Nat) (v : List Byte) : (m.setBlob k v).stageqs = m.stageqs := rfl
@[simp] theorem Module.setBlob_cycles (k : Nat) (v : List Byte) : (m.setBlob k v).cycles = m.cycles := rfl
@[simp] theorem Module.setBlob_resets (k : Nat) (v : List Byte) : (m.setBlob k v).resets = m.resets := rfl
@[simp] theorem Module.setBlob_env (k : Nat) (v : List Byte) : (m.setBlob k v).env = m.env := rfl
@[simp] theorem Module.setBlob_flash (k : Nat) (v : List Byte) : (m.setBlob k v).flash = m.flash := rfl
@[simp] theorem Module.setBlob_bellows (k : Nat) (v : List Byte) : (m.setBlob k v).bellows = m.bellows := rfl
@[simp] theorem Module.setBlob_cal (k : Nat) (v : List Byte) : (m.setBlob k v).cal = m.cal := rfl
@[simp] theorem Module.setBlob_cuts (k : Nat) (v : List Byte) : (m.setBlob k v).cuts = m.cuts := rfl
@[simp] theorem Module.setBlob_test (k : Nat) (v : List Byte) : (m.setBlob k v).test = m.test := rfl
@[simp] theorem Module.setBlob_security (k : Nat) (v : List Byte) : (m.setBlob k v).security = m.security := rfl
@[simp] theorem Module.setBlob_tap (k : Nat) (v : List Byte) : (m.setBlob k v).tap = m.tap := rfl
@[simp] theorem Module.setBlob_norm (k : Nat) (v : List Byte) : (m.setBlob k v).norm = m.norm := rfl
@[simp] theorem Module.setBlob_timers (k : Nat) (v : List Byte) : (m.setBlob k v).timers = m.timers := rfl
@[simp] theorem Module.setBlob_out (k : Nat) (v : List Byte) : (m.setBlob k v).out = m.out := rfl
@[simp] theorem Module.setBlob_lastStatus (k : Nat) (v : List Byte) : (m.setBlob k v).lastStatus = m.lastStatus := rfl
@[simp] theorem Module.setBlob_free (k : Nat) (v : List Byte) : (m.setBlob k v).free = m.free := rfl

/-! `status` -/

@[simp] theorem Module.status_nums (st : Nat) : (m.status st).nums = m.nums := rfl
@[simp] theorem Module.status_blobs (st : Nat) : (m.status st).blobs = m.blobs := rfl
@[simp] theorem Module.status_staging (st : Nat) : (m.status st).staging = m.staging := rfl
@[simp] theorem Module.status_heldAccess (st : Nat) : (m.status st).heldAccess = m.heldAccess := rfl
@[simp] theorem Module.status_nextHeld (st : Nat) : (m.status st).nextHeld = m.nextHeld := rfl
@[simp] theorem Module.status_regions (st : Nat) : (m.status st).regions = m.regions := rfl
@[simp] theorem Module.status_ctxGen (st : Nat) : (m.status st).ctxGen = m.ctxGen := rfl
@[simp] theorem Module.status_ports (st : Nat) : (m.status st).ports = m.ports := rfl
@[simp] theorem Module.status_edges (st : Nat) : (m.status st).edges = m.edges := rfl
@[simp] theorem Module.status_fabric (st : Nat) : (m.status st).fabric = m.fabric := rfl
@[simp] theorem Module.status_bridge (st : Nat) : (m.status st).bridge = m.bridge := rfl
@[simp] theorem Module.status_drone (st : Nat) : (m.status st).drone = m.drone := rfl
@[simp] theorem Module.status_chanter (st : Nat) : (m.status st).chanter = m.chanter := rfl
@[simp] theorem Module.status_stageqs (st : Nat) : (m.status st).stageqs = m.stageqs := rfl
@[simp] theorem Module.status_cycles (st : Nat) : (m.status st).cycles = m.cycles := rfl
@[simp] theorem Module.status_resets (st : Nat) : (m.status st).resets = m.resets := rfl
@[simp] theorem Module.status_env (st : Nat) : (m.status st).env = m.env := rfl
@[simp] theorem Module.status_flash (st : Nat) : (m.status st).flash = m.flash := rfl
@[simp] theorem Module.status_bellows (st : Nat) : (m.status st).bellows = m.bellows := rfl
@[simp] theorem Module.status_cal (st : Nat) : (m.status st).cal = m.cal := rfl
@[simp] theorem Module.status_cuts (st : Nat) : (m.status st).cuts = m.cuts := rfl
@[simp] theorem Module.status_test (st : Nat) : (m.status st).test = m.test := rfl
@[simp] theorem Module.status_security (st : Nat) : (m.status st).security = m.security := rfl
@[simp] theorem Module.status_tap (st : Nat) : (m.status st).tap = m.tap := rfl
@[simp] theorem Module.status_norm (st : Nat) : (m.status st).norm = m.norm := rfl
@[simp] theorem Module.status_timers (st : Nat) : (m.status st).timers = m.timers := rfl
@[simp] theorem Module.status_out (st : Nat) : (m.status st).out = m.out := rfl
@[simp] theorem Module.status_lastStatus (st : Nat) : (m.status st).lastStatus = st := rfl
@[simp] theorem Module.status_free (st : Nat) : (m.status st).free = m.free := rfl

/-! `emit` -/

@[simp] theorem Module.emit_nums (e : Emit) : (m.emit e).nums = m.nums := rfl
@[simp] theorem Module.emit_blobs (e : Emit) : (m.emit e).blobs = m.blobs := rfl
@[simp] theorem Module.emit_staging (e : Emit) : (m.emit e).staging = m.staging := rfl
@[simp] theorem Module.emit_heldAccess (e : Emit) : (m.emit e).heldAccess = m.heldAccess := rfl
@[simp] theorem Module.emit_nextHeld (e : Emit) : (m.emit e).nextHeld = m.nextHeld := rfl
@[simp] theorem Module.emit_regions (e : Emit) : (m.emit e).regions = m.regions := rfl
@[simp] theorem Module.emit_ctxGen (e : Emit) : (m.emit e).ctxGen = m.ctxGen := rfl
@[simp] theorem Module.emit_ports (e : Emit) : (m.emit e).ports = m.ports := rfl
@[simp] theorem Module.emit_edges (e : Emit) : (m.emit e).edges = m.edges := rfl
@[simp] theorem Module.emit_fabric (e : Emit) : (m.emit e).fabric = m.fabric := rfl
@[simp] theorem Module.emit_bridge (e : Emit) : (m.emit e).bridge = m.bridge := rfl
@[simp] theorem Module.emit_drone (e : Emit) : (m.emit e).drone = m.drone := rfl
@[simp] theorem Module.emit_chanter (e : Emit) : (m.emit e).chanter = m.chanter := rfl
@[simp] theorem Module.emit_stageqs (e : Emit) : (m.emit e).stageqs = m.stageqs := rfl
@[simp] theorem Module.emit_cycles (e : Emit) : (m.emit e).cycles = m.cycles := rfl
@[simp] theorem Module.emit_resets (e : Emit) : (m.emit e).resets = m.resets := rfl
@[simp] theorem Module.emit_env (e : Emit) : (m.emit e).env = m.env := rfl
@[simp] theorem Module.emit_flash (e : Emit) : (m.emit e).flash = m.flash := rfl
@[simp] theorem Module.emit_bellows (e : Emit) : (m.emit e).bellows = m.bellows := rfl
@[simp] theorem Module.emit_cal (e : Emit) : (m.emit e).cal = m.cal := rfl
@[simp] theorem Module.emit_cuts (e : Emit) : (m.emit e).cuts = m.cuts := rfl
@[simp] theorem Module.emit_test (e : Emit) : (m.emit e).test = m.test := rfl
@[simp] theorem Module.emit_security (e : Emit) : (m.emit e).security = m.security := rfl
@[simp] theorem Module.emit_tap (e : Emit) : (m.emit e).tap = m.tap := rfl
@[simp] theorem Module.emit_norm (e : Emit) : (m.emit e).norm = m.norm := rfl
@[simp] theorem Module.emit_timers (e : Emit) : (m.emit e).timers = m.timers := rfl
@[simp] theorem Module.emit_out (e : Emit) : (m.emit e).out = m.out ++ [e] := rfl
@[simp] theorem Module.emit_lastStatus (e : Emit) : (m.emit e).lastStatus = m.lastStatus := rfl
@[simp] theorem Module.emit_free (e : Emit) : (m.emit e).free = m.free := rfl

/-! `useFree` -/

@[simp] theorem Module.useFree_nums : (m.useFree).nums = m.nums := rfl
@[simp] theorem Module.useFree_blobs : (m.useFree).blobs = m.blobs := rfl
@[simp] theorem Module.useFree_staging : (m.useFree).staging = m.staging := rfl
@[simp] theorem Module.useFree_heldAccess : (m.useFree).heldAccess = m.heldAccess := rfl
@[simp] theorem Module.useFree_nextHeld : (m.useFree).nextHeld = m.nextHeld := rfl
@[simp] theorem Module.useFree_regions : (m.useFree).regions = m.regions := rfl
@[simp] theorem Module.useFree_ctxGen : (m.useFree).ctxGen = m.ctxGen := rfl
@[simp] theorem Module.useFree_ports : (m.useFree).ports = m.ports := rfl
@[simp] theorem Module.useFree_edges : (m.useFree).edges = m.edges := rfl
@[simp] theorem Module.useFree_fabric : (m.useFree).fabric = m.fabric := rfl
@[simp] theorem Module.useFree_bridge : (m.useFree).bridge = m.bridge := rfl
@[simp] theorem Module.useFree_drone : (m.useFree).drone = m.drone := rfl
@[simp] theorem Module.useFree_chanter : (m.useFree).chanter = m.chanter := rfl
@[simp] theorem Module.useFree_stageqs : (m.useFree).stageqs = m.stageqs := rfl
@[simp] theorem Module.useFree_cycles : (m.useFree).cycles = m.cycles := rfl
@[simp] theorem Module.useFree_resets : (m.useFree).resets = m.resets := rfl
@[simp] theorem Module.useFree_env : (m.useFree).env = m.env := rfl
@[simp] theorem Module.useFree_flash : (m.useFree).flash = m.flash := rfl
@[simp] theorem Module.useFree_bellows : (m.useFree).bellows = m.bellows := rfl
@[simp] theorem Module.useFree_cal : (m.useFree).cal = m.cal := rfl
@[simp] theorem Module.useFree_cuts : (m.useFree).cuts = m.cuts := rfl
@[simp] theorem Module.useFree_test : (m.useFree).test = m.test := rfl
@[simp] theorem Module.useFree_security : (m.useFree).security = m.security := rfl
@[simp] theorem Module.useFree_tap : (m.useFree).tap = m.tap := rfl
@[simp] theorem Module.useFree_norm : (m.useFree).norm = m.norm := rfl
@[simp] theorem Module.useFree_timers : (m.useFree).timers = m.timers := rfl
@[simp] theorem Module.useFree_out : (m.useFree).out = m.out := rfl
@[simp] theorem Module.useFree_lastStatus : (m.useFree).lastStatus = m.lastStatus := rfl
@[simp] theorem Module.useFree_free : (m.useFree).free = m.free + 1 := rfl

/-! `setTimer` -/

@[simp] theorem Module.setTimer_nums (k t : Nat) : (m.setTimer k t).nums = m.nums := rfl
@[simp] theorem Module.setTimer_blobs (k t : Nat) : (m.setTimer k t).blobs = m.blobs := rfl
@[simp] theorem Module.setTimer_staging (k t : Nat) : (m.setTimer k t).staging = m.staging := rfl
@[simp] theorem Module.setTimer_heldAccess (k t : Nat) : (m.setTimer k t).heldAccess = m.heldAccess := rfl
@[simp] theorem Module.setTimer_nextHeld (k t : Nat) : (m.setTimer k t).nextHeld = m.nextHeld := rfl
@[simp] theorem Module.setTimer_regions (k t : Nat) : (m.setTimer k t).regions = m.regions := rfl
@[simp] theorem Module.setTimer_ctxGen (k t : Nat) : (m.setTimer k t).ctxGen = m.ctxGen := rfl
@[simp] theorem Module.setTimer_ports (k t : Nat) : (m.setTimer k t).ports = m.ports := rfl
@[simp] theorem Module.setTimer_edges (k t : Nat) : (m.setTimer k t).edges = m.edges := rfl
@[simp] theorem Module.setTimer_fabric (k t : Nat) : (m.setTimer k t).fabric = m.fabric := rfl
@[simp] theorem Module.setTimer_bridge (k t : Nat) : (m.setTimer k t).bridge = m.bridge := rfl
@[simp] theorem Module.setTimer_drone (k t : Nat) : (m.setTimer k t).drone = m.drone := rfl
@[simp] theorem Module.setTimer_chanter (k t : Nat) : (m.setTimer k t).chanter = m.chanter := rfl
@[simp] theorem Module.setTimer_stageqs (k t : Nat) : (m.setTimer k t).stageqs = m.stageqs := rfl
@[simp] theorem Module.setTimer_cycles (k t : Nat) : (m.setTimer k t).cycles = m.cycles := rfl
@[simp] theorem Module.setTimer_resets (k t : Nat) : (m.setTimer k t).resets = m.resets := rfl
@[simp] theorem Module.setTimer_env (k t : Nat) : (m.setTimer k t).env = m.env := rfl
@[simp] theorem Module.setTimer_flash (k t : Nat) : (m.setTimer k t).flash = m.flash := rfl
@[simp] theorem Module.setTimer_bellows (k t : Nat) : (m.setTimer k t).bellows = m.bellows := rfl
@[simp] theorem Module.setTimer_cal (k t : Nat) : (m.setTimer k t).cal = m.cal := rfl
@[simp] theorem Module.setTimer_cuts (k t : Nat) : (m.setTimer k t).cuts = m.cuts := rfl
@[simp] theorem Module.setTimer_test (k t : Nat) : (m.setTimer k t).test = m.test := rfl
@[simp] theorem Module.setTimer_security (k t : Nat) : (m.setTimer k t).security = m.security := rfl
@[simp] theorem Module.setTimer_tap (k t : Nat) : (m.setTimer k t).tap = m.tap := rfl
@[simp] theorem Module.setTimer_norm (k t : Nat) : (m.setTimer k t).norm = m.norm := rfl
@[simp] theorem Module.setTimer_timers (k t : Nat) : (m.setTimer k t).timers = Tab.set 0 m.timers k t := rfl
@[simp] theorem Module.setTimer_out (k t : Nat) : (m.setTimer k t).out = m.out := rfl
@[simp] theorem Module.setTimer_lastStatus (k t : Nat) : (m.setTimer k t).lastStatus = m.lastStatus := rfl
@[simp] theorem Module.setTimer_free (k t : Nat) : (m.setTimer k t).free = m.free := rfl

/-! `setR` -/

@[simp] theorem Module.setR_nums (r : Nat) (g : Region) : (m.setR r g).nums = m.nums := rfl
@[simp] theorem Module.setR_blobs (r : Nat) (g : Region) : (m.setR r g).blobs = m.blobs := rfl
@[simp] theorem Module.setR_staging (r : Nat) (g : Region) : (m.setR r g).staging = m.staging := rfl
@[simp] theorem Module.setR_heldAccess (r : Nat) (g : Region) : (m.setR r g).heldAccess = m.heldAccess := rfl
@[simp] theorem Module.setR_nextHeld (r : Nat) (g : Region) : (m.setR r g).nextHeld = m.nextHeld := rfl
@[simp] theorem Module.setR_regions (r : Nat) (g : Region) : (m.setR r g).regions = Tab.put m.regions r g := rfl
@[simp] theorem Module.setR_ctxGen (r : Nat) (g : Region) : (m.setR r g).ctxGen = m.ctxGen := rfl
@[simp] theorem Module.setR_ports (r : Nat) (g : Region) : (m.setR r g).ports = m.ports := rfl
@[simp] theorem Module.setR_edges (r : Nat) (g : Region) : (m.setR r g).edges = m.edges := rfl
@[simp] theorem Module.setR_fabric (r : Nat) (g : Region) : (m.setR r g).fabric = m.fabric := rfl
@[simp] theorem Module.setR_bridge (r : Nat) (g : Region) : (m.setR r g).bridge = m.bridge := rfl
@[simp] theorem Module.setR_drone (r : Nat) (g : Region) : (m.setR r g).drone = m.drone := rfl
@[simp] theorem Module.setR_chanter (r : Nat) (g : Region) : (m.setR r g).chanter = m.chanter := rfl
@[simp] theorem Module.setR_stageqs (r : Nat) (g : Region) : (m.setR r g).stageqs = m.stageqs := rfl
@[simp] theorem Module.setR_cycles (r : Nat) (g : Region) : (m.setR r g).cycles = m.cycles := rfl
@[simp] theorem Module.setR_resets (r : Nat) (g : Region) : (m.setR r g).resets = m.resets := rfl
@[simp] theorem Module.setR_env (r : Nat) (g : Region) : (m.setR r g).env = m.env := rfl
@[simp] theorem Module.setR_flash (r : Nat) (g : Region) : (m.setR r g).flash = m.flash := rfl
@[simp] theorem Module.setR_bellows (r : Nat) (g : Region) : (m.setR r g).bellows = m.bellows := rfl
@[simp] theorem Module.setR_cal (r : Nat) (g : Region) : (m.setR r g).cal = m.cal := rfl
@[simp] theorem Module.setR_cuts (r : Nat) (g : Region) : (m.setR r g).cuts = m.cuts := rfl
@[simp] theorem Module.setR_test (r : Nat) (g : Region) : (m.setR r g).test = m.test := rfl
@[simp] theorem Module.setR_security (r : Nat) (g : Region) : (m.setR r g).security = m.security := rfl
@[simp] theorem Module.setR_tap (r : Nat) (g : Region) : (m.setR r g).tap = m.tap := rfl
@[simp] theorem Module.setR_norm (r : Nat) (g : Region) : (m.setR r g).norm = m.norm := rfl
@[simp] theorem Module.setR_timers (r : Nat) (g : Region) : (m.setR r g).timers = m.timers := rfl
@[simp] theorem Module.setR_out (r : Nat) (g : Region) : (m.setR r g).out = m.out := rfl
@[simp] theorem Module.setR_lastStatus (r : Nat) (g : Region) : (m.setR r g).lastStatus = m.lastStatus := rfl
@[simp] theorem Module.setR_free (r : Nat) (g : Region) : (m.setR r g).free = m.free := rfl

/-! `modR` -/

@[simp] theorem Module.modR_nums (r : Nat) (f : Region → Region) : (m.modR r f).nums = m.nums := rfl
@[simp] theorem Module.modR_blobs (r : Nat) (f : Region → Region) : (m.modR r f).blobs = m.blobs := rfl
@[simp] theorem Module.modR_staging (r : Nat) (f : Region → Region) : (m.modR r f).staging = m.staging := rfl
@[simp] theorem Module.modR_heldAccess (r : Nat) (f : Region → Region) : (m.modR r f).heldAccess = m.heldAccess := rfl
@[simp] theorem Module.modR_nextHeld (r : Nat) (f : Region → Region) : (m.modR r f).nextHeld = m.nextHeld := rfl
@[simp] theorem Module.modR_regions (r : Nat) (f : Region → Region) : (m.modR r f).regions = Tab.put m.regions r (f (m.rg r)) := rfl
@[simp] theorem Module.modR_ctxGen (r : Nat) (f : Region → Region) : (m.modR r f).ctxGen = m.ctxGen := rfl
@[simp] theorem Module.modR_ports (r : Nat) (f : Region → Region) : (m.modR r f).ports = m.ports := rfl
@[simp] theorem Module.modR_edges (r : Nat) (f : Region → Region) : (m.modR r f).edges = m.edges := rfl
@[simp] theorem Module.modR_fabric (r : Nat) (f : Region → Region) : (m.modR r f).fabric = m.fabric := rfl
@[simp] theorem Module.modR_bridge (r : Nat) (f : Region → Region) : (m.modR r f).bridge = m.bridge := rfl
@[simp] theorem Module.modR_drone (r : Nat) (f : Region → Region) : (m.modR r f).drone = m.drone := rfl
@[simp] theorem Module.modR_chanter (r : Nat) (f : Region → Region) : (m.modR r f).chanter = m.chanter := rfl
@[simp] theorem Module.modR_stageqs (r : Nat) (f : Region → Region) : (m.modR r f).stageqs = m.stageqs := rfl
@[simp] theorem Module.modR_cycles (r : Nat) (f : Region → Region) : (m.modR r f).cycles = m.cycles := rfl
@[simp] theorem Module.modR_resets (r : Nat) (f : Region → Region) : (m.modR r f).resets = m.resets := rfl
@[simp] theorem Module.modR_env (r : Nat) (f : Region → Region) : (m.modR r f).env = m.env := rfl
@[simp] theorem Module.modR_flash (r : Nat) (f : Region → Region) : (m.modR r f).flash = m.flash := rfl
@[simp] theorem Module.modR_bellows (r : Nat) (f : Region → Region) : (m.modR r f).bellows = m.bellows := rfl
@[simp] theorem Module.modR_cal (r : Nat) (f : Region → Region) : (m.modR r f).cal = m.cal := rfl
@[simp] theorem Module.modR_cuts (r : Nat) (f : Region → Region) : (m.modR r f).cuts = m.cuts := rfl
@[simp] theorem Module.modR_test (r : Nat) (f : Region → Region) : (m.modR r f).test = m.test := rfl
@[simp] theorem Module.modR_security (r : Nat) (f : Region → Region) : (m.modR r f).security = m.security := rfl
@[simp] theorem Module.modR_tap (r : Nat) (f : Region → Region) : (m.modR r f).tap = m.tap := rfl
@[simp] theorem Module.modR_norm (r : Nat) (f : Region → Region) : (m.modR r f).norm = m.norm := rfl
@[simp] theorem Module.modR_timers (r : Nat) (f : Region → Region) : (m.modR r f).timers = m.timers := rfl
@[simp] theorem Module.modR_out (r : Nat) (f : Region → Region) : (m.modR r f).out = m.out := rfl
@[simp] theorem Module.modR_lastStatus (r : Nat) (f : Region → Region) : (m.modR r f).lastStatus = m.lastStatus := rfl
@[simp] theorem Module.modR_free (r : Nat) (f : Region → Region) : (m.modR r f).free = m.free := rfl

/-! `modWork` -/

@[simp] theorem Module.modWork_nums (r : Nat) (f : Work → Work) : (m.modWork r f).nums = m.nums := rfl
@[simp] theorem Module.modWork_blobs (r : Nat) (f : Work → Work) : (m.modWork r f).blobs = m.blobs := rfl
@[simp] theorem Module.modWork_staging (r : Nat) (f : Work → Work) : (m.modWork r f).staging = m.staging := rfl
@[simp] theorem Module.modWork_heldAccess (r : Nat) (f : Work → Work) : (m.modWork r f).heldAccess = m.heldAccess := rfl
@[simp] theorem Module.modWork_nextHeld (r : Nat) (f : Work → Work) : (m.modWork r f).nextHeld = m.nextHeld := rfl
@[simp] theorem Module.modWork_ctxGen (r : Nat) (f : Work → Work) : (m.modWork r f).ctxGen = m.ctxGen := rfl
@[simp] theorem Module.modWork_ports (r : Nat) (f : Work → Work) : (m.modWork r f).ports = m.ports := rfl
@[simp] theorem Module.modWork_edges (r : Nat) (f : Work → Work) : (m.modWork r f).edges = m.edges := rfl
@[simp] theorem Module.modWork_fabric (r : Nat) (f : Work → Work) : (m.modWork r f).fabric = m.fabric := rfl
@[simp] theorem Module.modWork_bridge (r : Nat) (f : Work → Work) : (m.modWork r f).bridge = m.bridge := rfl
@[simp] theorem Module.modWork_drone (r : Nat) (f : Work → Work) : (m.modWork r f).drone = m.drone := rfl
@[simp] theorem Module.modWork_chanter (r : Nat) (f : Work → Work) : (m.modWork r f).chanter = m.chanter := rfl
@[simp] theorem Module.modWork_stageqs (r : Nat) (f : Work → Work) : (m.modWork r f).stageqs = m.stageqs := rfl
@[simp] theorem Module.modWork_cycles (r : Nat) (f : Work → Work) : (m.modWork r f).cycles = m.cycles := rfl
@[simp] theorem Module.modWork_resets (r : Nat) (f : Work → Work) : (m.modWork r f).resets = m.resets := rfl
@[simp] theorem Module.modWork_env (r : Nat) (f : Work → Work) : (m.modWork r f).env = m.env := rfl
@[simp] theorem Module.modWork_flash (r : Nat) (f : Work → Work) : (m.modWork r f).flash = m.flash := rfl
@[simp] theorem Module.modWork_bellows (r : Nat) (f : Work → Work) : (m.modWork r f).bellows = m.bellows := rfl
@[simp] theorem Module.modWork_cal (r : Nat) (f : Work → Work) : (m.modWork r f).cal = m.cal := rfl
@[simp] theorem Module.modWork_cuts (r : Nat) (f : Work → Work) : (m.modWork r f).cuts = m.cuts := rfl
@[simp] theorem Module.modWork_test (r : Nat) (f : Work → Work) : (m.modWork r f).test = m.test := rfl
@[simp] theorem Module.modWork_security (r : Nat) (f : Work → Work) : (m.modWork r f).security = m.security := rfl
@[simp] theorem Module.modWork_tap (r : Nat) (f : Work → Work) : (m.modWork r f).tap = m.tap := rfl
@[simp] theorem Module.modWork_norm (r : Nat) (f : Work → Work) : (m.modWork r f).norm = m.norm := rfl
@[simp] theorem Module.modWork_timers (r : Nat) (f : Work → Work) : (m.modWork r f).timers = m.timers := rfl
@[simp] theorem Module.modWork_out (r : Nat) (f : Work → Work) : (m.modWork r f).out = m.out := rfl
@[simp] theorem Module.modWork_lastStatus (r : Nat) (f : Work → Work) : (m.modWork r f).lastStatus = m.lastStatus := rfl
@[simp] theorem Module.modWork_free (r : Nat) (f : Work → Work) : (m.modWork r f).free = m.free := rfl

/-! `modStack` -/

@[simp] theorem Module.modStack_nums (r : Nat) (f : Stack → Stack) : (m.modStack r f).nums = m.nums := rfl
@[simp] theorem Module.modStack_blobs (r : Nat) (f : Stack → Stack) : (m.modStack r f).blobs = m.blobs := rfl
@[simp] theorem Module.modStack_staging (r : Nat) (f : Stack → Stack) : (m.modStack r f).staging = m.staging := rfl
@[simp] theorem Module.modStack_heldAccess (r : Nat) (f : Stack → Stack) : (m.modStack r f).heldAccess = m.heldAccess := rfl
@[simp] theorem Module.modStack_nextHeld (r : Nat) (f : Stack → Stack) : (m.modStack r f).nextHeld = m.nextHeld := rfl
@[simp] theorem Module.modStack_ctxGen (r : Nat) (f : Stack → Stack) : (m.modStack r f).ctxGen = m.ctxGen := rfl
@[simp] theorem Module.modStack_ports (r : Nat) (f : Stack → Stack) : (m.modStack r f).ports = m.ports := rfl
@[simp] theorem Module.modStack_edges (r : Nat) (f : Stack → Stack) : (m.modStack r f).edges = m.edges := rfl
@[simp] theorem Module.modStack_fabric (r : Nat) (f : Stack → Stack) : (m.modStack r f).fabric = m.fabric := rfl
@[simp] theorem Module.modStack_bridge (r : Nat) (f : Stack → Stack) : (m.modStack r f).bridge = m.bridge := rfl
@[simp] theorem Module.modStack_drone (r : Nat) (f : Stack → Stack) : (m.modStack r f).drone = m.drone := rfl
@[simp] theorem Module.modStack_chanter (r : Nat) (f : Stack → Stack) : (m.modStack r f).chanter = m.chanter := rfl
@[simp] theorem Module.modStack_stageqs (r : Nat) (f : Stack → Stack) : (m.modStack r f).stageqs = m.stageqs := rfl
@[simp] theorem Module.modStack_cycles (r : Nat) (f : Stack → Stack) : (m.modStack r f).cycles = m.cycles := rfl
@[simp] theorem Module.modStack_resets (r : Nat) (f : Stack → Stack) : (m.modStack r f).resets = m.resets := rfl
@[simp] theorem Module.modStack_env (r : Nat) (f : Stack → Stack) : (m.modStack r f).env = m.env := rfl
@[simp] theorem Module.modStack_flash (r : Nat) (f : Stack → Stack) : (m.modStack r f).flash = m.flash := rfl
@[simp] theorem Module.modStack_bellows (r : Nat) (f : Stack → Stack) : (m.modStack r f).bellows = m.bellows := rfl
@[simp] theorem Module.modStack_cal (r : Nat) (f : Stack → Stack) : (m.modStack r f).cal = m.cal := rfl
@[simp] theorem Module.modStack_cuts (r : Nat) (f : Stack → Stack) : (m.modStack r f).cuts = m.cuts := rfl
@[simp] theorem Module.modStack_test (r : Nat) (f : Stack → Stack) : (m.modStack r f).test = m.test := rfl
@[simp] theorem Module.modStack_security (r : Nat) (f : Stack → Stack) : (m.modStack r f).security = m.security := rfl
@[simp] theorem Module.modStack_tap (r : Nat) (f : Stack → Stack) : (m.modStack r f).tap = m.tap := rfl
@[simp] theorem Module.modStack_norm (r : Nat) (f : Stack → Stack) : (m.modStack r f).norm = m.norm := rfl
@[simp] theorem Module.modStack_timers (r : Nat) (f : Stack → Stack) : (m.modStack r f).timers = m.timers := rfl
@[simp] theorem Module.modStack_out (r : Nat) (f : Stack → Stack) : (m.modStack r f).out = m.out := rfl
@[simp] theorem Module.modStack_lastStatus (r : Nat) (f : Stack → Stack) : (m.modStack r f).lastStatus = m.lastStatus := rfl
@[simp] theorem Module.modStack_free (r : Nat) (f : Stack → Stack) : (m.modStack r f).free = m.free := rfl

/-! `modTrain` -/

@[simp] theorem Module.modTrain_nums (r : Nat) (f : Train → Train) : (m.modTrain r f).nums = m.nums := rfl
@[simp] theorem Module.modTrain_blobs (r : Nat) (f : Train → Train) : (m.modTrain r f).blobs = m.blobs := rfl
@[simp] theorem Module.modTrain_staging (r : Nat) (f : Train → Train) : (m.modTrain r f).staging = m.staging := rfl
@[simp] theorem Module.modTrain_heldAccess (r : Nat) (f : Train → Train) : (m.modTrain r f).heldAccess = m.heldAccess := rfl
@[simp] theorem Module.modTrain_nextHeld (r : Nat) (f : Train → Train) : (m.modTrain r f).nextHeld = m.nextHeld := rfl
@[simp] theorem Module.modTrain_ctxGen (r : Nat) (f : Train → Train) : (m.modTrain r f).ctxGen = m.ctxGen := rfl
@[simp] theorem Module.modTrain_ports (r : Nat) (f : Train → Train) : (m.modTrain r f).ports = m.ports := rfl
@[simp] theorem Module.modTrain_edges (r : Nat) (f : Train → Train) : (m.modTrain r f).edges = m.edges := rfl
@[simp] theorem Module.modTrain_fabric (r : Nat) (f : Train → Train) : (m.modTrain r f).fabric = m.fabric := rfl
@[simp] theorem Module.modTrain_bridge (r : Nat) (f : Train → Train) : (m.modTrain r f).bridge = m.bridge := rfl
@[simp] theorem Module.modTrain_drone (r : Nat) (f : Train → Train) : (m.modTrain r f).drone = m.drone := rfl
@[simp] theorem Module.modTrain_chanter (r : Nat) (f : Train → Train) : (m.modTrain r f).chanter = m.chanter := rfl
@[simp] theorem Module.modTrain_stageqs (r : Nat) (f : Train → Train) : (m.modTrain r f).stageqs = m.stageqs := rfl
@[simp] theorem Module.modTrain_cycles (r : Nat) (f : Train → Train) : (m.modTrain r f).cycles = m.cycles := rfl
@[simp] theorem Module.modTrain_resets (r : Nat) (f : Train → Train) : (m.modTrain r f).resets = m.resets := rfl
@[simp] theorem Module.modTrain_env (r : Nat) (f : Train → Train) : (m.modTrain r f).env = m.env := rfl
@[simp] theorem Module.modTrain_flash (r : Nat) (f : Train → Train) : (m.modTrain r f).flash = m.flash := rfl
@[simp] theorem Module.modTrain_bellows (r : Nat) (f : Train → Train) : (m.modTrain r f).bellows = m.bellows := rfl
@[simp] theorem Module.modTrain_cal (r : Nat) (f : Train → Train) : (m.modTrain r f).cal = m.cal := rfl
@[simp] theorem Module.modTrain_cuts (r : Nat) (f : Train → Train) : (m.modTrain r f).cuts = m.cuts := rfl
@[simp] theorem Module.modTrain_test (r : Nat) (f : Train → Train) : (m.modTrain r f).test = m.test := rfl
@[simp] theorem Module.modTrain_security (r : Nat) (f : Train → Train) : (m.modTrain r f).security = m.security := rfl
@[simp] theorem Module.modTrain_tap (r : Nat) (f : Train → Train) : (m.modTrain r f).tap = m.tap := rfl
@[simp] theorem Module.modTrain_norm (r : Nat) (f : Train → Train) : (m.modTrain r f).norm = m.norm := rfl
@[simp] theorem Module.modTrain_timers (r : Nat) (f : Train → Train) : (m.modTrain r f).timers = m.timers := rfl
@[simp] theorem Module.modTrain_out (r : Nat) (f : Train → Train) : (m.modTrain r f).out = m.out := rfl
@[simp] theorem Module.modTrain_lastStatus (r : Nat) (f : Train → Train) : (m.modTrain r f).lastStatus = m.lastStatus := rfl
@[simp] theorem Module.modTrain_free (r : Nat) (f : Train → Train) : (m.modTrain r f).free = m.free := rfl

/-! `modTier` -/

@[simp] theorem Module.modTier_nums (r : Nat) (f : Tier → Tier) : (m.modTier r f).nums = m.nums := rfl
@[simp] theorem Module.modTier_blobs (r : Nat) (f : Tier → Tier) : (m.modTier r f).blobs = m.blobs := rfl
@[simp] theorem Module.modTier_staging (r : Nat) (f : Tier → Tier) : (m.modTier r f).staging = m.staging := rfl
@[simp] theorem Module.modTier_heldAccess (r : Nat) (f : Tier → Tier) : (m.modTier r f).heldAccess = m.heldAccess := rfl
@[simp] theorem Module.modTier_nextHeld (r : Nat) (f : Tier → Tier) : (m.modTier r f).nextHeld = m.nextHeld := rfl
@[simp] theorem Module.modTier_ctxGen (r : Nat) (f : Tier → Tier) : (m.modTier r f).ctxGen = m.ctxGen := rfl
@[simp] theorem Module.modTier_ports (r : Nat) (f : Tier → Tier) : (m.modTier r f).ports = m.ports := rfl
@[simp] theorem Module.modTier_edges (r : Nat) (f : Tier → Tier) : (m.modTier r f).edges = m.edges := rfl
@[simp] theorem Module.modTier_fabric (r : Nat) (f : Tier → Tier) : (m.modTier r f).fabric = m.fabric := rfl
@[simp] theorem Module.modTier_bridge (r : Nat) (f : Tier → Tier) : (m.modTier r f).bridge = m.bridge := rfl
@[simp] theorem Module.modTier_drone (r : Nat) (f : Tier → Tier) : (m.modTier r f).drone = m.drone := rfl
@[simp] theorem Module.modTier_chanter (r : Nat) (f : Tier → Tier) : (m.modTier r f).chanter = m.chanter := rfl
@[simp] theorem Module.modTier_stageqs (r : Nat) (f : Tier → Tier) : (m.modTier r f).stageqs = m.stageqs := rfl
@[simp] theorem Module.modTier_cycles (r : Nat) (f : Tier → Tier) : (m.modTier r f).cycles = m.cycles := rfl
@[simp] theorem Module.modTier_resets (r : Nat) (f : Tier → Tier) : (m.modTier r f).resets = m.resets := rfl
@[simp] theorem Module.modTier_env (r : Nat) (f : Tier → Tier) : (m.modTier r f).env = m.env := rfl
@[simp] theorem Module.modTier_flash (r : Nat) (f : Tier → Tier) : (m.modTier r f).flash = m.flash := rfl
@[simp] theorem Module.modTier_bellows (r : Nat) (f : Tier → Tier) : (m.modTier r f).bellows = m.bellows := rfl
@[simp] theorem Module.modTier_cal (r : Nat) (f : Tier → Tier) : (m.modTier r f).cal = m.cal := rfl
@[simp] theorem Module.modTier_cuts (r : Nat) (f : Tier → Tier) : (m.modTier r f).cuts = m.cuts := rfl
@[simp] theorem Module.modTier_test (r : Nat) (f : Tier → Tier) : (m.modTier r f).test = m.test := rfl
@[simp] theorem Module.modTier_security (r : Nat) (f : Tier → Tier) : (m.modTier r f).security = m.security := rfl
@[simp] theorem Module.modTier_tap (r : Nat) (f : Tier → Tier) : (m.modTier r f).tap = m.tap := rfl
@[simp] theorem Module.modTier_norm (r : Nat) (f : Tier → Tier) : (m.modTier r f).norm = m.norm := rfl
@[simp] theorem Module.modTier_timers (r : Nat) (f : Tier → Tier) : (m.modTier r f).timers = m.timers := rfl
@[simp] theorem Module.modTier_out (r : Nat) (f : Tier → Tier) : (m.modTier r f).out = m.out := rfl
@[simp] theorem Module.modTier_lastStatus (r : Nat) (f : Tier → Tier) : (m.modTier r f).lastStatus = m.lastStatus := rfl
@[simp] theorem Module.modTier_free (r : Nat) (f : Tier → Tier) : (m.modTier r f).free = m.free := rfl

/-! `modXch` -/

@[simp] theorem Module.modXch_nums (r : Nat) (f : Xch → Xch) : (m.modXch r f).nums = m.nums := rfl
@[simp] theorem Module.modXch_blobs (r : Nat) (f : Xch → Xch) : (m.modXch r f).blobs = m.blobs := rfl
@[simp] theorem Module.modXch_staging (r : Nat) (f : Xch → Xch) : (m.modXch r f).staging = m.staging := rfl
@[simp] theorem Module.modXch_heldAccess (r : Nat) (f : Xch → Xch) : (m.modXch r f).heldAccess = m.heldAccess := rfl
@[simp] theorem Module.modXch_nextHeld (r : Nat) (f : Xch → Xch) : (m.modXch r f).nextHeld = m.nextHeld := rfl
@[simp] theorem Module.modXch_ctxGen (r : Nat) (f : Xch → Xch) : (m.modXch r f).ctxGen = m.ctxGen := rfl
@[simp] theorem Module.modXch_ports (r : Nat) (f : Xch → Xch) : (m.modXch r f).ports = m.ports := rfl
@[simp] theorem Module.modXch_edges (r : Nat) (f : Xch → Xch) : (m.modXch r f).edges = m.edges := rfl
@[simp] theorem Module.modXch_fabric (r : Nat) (f : Xch → Xch) : (m.modXch r f).fabric = m.fabric := rfl
@[simp] theorem Module.modXch_bridge (r : Nat) (f : Xch → Xch) : (m.modXch r f).bridge = m.bridge := rfl
@[simp] theorem Module.modXch_drone (r : Nat) (f : Xch → Xch) : (m.modXch r f).drone = m.drone := rfl
@[simp] theorem Module.modXch_chanter (r : Nat) (f : Xch → Xch) : (m.modXch r f).chanter = m.chanter := rfl
@[simp] theorem Module.modXch_stageqs (r : Nat) (f : Xch → Xch) : (m.modXch r f).stageqs = m.stageqs := rfl
@[simp] theorem Module.modXch_cycles (r : Nat) (f : Xch → Xch) : (m.modXch r f).cycles = m.cycles := rfl
@[simp] theorem Module.modXch_resets (r : Nat) (f : Xch → Xch) : (m.modXch r f).resets = m.resets := rfl
@[simp] theorem Module.modXch_env (r : Nat) (f : Xch → Xch) : (m.modXch r f).env = m.env := rfl
@[simp] theorem Module.modXch_flash (r : Nat) (f : Xch → Xch) : (m.modXch r f).flash = m.flash := rfl
@[simp] theorem Module.modXch_bellows (r : Nat) (f : Xch → Xch) : (m.modXch r f).bellows = m.bellows := rfl
@[simp] theorem Module.modXch_cal (r : Nat) (f : Xch → Xch) : (m.modXch r f).cal = m.cal := rfl
@[simp] theorem Module.modXch_cuts (r : Nat) (f : Xch → Xch) : (m.modXch r f).cuts = m.cuts := rfl
@[simp] theorem Module.modXch_test (r : Nat) (f : Xch → Xch) : (m.modXch r f).test = m.test := rfl
@[simp] theorem Module.modXch_security (r : Nat) (f : Xch → Xch) : (m.modXch r f).security = m.security := rfl
@[simp] theorem Module.modXch_tap (r : Nat) (f : Xch → Xch) : (m.modXch r f).tap = m.tap := rfl
@[simp] theorem Module.modXch_norm (r : Nat) (f : Xch → Xch) : (m.modXch r f).norm = m.norm := rfl
@[simp] theorem Module.modXch_timers (r : Nat) (f : Xch → Xch) : (m.modXch r f).timers = m.timers := rfl
@[simp] theorem Module.modXch_out (r : Nat) (f : Xch → Xch) : (m.modXch r f).out = m.out := rfl
@[simp] theorem Module.modXch_lastStatus (r : Nat) (f : Xch → Xch) : (m.modXch r f).lastStatus = m.lastStatus := rfl
@[simp] theorem Module.modXch_free (r : Nat) (f : Xch → Xch) : (m.modXch r f).free = m.free := rfl

/-! `modCut` -/

@[simp] theorem Module.modCut_nums (r : Nat) (f : RCut → RCut) : (m.modCut r f).nums = m.nums := rfl
@[simp] theorem Module.modCut_blobs (r : Nat) (f : RCut → RCut) : (m.modCut r f).blobs = m.blobs := rfl
@[simp] theorem Module.modCut_staging (r : Nat) (f : RCut → RCut) : (m.modCut r f).staging = m.staging := rfl
@[simp] theorem Module.modCut_heldAccess (r : Nat) (f : RCut → RCut) : (m.modCut r f).heldAccess = m.heldAccess := rfl
@[simp] theorem Module.modCut_nextHeld (r : Nat) (f : RCut → RCut) : (m.modCut r f).nextHeld = m.nextHeld := rfl
@[simp] theorem Module.modCut_ctxGen (r : Nat) (f : RCut → RCut) : (m.modCut r f).ctxGen = m.ctxGen := rfl
@[simp] theorem Module.modCut_ports (r : Nat) (f : RCut → RCut) : (m.modCut r f).ports = m.ports := rfl
@[simp] theorem Module.modCut_edges (r : Nat) (f : RCut → RCut) : (m.modCut r f).edges = m.edges := rfl
@[simp] theorem Module.modCut_fabric (r : Nat) (f : RCut → RCut) : (m.modCut r f).fabric = m.fabric := rfl
@[simp] theorem Module.modCut_bridge (r : Nat) (f : RCut → RCut) : (m.modCut r f).bridge = m.bridge := rfl
@[simp] theorem Module.modCut_drone (r : Nat) (f : RCut → RCut) : (m.modCut r f).drone = m.drone := rfl
@[simp] theorem Module.modCut_chanter (r : Nat) (f : RCut → RCut) : (m.modCut r f).chanter = m.chanter := rfl
@[simp] theorem Module.modCut_stageqs (r : Nat) (f : RCut → RCut) : (m.modCut r f).stageqs = m.stageqs := rfl
@[simp] theorem Module.modCut_cycles (r : Nat) (f : RCut → RCut) : (m.modCut r f).cycles = m.cycles := rfl
@[simp] theorem Module.modCut_resets (r : Nat) (f : RCut → RCut) : (m.modCut r f).resets = m.resets := rfl
@[simp] theorem Module.modCut_env (r : Nat) (f : RCut → RCut) : (m.modCut r f).env = m.env := rfl
@[simp] theorem Module.modCut_flash (r : Nat) (f : RCut → RCut) : (m.modCut r f).flash = m.flash := rfl
@[simp] theorem Module.modCut_bellows (r : Nat) (f : RCut → RCut) : (m.modCut r f).bellows = m.bellows := rfl
@[simp] theorem Module.modCut_cal (r : Nat) (f : RCut → RCut) : (m.modCut r f).cal = m.cal := rfl
@[simp] theorem Module.modCut_cuts (r : Nat) (f : RCut → RCut) : (m.modCut r f).cuts = m.cuts := rfl
@[simp] theorem Module.modCut_test (r : Nat) (f : RCut → RCut) : (m.modCut r f).test = m.test := rfl
@[simp] theorem Module.modCut_security (r : Nat) (f : RCut → RCut) : (m.modCut r f).security = m.security := rfl
@[simp] theorem Module.modCut_tap (r : Nat) (f : RCut → RCut) : (m.modCut r f).tap = m.tap := rfl
@[simp] theorem Module.modCut_norm (r : Nat) (f : RCut → RCut) : (m.modCut r f).norm = m.norm := rfl
@[simp] theorem Module.modCut_timers (r : Nat) (f : RCut → RCut) : (m.modCut r f).timers = m.timers := rfl
@[simp] theorem Module.modCut_out (r : Nat) (f : RCut → RCut) : (m.modCut r f).out = m.out := rfl
@[simp] theorem Module.modCut_lastStatus (r : Nat) (f : RCut → RCut) : (m.modCut r f).lastStatus = m.lastStatus := rfl
@[simp] theorem Module.modCut_free (r : Nat) (f : RCut → RCut) : (m.modCut r f).free = m.free := rfl

/-! `modPower` -/

@[simp] theorem Module.modPower_nums (r : Nat) (f : Power → Power) : (m.modPower r f).nums = m.nums := rfl
@[simp] theorem Module.modPower_blobs (r : Nat) (f : Power → Power) : (m.modPower r f).blobs = m.blobs := rfl
@[simp] theorem Module.modPower_staging (r : Nat) (f : Power → Power) : (m.modPower r f).staging = m.staging := rfl
@[simp] theorem Module.modPower_heldAccess (r : Nat) (f : Power → Power) : (m.modPower r f).heldAccess = m.heldAccess := rfl
@[simp] theorem Module.modPower_nextHeld (r : Nat) (f : Power → Power) : (m.modPower r f).nextHeld = m.nextHeld := rfl
@[simp] theorem Module.modPower_ctxGen (r : Nat) (f : Power → Power) : (m.modPower r f).ctxGen = m.ctxGen := rfl
@[simp] theorem Module.modPower_ports (r : Nat) (f : Power → Power) : (m.modPower r f).ports = m.ports := rfl
@[simp] theorem Module.modPower_edges (r : Nat) (f : Power → Power) : (m.modPower r f).edges = m.edges := rfl
@[simp] theorem Module.modPower_fabric (r : Nat) (f : Power → Power) : (m.modPower r f).fabric = m.fabric := rfl
@[simp] theorem Module.modPower_bridge (r : Nat) (f : Power → Power) : (m.modPower r f).bridge = m.bridge := rfl
@[simp] theorem Module.modPower_drone (r : Nat) (f : Power → Power) : (m.modPower r f).drone = m.drone := rfl
@[simp] theorem Module.modPower_chanter (r : Nat) (f : Power → Power) : (m.modPower r f).chanter = m.chanter := rfl
@[simp] theorem Module.modPower_stageqs (r : Nat) (f : Power → Power) : (m.modPower r f).stageqs = m.stageqs := rfl
@[simp] theorem Module.modPower_cycles (r : Nat) (f : Power → Power) : (m.modPower r f).cycles = m.cycles := rfl
@[simp] theorem Module.modPower_resets (r : Nat) (f : Power → Power) : (m.modPower r f).resets = m.resets := rfl
@[simp] theorem Module.modPower_env (r : Nat) (f : Power → Power) : (m.modPower r f).env = m.env := rfl
@[simp] theorem Module.modPower_flash (r : Nat) (f : Power → Power) : (m.modPower r f).flash = m.flash := rfl
@[simp] theorem Module.modPower_bellows (r : Nat) (f : Power → Power) : (m.modPower r f).bellows = m.bellows := rfl
@[simp] theorem Module.modPower_cal (r : Nat) (f : Power → Power) : (m.modPower r f).cal = m.cal := rfl
@[simp] theorem Module.modPower_cuts (r : Nat) (f : Power → Power) : (m.modPower r f).cuts = m.cuts := rfl
@[simp] theorem Module.modPower_test (r : Nat) (f : Power → Power) : (m.modPower r f).test = m.test := rfl
@[simp] theorem Module.modPower_security (r : Nat) (f : Power → Power) : (m.modPower r f).security = m.security := rfl
@[simp] theorem Module.modPower_tap (r : Nat) (f : Power → Power) : (m.modPower r f).tap = m.tap := rfl
@[simp] theorem Module.modPower_norm (r : Nat) (f : Power → Power) : (m.modPower r f).norm = m.norm := rfl
@[simp] theorem Module.modPower_timers (r : Nat) (f : Power → Power) : (m.modPower r f).timers = m.timers := rfl
@[simp] theorem Module.modPower_out (r : Nat) (f : Power → Power) : (m.modPower r f).out = m.out := rfl
@[simp] theorem Module.modPower_lastStatus (r : Nat) (f : Power → Power) : (m.modPower r f).lastStatus = m.lastStatus := rfl
@[simp] theorem Module.modPower_free (r : Nat) (f : Power → Power) : (m.modPower r f).free = m.free := rfl

/-! `modCl` -/

@[simp] theorem Module.modCl_nums (r c : Nat) (f : Cluster → Cluster) : (m.modCl r c f).nums = m.nums := rfl
@[simp] theorem Module.modCl_blobs (r c : Nat) (f : Cluster → Cluster) : (m.modCl r c f).blobs = m.blobs := rfl
@[simp] theorem Module.modCl_staging (r c : Nat) (f : Cluster → Cluster) : (m.modCl r c f).staging = m.staging := rfl
@[simp] theorem Module.modCl_heldAccess (r c : Nat) (f : Cluster → Cluster) : (m.modCl r c f).heldAccess = m.heldAccess := rfl
@[simp] theorem Module.modCl_nextHeld (r c : Nat) (f : Cluster → Cluster) : (m.modCl r c f).nextHeld = m.nextHeld := rfl
@[simp] theorem Module.modCl_ctxGen (r c : Nat) (f : Cluster → Cluster) : (m.modCl r c f).ctxGen = m.ctxGen := rfl
@[simp] theorem Module.modCl_ports (r c : Nat) (f : Cluster → Cluster) : (m.modCl r c f).ports = m.ports := rfl
@[simp] theorem Module.modCl_edges (r c : Nat) (f : Cluster → Cluster) : (m.modCl r c f).edges = m.edges := rfl
@[simp] theorem Module.modCl_fabric (r c : Nat) (f : Cluster → Cluster) : (m.modCl r c f).fabric = m.fabric := rfl
@[simp] theorem Module.modCl_bridge (r c : Nat) (f : Cluster → Cluster) : (m.modCl r c f).bridge = m.bridge := rfl
@[simp] theorem Module.modCl_drone (r c : Nat) (f : Cluster → Cluster) : (m.modCl r c f).drone = m.drone := rfl
@[simp] theorem Module.modCl_chanter (r c : Nat) (f : Cluster → Cluster) : (m.modCl r c f).chanter = m.chanter := rfl
@[simp] theorem Module.modCl_stageqs (r c : Nat) (f : Cluster → Cluster) : (m.modCl r c f).stageqs = m.stageqs := rfl
@[simp] theorem Module.modCl_cycles (r c : Nat) (f : Cluster → Cluster) : (m.modCl r c f).cycles = m.cycles := rfl
@[simp] theorem Module.modCl_resets (r c : Nat) (f : Cluster → Cluster) : (m.modCl r c f).resets = m.resets := rfl
@[simp] theorem Module.modCl_env (r c : Nat) (f : Cluster → Cluster) : (m.modCl r c f).env = m.env := rfl
@[simp] theorem Module.modCl_flash (r c : Nat) (f : Cluster → Cluster) : (m.modCl r c f).flash = m.flash := rfl
@[simp] theorem Module.modCl_bellows (r c : Nat) (f : Cluster → Cluster) : (m.modCl r c f).bellows = m.bellows := rfl
@[simp] theorem Module.modCl_cal (r c : Nat) (f : Cluster → Cluster) : (m.modCl r c f).cal = m.cal := rfl
@[simp] theorem Module.modCl_cuts (r c : Nat) (f : Cluster → Cluster) : (m.modCl r c f).cuts = m.cuts := rfl
@[simp] theorem Module.modCl_test (r c : Nat) (f : Cluster → Cluster) : (m.modCl r c f).test = m.test := rfl
@[simp] theorem Module.modCl_security (r c : Nat) (f : Cluster → Cluster) : (m.modCl r c f).security = m.security := rfl
@[simp] theorem Module.modCl_tap (r c : Nat) (f : Cluster → Cluster) : (m.modCl r c f).tap = m.tap := rfl
@[simp] theorem Module.modCl_norm (r c : Nat) (f : Cluster → Cluster) : (m.modCl r c f).norm = m.norm := rfl
@[simp] theorem Module.modCl_timers (r c : Nat) (f : Cluster → Cluster) : (m.modCl r c f).timers = m.timers := rfl
@[simp] theorem Module.modCl_out (r c : Nat) (f : Cluster → Cluster) : (m.modCl r c f).out = m.out := rfl
@[simp] theorem Module.modCl_lastStatus (r c : Nat) (f : Cluster → Cluster) : (m.modCl r c f).lastStatus = m.lastStatus := rfl
@[simp] theorem Module.modCl_free (r c : Nat) (f : Cluster → Cluster) : (m.modCl r c f).free = m.free := rfl

/-! `modUn` -/

@[simp] theorem Module.modUn_nums (r c u : Nat) (f : UnitSt → UnitSt) : (m.modUn r c u f).nums = m.nums := rfl
@[simp] theorem Module.modUn_blobs (r c u : Nat) (f : UnitSt → UnitSt) : (m.modUn r c u f).blobs = m.blobs := rfl
@[simp] theorem Module.modUn_staging (r c u : Nat) (f : UnitSt → UnitSt) : (m.modUn r c u f).staging = m.staging := rfl
@[simp] theorem Module.modUn_heldAccess (r c u : Nat) (f : UnitSt → UnitSt) : (m.modUn r c u f).heldAccess = m.heldAccess := rfl
@[simp] theorem Module.modUn_nextHeld (r c u : Nat) (f : UnitSt → UnitSt) : (m.modUn r c u f).nextHeld = m.nextHeld := rfl
@[simp] theorem Module.modUn_ctxGen (r c u : Nat) (f : UnitSt → UnitSt) : (m.modUn r c u f).ctxGen = m.ctxGen := rfl
@[simp] theorem Module.modUn_ports (r c u : Nat) (f : UnitSt → UnitSt) : (m.modUn r c u f).ports = m.ports := rfl
@[simp] theorem Module.modUn_edges (r c u : Nat) (f : UnitSt → UnitSt) : (m.modUn r c u f).edges = m.edges := rfl
@[simp] theorem Module.modUn_fabric (r c u : Nat) (f : UnitSt → UnitSt) : (m.modUn r c u f).fabric = m.fabric := rfl
@[simp] theorem Module.modUn_bridge (r c u : Nat) (f : UnitSt → UnitSt) : (m.modUn r c u f).bridge = m.bridge := rfl
@[simp] theorem Module.modUn_drone (r c u : Nat) (f : UnitSt → UnitSt) : (m.modUn r c u f).drone = m.drone := rfl
@[simp] theorem Module.modUn_chanter (r c u : Nat) (f : UnitSt → UnitSt) : (m.modUn r c u f).chanter = m.chanter := rfl
@[simp] theorem Module.modUn_stageqs (r c u : Nat) (f : UnitSt → UnitSt) : (m.modUn r c u f).stageqs = m.stageqs := rfl
@[simp] theorem Module.modUn_cycles (r c u : Nat) (f : UnitSt → UnitSt) : (m.modUn r c u f).cycles = m.cycles := rfl
@[simp] theorem Module.modUn_resets (r c u : Nat) (f : UnitSt → UnitSt) : (m.modUn r c u f).resets = m.resets := rfl
@[simp] theorem Module.modUn_env (r c u : Nat) (f : UnitSt → UnitSt) : (m.modUn r c u f).env = m.env := rfl
@[simp] theorem Module.modUn_flash (r c u : Nat) (f : UnitSt → UnitSt) : (m.modUn r c u f).flash = m.flash := rfl
@[simp] theorem Module.modUn_bellows (r c u : Nat) (f : UnitSt → UnitSt) : (m.modUn r c u f).bellows = m.bellows := rfl
@[simp] theorem Module.modUn_cal (r c u : Nat) (f : UnitSt → UnitSt) : (m.modUn r c u f).cal = m.cal := rfl
@[simp] theorem Module.modUn_cuts (r c u : Nat) (f : UnitSt → UnitSt) : (m.modUn r c u f).cuts = m.cuts := rfl
@[simp] theorem Module.modUn_test (r c u : Nat) (f : UnitSt → UnitSt) : (m.modUn r c u f).test = m.test := rfl
@[simp] theorem Module.modUn_security (r c u : Nat) (f : UnitSt → UnitSt) : (m.modUn r c u f).security = m.security := rfl
@[simp] theorem Module.modUn_tap (r c u : Nat) (f : UnitSt → UnitSt) : (m.modUn r c u f).tap = m.tap := rfl
@[simp] theorem Module.modUn_norm (r c u : Nat) (f : UnitSt → UnitSt) : (m.modUn r c u f).norm = m.norm := rfl
@[simp] theorem Module.modUn_timers (r c u : Nat) (f : UnitSt → UnitSt) : (m.modUn r c u f).timers = m.timers := rfl
@[simp] theorem Module.modUn_out (r c u : Nat) (f : UnitSt → UnitSt) : (m.modUn r c u f).out = m.out := rfl
@[simp] theorem Module.modUn_lastStatus (r c u : Nat) (f : UnitSt → UnitSt) : (m.modUn r c u f).lastStatus = m.lastStatus := rfl
@[simp] theorem Module.modUn_free (r c u : Nat) (f : UnitSt → UnitSt) : (m.modUn r c u f).free = m.free := rfl

/-! `modPort` -/

@[simp] theorem Module.modPort_nums (p : Nat) (f : PortSt → PortSt) : (m.modPort p f).nums = m.nums := rfl
@[simp] theorem Module.modPort_blobs (p : Nat) (f : PortSt → PortSt) : (m.modPort p f).blobs = m.blobs := rfl
@[simp] theorem Module.modPort_staging (p : Nat) (f : PortSt → PortSt) : (m.modPort p f).staging = m.staging := rfl
@[simp] theorem Module.modPort_heldAccess (p : Nat) (f : PortSt → PortSt) : (m.modPort p f).heldAccess = m.heldAccess := rfl
@[simp] theorem Module.modPort_nextHeld (p : Nat) (f : PortSt → PortSt) : (m.modPort p f).nextHeld = m.nextHeld := rfl
@[simp] theorem Module.modPort_regions (p : Nat) (f : PortSt → PortSt) : (m.modPort p f).regions = m.regions := rfl
@[simp] theorem Module.modPort_ctxGen (p : Nat) (f : PortSt → PortSt) : (m.modPort p f).ctxGen = m.ctxGen := rfl
@[simp] theorem Module.modPort_ports (p : Nat) (f : PortSt → PortSt) : (m.modPort p f).ports = Tab.put m.ports p (f (m.port p)) := rfl
@[simp] theorem Module.modPort_edges (p : Nat) (f : PortSt → PortSt) : (m.modPort p f).edges = m.edges := rfl
@[simp] theorem Module.modPort_fabric (p : Nat) (f : PortSt → PortSt) : (m.modPort p f).fabric = m.fabric := rfl
@[simp] theorem Module.modPort_bridge (p : Nat) (f : PortSt → PortSt) : (m.modPort p f).bridge = m.bridge := rfl
@[simp] theorem Module.modPort_drone (p : Nat) (f : PortSt → PortSt) : (m.modPort p f).drone = m.drone := rfl
@[simp] theorem Module.modPort_chanter (p : Nat) (f : PortSt → PortSt) : (m.modPort p f).chanter = m.chanter := rfl
@[simp] theorem Module.modPort_stageqs (p : Nat) (f : PortSt → PortSt) : (m.modPort p f).stageqs = m.stageqs := rfl
@[simp] theorem Module.modPort_cycles (p : Nat) (f : PortSt → PortSt) : (m.modPort p f).cycles = m.cycles := rfl
@[simp] theorem Module.modPort_resets (p : Nat) (f : PortSt → PortSt) : (m.modPort p f).resets = m.resets := rfl
@[simp] theorem Module.modPort_env (p : Nat) (f : PortSt → PortSt) : (m.modPort p f).env = m.env := rfl
@[simp] theorem Module.modPort_flash (p : Nat) (f : PortSt → PortSt) : (m.modPort p f).flash = m.flash := rfl
@[simp] theorem Module.modPort_bellows (p : Nat) (f : PortSt → PortSt) : (m.modPort p f).bellows = m.bellows := rfl
@[simp] theorem Module.modPort_cal (p : Nat) (f : PortSt → PortSt) : (m.modPort p f).cal = m.cal := rfl
@[simp] theorem Module.modPort_cuts (p : Nat) (f : PortSt → PortSt) : (m.modPort p f).cuts = m.cuts := rfl
@[simp] theorem Module.modPort_test (p : Nat) (f : PortSt → PortSt) : (m.modPort p f).test = m.test := rfl
@[simp] theorem Module.modPort_security (p : Nat) (f : PortSt → PortSt) : (m.modPort p f).security = m.security := rfl
@[simp] theorem Module.modPort_tap (p : Nat) (f : PortSt → PortSt) : (m.modPort p f).tap = m.tap := rfl
@[simp] theorem Module.modPort_norm (p : Nat) (f : PortSt → PortSt) : (m.modPort p f).norm = m.norm := rfl
@[simp] theorem Module.modPort_timers (p : Nat) (f : PortSt → PortSt) : (m.modPort p f).timers = m.timers := rfl
@[simp] theorem Module.modPort_out (p : Nat) (f : PortSt → PortSt) : (m.modPort p f).out = m.out := rfl
@[simp] theorem Module.modPort_lastStatus (p : Nat) (f : PortSt → PortSt) : (m.modPort p f).lastStatus = m.lastStatus := rfl
@[simp] theorem Module.modPort_free (p : Nat) (f : PortSt → PortSt) : (m.modPort p f).free = m.free := rfl

/-! `modEdge` -/

@[simp] theorem Module.modEdge_nums (e : Nat) (f : EdgeSt → EdgeSt) : (m.modEdge e f).nums = m.nums := rfl
@[simp] theorem Module.modEdge_blobs (e : Nat) (f : EdgeSt → EdgeSt) : (m.modEdge e f).blobs = m.blobs := rfl
@[simp] theorem Module.modEdge_staging (e : Nat) (f : EdgeSt → EdgeSt) : (m.modEdge e f).staging = m.staging := rfl
@[simp] theorem Module.modEdge_heldAccess (e : Nat) (f : EdgeSt → EdgeSt) : (m.modEdge e f).heldAccess = m.heldAccess := rfl
@[simp] theorem Module.modEdge_nextHeld (e : Nat) (f : EdgeSt → EdgeSt) : (m.modEdge e f).nextHeld = m.nextHeld := rfl
@[simp] theorem Module.modEdge_regions (e : Nat) (f : EdgeSt → EdgeSt) : (m.modEdge e f).regions = m.regions := rfl
@[simp] theorem Module.modEdge_ctxGen (e : Nat) (f : EdgeSt → EdgeSt) : (m.modEdge e f).ctxGen = m.ctxGen := rfl
@[simp] theorem Module.modEdge_ports (e : Nat) (f : EdgeSt → EdgeSt) : (m.modEdge e f).ports = m.ports := rfl
@[simp] theorem Module.modEdge_edges (e : Nat) (f : EdgeSt → EdgeSt) : (m.modEdge e f).edges = Tab.put m.edges e (f (m.edge e)) := rfl
@[simp] theorem Module.modEdge_fabric (e : Nat) (f : EdgeSt → EdgeSt) : (m.modEdge e f).fabric = m.fabric := rfl
@[simp] theorem Module.modEdge_bridge (e : Nat) (f : EdgeSt → EdgeSt) : (m.modEdge e f).bridge = m.bridge := rfl
@[simp] theorem Module.modEdge_drone (e : Nat) (f : EdgeSt → EdgeSt) : (m.modEdge e f).drone = m.drone := rfl
@[simp] theorem Module.modEdge_chanter (e : Nat) (f : EdgeSt → EdgeSt) : (m.modEdge e f).chanter = m.chanter := rfl
@[simp] theorem Module.modEdge_stageqs (e : Nat) (f : EdgeSt → EdgeSt) : (m.modEdge e f).stageqs = m.stageqs := rfl
@[simp] theorem Module.modEdge_cycles (e : Nat) (f : EdgeSt → EdgeSt) : (m.modEdge e f).cycles = m.cycles := rfl
@[simp] theorem Module.modEdge_resets (e : Nat) (f : EdgeSt → EdgeSt) : (m.modEdge e f).resets = m.resets := rfl
@[simp] theorem Module.modEdge_env (e : Nat) (f : EdgeSt → EdgeSt) : (m.modEdge e f).env = m.env := rfl
@[simp] theorem Module.modEdge_flash (e : Nat) (f : EdgeSt → EdgeSt) : (m.modEdge e f).flash = m.flash := rfl
@[simp] theorem Module.modEdge_bellows (e : Nat) (f : EdgeSt → EdgeSt) : (m.modEdge e f).bellows = m.bellows := rfl
@[simp] theorem Module.modEdge_cal (e : Nat) (f : EdgeSt → EdgeSt) : (m.modEdge e f).cal = m.cal := rfl
@[simp] theorem Module.modEdge_cuts (e : Nat) (f : EdgeSt → EdgeSt) : (m.modEdge e f).cuts = m.cuts := rfl
@[simp] theorem Module.modEdge_test (e : Nat) (f : EdgeSt → EdgeSt) : (m.modEdge e f).test = m.test := rfl
@[simp] theorem Module.modEdge_security (e : Nat) (f : EdgeSt → EdgeSt) : (m.modEdge e f).security = m.security := rfl
@[simp] theorem Module.modEdge_tap (e : Nat) (f : EdgeSt → EdgeSt) : (m.modEdge e f).tap = m.tap := rfl
@[simp] theorem Module.modEdge_norm (e : Nat) (f : EdgeSt → EdgeSt) : (m.modEdge e f).norm = m.norm := rfl
@[simp] theorem Module.modEdge_timers (e : Nat) (f : EdgeSt → EdgeSt) : (m.modEdge e f).timers = m.timers := rfl
@[simp] theorem Module.modEdge_out (e : Nat) (f : EdgeSt → EdgeSt) : (m.modEdge e f).out = m.out := rfl
@[simp] theorem Module.modEdge_lastStatus (e : Nat) (f : EdgeSt → EdgeSt) : (m.modEdge e f).lastStatus = m.lastStatus := rfl
@[simp] theorem Module.modEdge_free (e : Nat) (f : EdgeSt → EdgeSt) : (m.modEdge e f).free = m.free := rfl

/-! `modRing` -/

@[simp] theorem Module.modRing_nums (i : Nat) (f : RingSt → RingSt) : (m.modRing i f).nums = m.nums := rfl
@[simp] theorem Module.modRing_blobs (i : Nat) (f : RingSt → RingSt) : (m.modRing i f).blobs = m.blobs := rfl
@[simp] theorem Module.modRing_staging (i : Nat) (f : RingSt → RingSt) : (m.modRing i f).staging = m.staging := rfl
@[simp] theorem Module.modRing_heldAccess (i : Nat) (f : RingSt → RingSt) : (m.modRing i f).heldAccess = m.heldAccess := rfl
@[simp] theorem Module.modRing_nextHeld (i : Nat) (f : RingSt → RingSt) : (m.modRing i f).nextHeld = m.nextHeld := rfl
@[simp] theorem Module.modRing_regions (i : Nat) (f : RingSt → RingSt) : (m.modRing i f).regions = m.regions := rfl
@[simp] theorem Module.modRing_ctxGen (i : Nat) (f : RingSt → RingSt) : (m.modRing i f).ctxGen = m.ctxGen := rfl
@[simp] theorem Module.modRing_ports (i : Nat) (f : RingSt → RingSt) : (m.modRing i f).ports = m.ports := rfl
@[simp] theorem Module.modRing_edges (i : Nat) (f : RingSt → RingSt) : (m.modRing i f).edges = m.edges := rfl
@[simp] theorem Module.modRing_fabric (i : Nat) (f : RingSt → RingSt) : (m.modRing i f).fabric = m.fabric := rfl
@[simp] theorem Module.modRing_drone (i : Nat) (f : RingSt → RingSt) : (m.modRing i f).drone = m.drone := rfl
@[simp] theorem Module.modRing_chanter (i : Nat) (f : RingSt → RingSt) : (m.modRing i f).chanter = m.chanter := rfl
@[simp] theorem Module.modRing_stageqs (i : Nat) (f : RingSt → RingSt) : (m.modRing i f).stageqs = m.stageqs := rfl
@[simp] theorem Module.modRing_cycles (i : Nat) (f : RingSt → RingSt) : (m.modRing i f).cycles = m.cycles := rfl
@[simp] theorem Module.modRing_resets (i : Nat) (f : RingSt → RingSt) : (m.modRing i f).resets = m.resets := rfl
@[simp] theorem Module.modRing_env (i : Nat) (f : RingSt → RingSt) : (m.modRing i f).env = m.env := rfl
@[simp] theorem Module.modRing_flash (i : Nat) (f : RingSt → RingSt) : (m.modRing i f).flash = m.flash := rfl
@[simp] theorem Module.modRing_bellows (i : Nat) (f : RingSt → RingSt) : (m.modRing i f).bellows = m.bellows := rfl
@[simp] theorem Module.modRing_cal (i : Nat) (f : RingSt → RingSt) : (m.modRing i f).cal = m.cal := rfl
@[simp] theorem Module.modRing_cuts (i : Nat) (f : RingSt → RingSt) : (m.modRing i f).cuts = m.cuts := rfl
@[simp] theorem Module.modRing_test (i : Nat) (f : RingSt → RingSt) : (m.modRing i f).test = m.test := rfl
@[simp] theorem Module.modRing_security (i : Nat) (f : RingSt → RingSt) : (m.modRing i f).security = m.security := rfl
@[simp] theorem Module.modRing_tap (i : Nat) (f : RingSt → RingSt) : (m.modRing i f).tap = m.tap := rfl
@[simp] theorem Module.modRing_norm (i : Nat) (f : RingSt → RingSt) : (m.modRing i f).norm = m.norm := rfl
@[simp] theorem Module.modRing_timers (i : Nat) (f : RingSt → RingSt) : (m.modRing i f).timers = m.timers := rfl
@[simp] theorem Module.modRing_out (i : Nat) (f : RingSt → RingSt) : (m.modRing i f).out = m.out := rfl
@[simp] theorem Module.modRing_lastStatus (i : Nat) (f : RingSt → RingSt) : (m.modRing i f).lastStatus = m.lastStatus := rfl
@[simp] theorem Module.modRing_free (i : Nat) (f : RingSt → RingSt) : (m.modRing i f).free = m.free := rfl

/-! `modSq` -/

@[simp] theorem Module.modSq_nums (i : Nat) (f : StageQ → StageQ) : (m.modSq i f).nums = m.nums := rfl
@[simp] theorem Module.modSq_blobs (i : Nat) (f : StageQ → StageQ) : (m.modSq i f).blobs = m.blobs := rfl
@[simp] theorem Module.modSq_staging (i : Nat) (f : StageQ → StageQ) : (m.modSq i f).staging = m.staging := rfl
@[simp] theorem Module.modSq_heldAccess (i : Nat) (f : StageQ → StageQ) : (m.modSq i f).heldAccess = m.heldAccess := rfl
@[simp] theorem Module.modSq_nextHeld (i : Nat) (f : StageQ → StageQ) : (m.modSq i f).nextHeld = m.nextHeld := rfl
@[simp] theorem Module.modSq_regions (i : Nat) (f : StageQ → StageQ) : (m.modSq i f).regions = m.regions := rfl
@[simp] theorem Module.modSq_ctxGen (i : Nat) (f : StageQ → StageQ) : (m.modSq i f).ctxGen = m.ctxGen := rfl
@[simp] theorem Module.modSq_ports (i : Nat) (f : StageQ → StageQ) : (m.modSq i f).ports = m.ports := rfl
@[simp] theorem Module.modSq_edges (i : Nat) (f : StageQ → StageQ) : (m.modSq i f).edges = m.edges := rfl
@[simp] theorem Module.modSq_fabric (i : Nat) (f : StageQ → StageQ) : (m.modSq i f).fabric = m.fabric := rfl
@[simp] theorem Module.modSq_bridge (i : Nat) (f : StageQ → StageQ) : (m.modSq i f).bridge = m.bridge := rfl
@[simp] theorem Module.modSq_drone (i : Nat) (f : StageQ → StageQ) : (m.modSq i f).drone = m.drone := rfl
@[simp] theorem Module.modSq_chanter (i : Nat) (f : StageQ → StageQ) : (m.modSq i f).chanter = m.chanter := rfl
@[simp] theorem Module.modSq_stageqs (i : Nat) (f : StageQ → StageQ) : (m.modSq i f).stageqs = Tab.put m.stageqs i (f (m.sq i)) := rfl
@[simp] theorem Module.modSq_cycles (i : Nat) (f : StageQ → StageQ) : (m.modSq i f).cycles = m.cycles := rfl
@[simp] theorem Module.modSq_resets (i : Nat) (f : StageQ → StageQ) : (m.modSq i f).resets = m.resets := rfl
@[simp] theorem Module.modSq_env (i : Nat) (f : StageQ → StageQ) : (m.modSq i f).env = m.env := rfl
@[simp] theorem Module.modSq_flash (i : Nat) (f : StageQ → StageQ) : (m.modSq i f).flash = m.flash := rfl
@[simp] theorem Module.modSq_bellows (i : Nat) (f : StageQ → StageQ) : (m.modSq i f).bellows = m.bellows := rfl
@[simp] theorem Module.modSq_cal (i : Nat) (f : StageQ → StageQ) : (m.modSq i f).cal = m.cal := rfl
@[simp] theorem Module.modSq_cuts (i : Nat) (f : StageQ → StageQ) : (m.modSq i f).cuts = m.cuts := rfl
@[simp] theorem Module.modSq_test (i : Nat) (f : StageQ → StageQ) : (m.modSq i f).test = m.test := rfl
@[simp] theorem Module.modSq_security (i : Nat) (f : StageQ → StageQ) : (m.modSq i f).security = m.security := rfl
@[simp] theorem Module.modSq_tap (i : Nat) (f : StageQ → StageQ) : (m.modSq i f).tap = m.tap := rfl
@[simp] theorem Module.modSq_norm (i : Nat) (f : StageQ → StageQ) : (m.modSq i f).norm = m.norm := rfl
@[simp] theorem Module.modSq_timers (i : Nat) (f : StageQ → StageQ) : (m.modSq i f).timers = m.timers := rfl
@[simp] theorem Module.modSq_out (i : Nat) (f : StageQ → StageQ) : (m.modSq i f).out = m.out := rfl
@[simp] theorem Module.modSq_lastStatus (i : Nat) (f : StageQ → StageQ) : (m.modSq i f).lastStatus = m.lastStatus := rfl
@[simp] theorem Module.modSq_free (i : Nat) (f : StageQ → StageQ) : (m.modSq i f).free = m.free := rfl

/-! `modEnv` -/

@[simp] theorem Module.modEnv_nums (f : Env → Env) : (m.modEnv f).nums = m.nums := rfl
@[simp] theorem Module.modEnv_blobs (f : Env → Env) : (m.modEnv f).blobs = m.blobs := rfl
@[simp] theorem Module.modEnv_staging (f : Env → Env) : (m.modEnv f).staging = m.staging := rfl
@[simp] theorem Module.modEnv_heldAccess (f : Env → Env) : (m.modEnv f).heldAccess = m.heldAccess := rfl
@[simp] theorem Module.modEnv_nextHeld (f : Env → Env) : (m.modEnv f).nextHeld = m.nextHeld := rfl
@[simp] theorem Module.modEnv_regions (f : Env → Env) : (m.modEnv f).regions = m.regions := rfl
@[simp] theorem Module.modEnv_ctxGen (f : Env → Env) : (m.modEnv f).ctxGen = m.ctxGen := rfl
@[simp] theorem Module.modEnv_ports (f : Env → Env) : (m.modEnv f).ports = m.ports := rfl
@[simp] theorem Module.modEnv_edges (f : Env → Env) : (m.modEnv f).edges = m.edges := rfl
@[simp] theorem Module.modEnv_fabric (f : Env → Env) : (m.modEnv f).fabric = m.fabric := rfl
@[simp] theorem Module.modEnv_bridge (f : Env → Env) : (m.modEnv f).bridge = m.bridge := rfl
@[simp] theorem Module.modEnv_drone (f : Env → Env) : (m.modEnv f).drone = m.drone := rfl
@[simp] theorem Module.modEnv_chanter (f : Env → Env) : (m.modEnv f).chanter = m.chanter := rfl
@[simp] theorem Module.modEnv_stageqs (f : Env → Env) : (m.modEnv f).stageqs = m.stageqs := rfl
@[simp] theorem Module.modEnv_cycles (f : Env → Env) : (m.modEnv f).cycles = m.cycles := rfl
@[simp] theorem Module.modEnv_resets (f : Env → Env) : (m.modEnv f).resets = m.resets := rfl
@[simp] theorem Module.modEnv_env (f : Env → Env) : (m.modEnv f).env = f m.env := rfl
@[simp] theorem Module.modEnv_flash (f : Env → Env) : (m.modEnv f).flash = m.flash := rfl
@[simp] theorem Module.modEnv_bellows (f : Env → Env) : (m.modEnv f).bellows = m.bellows := rfl
@[simp] theorem Module.modEnv_cal (f : Env → Env) : (m.modEnv f).cal = m.cal := rfl
@[simp] theorem Module.modEnv_cuts (f : Env → Env) : (m.modEnv f).cuts = m.cuts := rfl
@[simp] theorem Module.modEnv_test (f : Env → Env) : (m.modEnv f).test = m.test := rfl
@[simp] theorem Module.modEnv_security (f : Env → Env) : (m.modEnv f).security = m.security := rfl
@[simp] theorem Module.modEnv_tap (f : Env → Env) : (m.modEnv f).tap = m.tap := rfl
@[simp] theorem Module.modEnv_norm (f : Env → Env) : (m.modEnv f).norm = m.norm := rfl
@[simp] theorem Module.modEnv_timers (f : Env → Env) : (m.modEnv f).timers = m.timers := rfl
@[simp] theorem Module.modEnv_out (f : Env → Env) : (m.modEnv f).out = m.out := rfl
@[simp] theorem Module.modEnv_lastStatus (f : Env → Env) : (m.modEnv f).lastStatus = m.lastStatus := rfl
@[simp] theorem Module.modEnv_free (f : Env → Env) : (m.modEnv f).free = m.free := rfl

/-! `modFlash` -/

@[simp] theorem Module.modFlash_nums (f : Flash → Flash) : (m.modFlash f).nums = m.nums := rfl
@[simp] theorem Module.modFlash_blobs (f : Flash → Flash) : (m.modFlash f).blobs = m.blobs := rfl
@[simp] theorem Module.modFlash_staging (f : Flash → Flash) : (m.modFlash f).staging = m.staging := rfl
@[simp] theorem Module.modFlash_heldAccess (f : Flash → Flash) : (m.modFlash f).heldAccess = m.heldAccess := rfl
@[simp] theorem Module.modFlash_nextHeld (f : Flash → Flash) : (m.modFlash f).nextHeld = m.nextHeld := rfl
@[simp] theorem Module.modFlash_regions (f : Flash → Flash) : (m.modFlash f).regions = m.regions := rfl
@[simp] theorem Module.modFlash_ctxGen (f : Flash → Flash) : (m.modFlash f).ctxGen = m.ctxGen := rfl
@[simp] theorem Module.modFlash_ports (f : Flash → Flash) : (m.modFlash f).ports = m.ports := rfl
@[simp] theorem Module.modFlash_edges (f : Flash → Flash) : (m.modFlash f).edges = m.edges := rfl
@[simp] theorem Module.modFlash_fabric (f : Flash → Flash) : (m.modFlash f).fabric = m.fabric := rfl
@[simp] theorem Module.modFlash_bridge (f : Flash → Flash) : (m.modFlash f).bridge = m.bridge := rfl
@[simp] theorem Module.modFlash_drone (f : Flash → Flash) : (m.modFlash f).drone = m.drone := rfl
@[simp] theorem Module.modFlash_chanter (f : Flash → Flash) : (m.modFlash f).chanter = m.chanter := rfl
@[simp] theorem Module.modFlash_stageqs (f : Flash → Flash) : (m.modFlash f).stageqs = m.stageqs := rfl
@[simp] theorem Module.modFlash_cycles (f : Flash → Flash) : (m.modFlash f).cycles = m.cycles := rfl
@[simp] theorem Module.modFlash_resets (f : Flash → Flash) : (m.modFlash f).resets = m.resets := rfl
@[simp] theorem Module.modFlash_env (f : Flash → Flash) : (m.modFlash f).env = m.env := rfl
@[simp] theorem Module.modFlash_flash (f : Flash → Flash) : (m.modFlash f).flash = f m.flash := rfl
@[simp] theorem Module.modFlash_bellows (f : Flash → Flash) : (m.modFlash f).bellows = m.bellows := rfl
@[simp] theorem Module.modFlash_cal (f : Flash → Flash) : (m.modFlash f).cal = m.cal := rfl
@[simp] theorem Module.modFlash_cuts (f : Flash → Flash) : (m.modFlash f).cuts = m.cuts := rfl
@[simp] theorem Module.modFlash_test (f : Flash → Flash) : (m.modFlash f).test = m.test := rfl
@[simp] theorem Module.modFlash_security (f : Flash → Flash) : (m.modFlash f).security = m.security := rfl
@[simp] theorem Module.modFlash_tap (f : Flash → Flash) : (m.modFlash f).tap = m.tap := rfl
@[simp] theorem Module.modFlash_norm (f : Flash → Flash) : (m.modFlash f).norm = m.norm := rfl
@[simp] theorem Module.modFlash_timers (f : Flash → Flash) : (m.modFlash f).timers = m.timers := rfl
@[simp] theorem Module.modFlash_out (f : Flash → Flash) : (m.modFlash f).out = m.out := rfl
@[simp] theorem Module.modFlash_lastStatus (f : Flash → Flash) : (m.modFlash f).lastStatus = m.lastStatus := rfl
@[simp] theorem Module.modFlash_free (f : Flash → Flash) : (m.modFlash f).free = m.free := rfl

/-! `modFab` -/

@[simp] theorem Module.modFab_nums (f : Fabric → Fabric) : (m.modFab f).nums = m.nums := rfl
@[simp] theorem Module.modFab_blobs (f : Fabric → Fabric) : (m.modFab f).blobs = m.blobs := rfl
@[simp] theorem Module.modFab_staging (f : Fabric → Fabric) : (m.modFab f).staging = m.staging := rfl
@[simp] theorem Module.modFab_heldAccess (f : Fabric → Fabric) : (m.modFab f).heldAccess = m.heldAccess := rfl
@[simp] theorem Module.modFab_nextHeld (f : Fabric → Fabric) : (m.modFab f).nextHeld = m.nextHeld := rfl
@[simp] theorem Module.modFab_regions (f : Fabric → Fabric) : (m.modFab f).regions = m.regions := rfl
@[simp] theorem Module.modFab_ctxGen (f : Fabric → Fabric) : (m.modFab f).ctxGen = m.ctxGen := rfl
@[simp] theorem Module.modFab_ports (f : Fabric → Fabric) : (m.modFab f).ports = m.ports := rfl
@[simp] theorem Module.modFab_edges (f : Fabric → Fabric) : (m.modFab f).edges = m.edges := rfl
@[simp] theorem Module.modFab_fabric (f : Fabric → Fabric) : (m.modFab f).fabric = f m.fabric := rfl
@[simp] theorem Module.modFab_bridge (f : Fabric → Fabric) : (m.modFab f).bridge = m.bridge := rfl
@[simp] theorem Module.modFab_drone (f : Fabric → Fabric) : (m.modFab f).drone = m.drone := rfl
@[simp] theorem Module.modFab_chanter (f : Fabric → Fabric) : (m.modFab f).chanter = m.chanter := rfl
@[simp] theorem Module.modFab_stageqs (f : Fabric → Fabric) : (m.modFab f).stageqs = m.stageqs := rfl
@[simp] theorem Module.modFab_cycles (f : Fabric → Fabric) : (m.modFab f).cycles = m.cycles := rfl
@[simp] theorem Module.modFab_resets (f : Fabric → Fabric) : (m.modFab f).resets = m.resets := rfl
@[simp] theorem Module.modFab_env (f : Fabric → Fabric) : (m.modFab f).env = m.env := rfl
@[simp] theorem Module.modFab_flash (f : Fabric → Fabric) : (m.modFab f).flash = m.flash := rfl
@[simp] theorem Module.modFab_bellows (f : Fabric → Fabric) : (m.modFab f).bellows = m.bellows := rfl
@[simp] theorem Module.modFab_cal (f : Fabric → Fabric) : (m.modFab f).cal = m.cal := rfl
@[simp] theorem Module.modFab_cuts (f : Fabric → Fabric) : (m.modFab f).cuts = m.cuts := rfl
@[simp] theorem Module.modFab_test (f : Fabric → Fabric) : (m.modFab f).test = m.test := rfl
@[simp] theorem Module.modFab_security (f : Fabric → Fabric) : (m.modFab f).security = m.security := rfl
@[simp] theorem Module.modFab_tap (f : Fabric → Fabric) : (m.modFab f).tap = m.tap := rfl
@[simp] theorem Module.modFab_norm (f : Fabric → Fabric) : (m.modFab f).norm = m.norm := rfl
@[simp] theorem Module.modFab_timers (f : Fabric → Fabric) : (m.modFab f).timers = m.timers := rfl
@[simp] theorem Module.modFab_out (f : Fabric → Fabric) : (m.modFab f).out = m.out := rfl
@[simp] theorem Module.modFab_lastStatus (f : Fabric → Fabric) : (m.modFab f).lastStatus = m.lastStatus := rfl
@[simp] theorem Module.modFab_free (f : Fabric → Fabric) : (m.modFab f).free = m.free := rfl

/-! `modDrone` -/

@[simp] theorem Module.modDrone_nums (f : Drone → Drone) : (m.modDrone f).nums = m.nums := rfl
@[simp] theorem Module.modDrone_blobs (f : Drone → Drone) : (m.modDrone f).blobs = m.blobs := rfl
@[simp] theorem Module.modDrone_staging (f : Drone → Drone) : (m.modDrone f).staging = m.staging := rfl
@[simp] theorem Module.modDrone_heldAccess (f : Drone → Drone) : (m.modDrone f).heldAccess = m.heldAccess := rfl
@[simp] theorem Module.modDrone_nextHeld (f : Drone → Drone) : (m.modDrone f).nextHeld = m.nextHeld := rfl
@[simp] theorem Module.modDrone_regions (f : Drone → Drone) : (m.modDrone f).regions = m.regions := rfl
@[simp] theorem Module.modDrone_ctxGen (f : Drone → Drone) : (m.modDrone f).ctxGen = m.ctxGen := rfl
@[simp] theorem Module.modDrone_ports (f : Drone → Drone) : (m.modDrone f).ports = m.ports := rfl
@[simp] theorem Module.modDrone_edges (f : Drone → Drone) : (m.modDrone f).edges = m.edges := rfl
@[simp] theorem Module.modDrone_fabric (f : Drone → Drone) : (m.modDrone f).fabric = m.fabric := rfl
@[simp] theorem Module.modDrone_bridge (f : Drone → Drone) : (m.modDrone f).bridge = m.bridge := rfl
@[simp] theorem Module.modDrone_drone (f : Drone → Drone) : (m.modDrone f).drone = f m.drone := rfl
@[simp] theorem Module.modDrone_chanter (f : Drone → Drone) : (m.modDrone f).chanter = m.chanter := rfl
@[simp] theorem Module.modDrone_stageqs (f : Drone → Drone) : (m.modDrone f).stageqs = m.stageqs := rfl
@[simp] theorem Module.modDrone_cycles (f : Drone → Drone) : (m.modDrone f).cycles = m.cycles := rfl
@[simp] theorem Module.modDrone_resets (f : Drone → Drone) : (m.modDrone f).resets = m.resets := rfl
@[simp] theorem Module.modDrone_env (f : Drone → Drone) : (m.modDrone f).env = m.env := rfl
@[simp] theorem Module.modDrone_flash (f : Drone → Drone) : (m.modDrone f).flash = m.flash := rfl
@[simp] theorem Module.modDrone_bellows (f : Drone → Drone) : (m.modDrone f).bellows = m.bellows := rfl
@[simp] theorem Module.modDrone_cal (f : Drone → Drone) : (m.modDrone f).cal = m.cal := rfl
@[simp] theorem Module.modDrone_cuts (f : Drone → Drone) : (m.modDrone f).cuts = m.cuts := rfl
@[simp] theorem Module.modDrone_test (f : Drone → Drone) : (m.modDrone f).test = m.test := rfl
@[simp] theorem Module.modDrone_security (f : Drone → Drone) : (m.modDrone f).security = m.security := rfl
@[simp] theorem Module.modDrone_tap (f : Drone → Drone) : (m.modDrone f).tap = m.tap := rfl
@[simp] theorem Module.modDrone_norm (f : Drone → Drone) : (m.modDrone f).norm = m.norm := rfl
@[simp] theorem Module.modDrone_timers (f : Drone → Drone) : (m.modDrone f).timers = m.timers := rfl
@[simp] theorem Module.modDrone_out (f : Drone → Drone) : (m.modDrone f).out = m.out := rfl
@[simp] theorem Module.modDrone_lastStatus (f : Drone → Drone) : (m.modDrone f).lastStatus = m.lastStatus := rfl
@[simp] theorem Module.modDrone_free (f : Drone → Drone) : (m.modDrone f).free = m.free := rfl

/-! `modCh` -/

@[simp] theorem Module.modCh_nums (f : Chanter → Chanter) : (m.modCh f).nums = m.nums := rfl
@[simp] theorem Module.modCh_blobs (f : Chanter → Chanter) : (m.modCh f).blobs = m.blobs := rfl
@[simp] theorem Module.modCh_staging (f : Chanter → Chanter) : (m.modCh f).staging = m.staging := rfl
@[simp] theorem Module.modCh_heldAccess (f : Chanter → Chanter) : (m.modCh f).heldAccess = m.heldAccess := rfl
@[simp] theorem Module.modCh_nextHeld (f : Chanter → Chanter) : (m.modCh f).nextHeld = m.nextHeld := rfl
@[simp] theorem Module.modCh_regions (f : Chanter → Chanter) : (m.modCh f).regions = m.regions := rfl
@[simp] theorem Module.modCh_ctxGen (f : Chanter → Chanter) : (m.modCh f).ctxGen = m.ctxGen := rfl
@[simp] theorem Module.modCh_ports (f : Chanter → Chanter) : (m.modCh f).ports = m.ports := rfl
@[simp] theorem Module.modCh_edges (f : Chanter → Chanter) : (m.modCh f).edges = m.edges := rfl
@[simp] theorem Module.modCh_fabric (f : Chanter → Chanter) : (m.modCh f).fabric = m.fabric := rfl
@[simp] theorem Module.modCh_bridge (f : Chanter → Chanter) : (m.modCh f).bridge = m.bridge := rfl
@[simp] theorem Module.modCh_drone (f : Chanter → Chanter) : (m.modCh f).drone = m.drone := rfl
@[simp] theorem Module.modCh_chanter (f : Chanter → Chanter) : (m.modCh f).chanter = f m.chanter := rfl
@[simp] theorem Module.modCh_stageqs (f : Chanter → Chanter) : (m.modCh f).stageqs = m.stageqs := rfl
@[simp] theorem Module.modCh_cycles (f : Chanter → Chanter) : (m.modCh f).cycles = m.cycles := rfl
@[simp] theorem Module.modCh_resets (f : Chanter → Chanter) : (m.modCh f).resets = m.resets := rfl
@[simp] theorem Module.modCh_env (f : Chanter → Chanter) : (m.modCh f).env = m.env := rfl
@[simp] theorem Module.modCh_flash (f : Chanter → Chanter) : (m.modCh f).flash = m.flash := rfl
@[simp] theorem Module.modCh_bellows (f : Chanter → Chanter) : (m.modCh f).bellows = m.bellows := rfl
@[simp] theorem Module.modCh_cal (f : Chanter → Chanter) : (m.modCh f).cal = m.cal := rfl
@[simp] theorem Module.modCh_cuts (f : Chanter → Chanter) : (m.modCh f).cuts = m.cuts := rfl
@[simp] theorem Module.modCh_test (f : Chanter → Chanter) : (m.modCh f).test = m.test := rfl
@[simp] theorem Module.modCh_security (f : Chanter → Chanter) : (m.modCh f).security = m.security := rfl
@[simp] theorem Module.modCh_tap (f : Chanter → Chanter) : (m.modCh f).tap = m.tap := rfl
@[simp] theorem Module.modCh_norm (f : Chanter → Chanter) : (m.modCh f).norm = m.norm := rfl
@[simp] theorem Module.modCh_timers (f : Chanter → Chanter) : (m.modCh f).timers = m.timers := rfl
@[simp] theorem Module.modCh_out (f : Chanter → Chanter) : (m.modCh f).out = m.out := rfl
@[simp] theorem Module.modCh_lastStatus (f : Chanter → Chanter) : (m.modCh f).lastStatus = m.lastStatus := rfl
@[simp] theorem Module.modCh_free (f : Chanter → Chanter) : (m.modCh f).free = m.free := rfl

/-! `modBel` -/

@[simp] theorem Module.modBel_nums (f : Bellows → Bellows) : (m.modBel f).nums = m.nums := rfl
@[simp] theorem Module.modBel_blobs (f : Bellows → Bellows) : (m.modBel f).blobs = m.blobs := rfl
@[simp] theorem Module.modBel_staging (f : Bellows → Bellows) : (m.modBel f).staging = m.staging := rfl
@[simp] theorem Module.modBel_heldAccess (f : Bellows → Bellows) : (m.modBel f).heldAccess = m.heldAccess := rfl
@[simp] theorem Module.modBel_nextHeld (f : Bellows → Bellows) : (m.modBel f).nextHeld = m.nextHeld := rfl
@[simp] theorem Module.modBel_regions (f : Bellows → Bellows) : (m.modBel f).regions = m.regions := rfl
@[simp] theorem Module.modBel_ctxGen (f : Bellows → Bellows) : (m.modBel f).ctxGen = m.ctxGen := rfl
@[simp] theorem Module.modBel_ports (f : Bellows → Bellows) : (m.modBel f).ports = m.ports := rfl
@[simp] theorem Module.modBel_edges (f : Bellows → Bellows) : (m.modBel f).edges = m.edges := rfl
@[simp] theorem Module.modBel_fabric (f : Bellows → Bellows) : (m.modBel f).fabric = m.fabric := rfl
@[simp] theorem Module.modBel_bridge (f : Bellows → Bellows) : (m.modBel f).bridge = m.bridge := rfl
@[simp] theorem Module.modBel_drone (f : Bellows → Bellows) : (m.modBel f).drone = m.drone := rfl
@[simp] theorem Module.modBel_chanter (f : Bellows → Bellows) : (m.modBel f).chanter = m.chanter := rfl
@[simp] theorem Module.modBel_stageqs (f : Bellows → Bellows) : (m.modBel f).stageqs = m.stageqs := rfl
@[simp] theorem Module.modBel_cycles (f : Bellows → Bellows) : (m.modBel f).cycles = m.cycles := rfl
@[simp] theorem Module.modBel_resets (f : Bellows → Bellows) : (m.modBel f).resets = m.resets := rfl
@[simp] theorem Module.modBel_env (f : Bellows → Bellows) : (m.modBel f).env = m.env := rfl
@[simp] theorem Module.modBel_flash (f : Bellows → Bellows) : (m.modBel f).flash = m.flash := rfl
@[simp] theorem Module.modBel_bellows (f : Bellows → Bellows) : (m.modBel f).bellows = f m.bellows := rfl
@[simp] theorem Module.modBel_cal (f : Bellows → Bellows) : (m.modBel f).cal = m.cal := rfl
@[simp] theorem Module.modBel_cuts (f : Bellows → Bellows) : (m.modBel f).cuts = m.cuts := rfl
@[simp] theorem Module.modBel_test (f : Bellows → Bellows) : (m.modBel f).test = m.test := rfl
@[simp] theorem Module.modBel_security (f : Bellows → Bellows) : (m.modBel f).security = m.security := rfl
@[simp] theorem Module.modBel_tap (f : Bellows → Bellows) : (m.modBel f).tap = m.tap := rfl
@[simp] theorem Module.modBel_norm (f : Bellows → Bellows) : (m.modBel f).norm = m.norm := rfl
@[simp] theorem Module.modBel_timers (f : Bellows → Bellows) : (m.modBel f).timers = m.timers := rfl
@[simp] theorem Module.modBel_out (f : Bellows → Bellows) : (m.modBel f).out = m.out := rfl
@[simp] theorem Module.modBel_lastStatus (f : Bellows → Bellows) : (m.modBel f).lastStatus = m.lastStatus := rfl
@[simp] theorem Module.modBel_free (f : Bellows → Bellows) : (m.modBel f).free = m.free := rfl

/-! `modCuts` -/

@[simp] theorem Module.modCuts_nums (f : Cuts → Cuts) : (m.modCuts f).nums = m.nums := rfl
@[simp] theorem Module.modCuts_blobs (f : Cuts → Cuts) : (m.modCuts f).blobs = m.blobs := rfl
@[simp] theorem Module.modCuts_staging (f : Cuts → Cuts) : (m.modCuts f).staging = m.staging := rfl
@[simp] theorem Module.modCuts_heldAccess (f : Cuts → Cuts) : (m.modCuts f).heldAccess = m.heldAccess := rfl
@[simp] theorem Module.modCuts_nextHeld (f : Cuts → Cuts) : (m.modCuts f).nextHeld = m.nextHeld := rfl
@[simp] theorem Module.modCuts_regions (f : Cuts → Cuts) : (m.modCuts f).regions = m.regions := rfl
@[simp] theorem Module.modCuts_ctxGen (f : Cuts → Cuts) : (m.modCuts f).ctxGen = m.ctxGen := rfl
@[simp] theorem Module.modCuts_ports (f : Cuts → Cuts) : (m.modCuts f).ports = m.ports := rfl
@[simp] theorem Module.modCuts_edges (f : Cuts → Cuts) : (m.modCuts f).edges = m.edges := rfl
@[simp] theorem Module.modCuts_fabric (f : Cuts → Cuts) : (m.modCuts f).fabric = m.fabric := rfl
@[simp] theorem Module.modCuts_bridge (f : Cuts → Cuts) : (m.modCuts f).bridge = m.bridge := rfl
@[simp] theorem Module.modCuts_drone (f : Cuts → Cuts) : (m.modCuts f).drone = m.drone := rfl
@[simp] theorem Module.modCuts_chanter (f : Cuts → Cuts) : (m.modCuts f).chanter = m.chanter := rfl
@[simp] theorem Module.modCuts_stageqs (f : Cuts → Cuts) : (m.modCuts f).stageqs = m.stageqs := rfl
@[simp] theorem Module.modCuts_cycles (f : Cuts → Cuts) : (m.modCuts f).cycles = m.cycles := rfl
@[simp] theorem Module.modCuts_resets (f : Cuts → Cuts) : (m.modCuts f).resets = m.resets := rfl
@[simp] theorem Module.modCuts_env (f : Cuts → Cuts) : (m.modCuts f).env = m.env := rfl
@[simp] theorem Module.modCuts_flash (f : Cuts → Cuts) : (m.modCuts f).flash = m.flash := rfl
@[simp] theorem Module.modCuts_bellows (f : Cuts → Cuts) : (m.modCuts f).bellows = m.bellows := rfl
@[simp] theorem Module.modCuts_cal (f : Cuts → Cuts) : (m.modCuts f).cal = m.cal := rfl
@[simp] theorem Module.modCuts_cuts (f : Cuts → Cuts) : (m.modCuts f).cuts = f m.cuts := rfl
@[simp] theorem Module.modCuts_test (f : Cuts → Cuts) : (m.modCuts f).test = m.test := rfl
@[simp] theorem Module.modCuts_security (f : Cuts → Cuts) : (m.modCuts f).security = m.security := rfl
@[simp] theorem Module.modCuts_tap (f : Cuts → Cuts) : (m.modCuts f).tap = m.tap := rfl
@[simp] theorem Module.modCuts_norm (f : Cuts → Cuts) : (m.modCuts f).norm = m.norm := rfl
@[simp] theorem Module.modCuts_timers (f : Cuts → Cuts) : (m.modCuts f).timers = m.timers := rfl
@[simp] theorem Module.modCuts_out (f : Cuts → Cuts) : (m.modCuts f).out = m.out := rfl
@[simp] theorem Module.modCuts_lastStatus (f : Cuts → Cuts) : (m.modCuts f).lastStatus = m.lastStatus := rfl
@[simp] theorem Module.modCuts_free (f : Cuts → Cuts) : (m.modCuts f).free = m.free := rfl

/-! `modTest` -/

@[simp] theorem Module.modTest_nums (f : Test → Test) : (m.modTest f).nums = m.nums := rfl
@[simp] theorem Module.modTest_blobs (f : Test → Test) : (m.modTest f).blobs = m.blobs := rfl
@[simp] theorem Module.modTest_staging (f : Test → Test) : (m.modTest f).staging = m.staging := rfl
@[simp] theorem Module.modTest_heldAccess (f : Test → Test) : (m.modTest f).heldAccess = m.heldAccess := rfl
@[simp] theorem Module.modTest_nextHeld (f : Test → Test) : (m.modTest f).nextHeld = m.nextHeld := rfl
@[simp] theorem Module.modTest_regions (f : Test → Test) : (m.modTest f).regions = m.regions := rfl
@[simp] theorem Module.modTest_ctxGen (f : Test → Test) : (m.modTest f).ctxGen = m.ctxGen := rfl
@[simp] theorem Module.modTest_ports (f : Test → Test) : (m.modTest f).ports = m.ports := rfl
@[simp] theorem Module.modTest_edges (f : Test → Test) : (m.modTest f).edges = m.edges := rfl
@[simp] theorem Module.modTest_fabric (f : Test → Test) : (m.modTest f).fabric = m.fabric := rfl
@[simp] theorem Module.modTest_bridge (f : Test → Test) : (m.modTest f).bridge = m.bridge := rfl
@[simp] theorem Module.modTest_drone (f : Test → Test) : (m.modTest f).drone = m.drone := rfl
@[simp] theorem Module.modTest_chanter (f : Test → Test) : (m.modTest f).chanter = m.chanter := rfl
@[simp] theorem Module.modTest_stageqs (f : Test → Test) : (m.modTest f).stageqs = m.stageqs := rfl
@[simp] theorem Module.modTest_cycles (f : Test → Test) : (m.modTest f).cycles = m.cycles := rfl
@[simp] theorem Module.modTest_resets (f : Test → Test) : (m.modTest f).resets = m.resets := rfl
@[simp] theorem Module.modTest_env (f : Test → Test) : (m.modTest f).env = m.env := rfl
@[simp] theorem Module.modTest_flash (f : Test → Test) : (m.modTest f).flash = m.flash := rfl
@[simp] theorem Module.modTest_bellows (f : Test → Test) : (m.modTest f).bellows = m.bellows := rfl
@[simp] theorem Module.modTest_cal (f : Test → Test) : (m.modTest f).cal = m.cal := rfl
@[simp] theorem Module.modTest_cuts (f : Test → Test) : (m.modTest f).cuts = m.cuts := rfl
@[simp] theorem Module.modTest_test (f : Test → Test) : (m.modTest f).test = f m.test := rfl
@[simp] theorem Module.modTest_security (f : Test → Test) : (m.modTest f).security = m.security := rfl
@[simp] theorem Module.modTest_tap (f : Test → Test) : (m.modTest f).tap = m.tap := rfl
@[simp] theorem Module.modTest_norm (f : Test → Test) : (m.modTest f).norm = m.norm := rfl
@[simp] theorem Module.modTest_timers (f : Test → Test) : (m.modTest f).timers = m.timers := rfl
@[simp] theorem Module.modTest_out (f : Test → Test) : (m.modTest f).out = m.out := rfl
@[simp] theorem Module.modTest_lastStatus (f : Test → Test) : (m.modTest f).lastStatus = m.lastStatus := rfl
@[simp] theorem Module.modTest_free (f : Test → Test) : (m.modTest f).free = m.free := rfl

/-! `modSec` -/

@[simp] theorem Module.modSec_nums (f : Security → Security) : (m.modSec f).nums = m.nums := rfl
@[simp] theorem Module.modSec_blobs (f : Security → Security) : (m.modSec f).blobs = m.blobs := rfl
@[simp] theorem Module.modSec_staging (f : Security → Security) : (m.modSec f).staging = m.staging := rfl
@[simp] theorem Module.modSec_heldAccess (f : Security → Security) : (m.modSec f).heldAccess = m.heldAccess := rfl
@[simp] theorem Module.modSec_nextHeld (f : Security → Security) : (m.modSec f).nextHeld = m.nextHeld := rfl
@[simp] theorem Module.modSec_regions (f : Security → Security) : (m.modSec f).regions = m.regions := rfl
@[simp] theorem Module.modSec_ctxGen (f : Security → Security) : (m.modSec f).ctxGen = m.ctxGen := rfl
@[simp] theorem Module.modSec_ports (f : Security → Security) : (m.modSec f).ports = m.ports := rfl
@[simp] theorem Module.modSec_edges (f : Security → Security) : (m.modSec f).edges = m.edges := rfl
@[simp] theorem Module.modSec_fabric (f : Security → Security) : (m.modSec f).fabric = m.fabric := rfl
@[simp] theorem Module.modSec_bridge (f : Security → Security) : (m.modSec f).bridge = m.bridge := rfl
@[simp] theorem Module.modSec_drone (f : Security → Security) : (m.modSec f).drone = m.drone := rfl
@[simp] theorem Module.modSec_chanter (f : Security → Security) : (m.modSec f).chanter = m.chanter := rfl
@[simp] theorem Module.modSec_stageqs (f : Security → Security) : (m.modSec f).stageqs = m.stageqs := rfl
@[simp] theorem Module.modSec_cycles (f : Security → Security) : (m.modSec f).cycles = m.cycles := rfl
@[simp] theorem Module.modSec_resets (f : Security → Security) : (m.modSec f).resets = m.resets := rfl
@[simp] theorem Module.modSec_env (f : Security → Security) : (m.modSec f).env = m.env := rfl
@[simp] theorem Module.modSec_flash (f : Security → Security) : (m.modSec f).flash = m.flash := rfl
@[simp] theorem Module.modSec_bellows (f : Security → Security) : (m.modSec f).bellows = m.bellows := rfl
@[simp] theorem Module.modSec_cal (f : Security → Security) : (m.modSec f).cal = m.cal := rfl
@[simp] theorem Module.modSec_cuts (f : Security → Security) : (m.modSec f).cuts = m.cuts := rfl
@[simp] theorem Module.modSec_test (f : Security → Security) : (m.modSec f).test = m.test := rfl
@[simp] theorem Module.modSec_security (f : Security → Security) : (m.modSec f).security = f m.security := rfl
@[simp] theorem Module.modSec_tap (f : Security → Security) : (m.modSec f).tap = m.tap := rfl
@[simp] theorem Module.modSec_norm (f : Security → Security) : (m.modSec f).norm = m.norm := rfl
@[simp] theorem Module.modSec_timers (f : Security → Security) : (m.modSec f).timers = m.timers := rfl
@[simp] theorem Module.modSec_out (f : Security → Security) : (m.modSec f).out = m.out := rfl
@[simp] theorem Module.modSec_lastStatus (f : Security → Security) : (m.modSec f).lastStatus = m.lastStatus := rfl
@[simp] theorem Module.modSec_free (f : Security → Security) : (m.modSec f).free = m.free := rfl

/-! ### Reads after updates -/

theorem Module.num_def (k : Nat) : m.num k = Tab.get 0 m.nums k := rfl

/-- An entry written reads the value. -/
@[simp] theorem Module.num_setNum (k v : Nat) : (m.setNum k v).num k = v := Tab.get_set_self 0 _ k v

/-- Other entries read as before. -/
theorem Module.num_setNum_ne {k j : Nat} (v : Nat) (hj : j ≠ k) : (m.setNum k v).num j = m.num j :=
  Tab.get_set_ne 0 _ v hj

@[simp] theorem Module.rg_setR (r : Nat) (g : Region) : (m.setR r g).rg r = g := Tab.get_put_self _ _ _ _

theorem Module.rg_setR_ne {r q : Nat} (g : Region) (h : q ≠ r) : (m.setR r g).rg q = m.rg q := Tab.get_put_ne _ _ _ h

@[simp] theorem Module.rg_modR (r : Nat) (f : Region → Region) : (m.modR r f).rg r = f (m.rg r) := Tab.get_put_self _ _ _ _

theorem Module.rg_modR_ne {r q : Nat} (f : Region → Region) (h : q ≠ r) : (m.modR r f).rg q = m.rg q := Tab.get_put_ne _ _ _ h

@[simp] theorem Module.work_modWork (r : Nat) (f : Work → Work) : (m.modWork r f).work r = f (m.work r) := by
  simp [Module.modWork, Module.work]

@[simp] theorem Module.port_modPort (p : Nat) (f : PortSt → PortSt) : (m.modPort p f).port p = f (m.port p) := Tab.get_put_self _ _ _ _

@[simp] theorem Module.edge_modEdge (e : Nat) (f : EdgeSt → EdgeSt) : (m.modEdge e f).edge e = f (m.edge e) := Tab.get_put_self _ _ _ _

@[simp] theorem Module.ring_modRing (i : Nat) (f : RingSt → RingSt) : (m.modRing i f).ring i = f (m.ring i) := Tab.get_put_self _ _ _ _

@[simp] theorem Module.sq_modSq (i : Nat) (f : StageQ → StageQ) : (m.modSq i f).sq i = f (m.sq i) := Tab.get_put_self _ _ _ _

end Sys2Proof.Machine
end

