-- ==== Sys2Proof/Laws/Frames.lean ====
section
/-! SUPPORT. What the shared operations leave alone: posting events, sending frames, taking tags and reading or writing
bonded memory change neither a region's work nor its training state, tier, exchange buffer or stores of requests, nor the
module's cycles, resets, flash, rings or streams. -/

namespace Sys2Proof.Machine

/-- The parts of a region that sending, posting and memory access leave alone. -/
def Module.stillR (m : Module) (r : Nat) :=
  let g := m.rg r
  (g.work, g.train, g.tier, g.xch, g.cut, g.dups, g.held, g.heldDesc)

/-- The parts of the module that they leave alone. -/
def Module.stillM (m : Module) :=
  (m.ctxGen, m.bridge, m.chanter, m.stageqs, m.cycles, m.resets, m.flash, m.bellows, m.cuts, m.tap, m.norm, m.staging, m.env.droneUp)

theorem work_of_still {a b : Module} {r : Nat} (h : b.stillR r = a.stillR r) : b.work r = a.work r := congrArg Prod.fst h

theorem train_of_still {a b : Module} {r : Nat} (h : b.stillR r = a.stillR r) : (b.rg r).train = (a.rg r).train :=
  congrArg (fun x => x.2.1) h

theorem dups_of_still {a b : Module} {r : Nat} (h : b.stillR r = a.stillR r) : (b.rg r).dups = (a.rg r).dups :=
  congrArg (fun x => x.2.2.2.2.2.1) h

theorem up_of_still {a b : Module} (h : b.stillM = a.stillM) : b.env.droneUp = a.env.droneUp :=
  congrArg (fun x => x.2.2.2.2.2.2.2.2.2.2.2.2) h

theorem sq_of_still {a b : Module} (h : b.stillM = a.stillM) (i : Nat) : b.sq i = a.sq i :=
  by
  have h' : b.stageqs = a.stageqs := congrArg (fun x => x.2.2.2.1) h
  simp [Module.sq, h']

/-! ### Updates -/

section
variable (m : Module) (r q : Nat)

@[simp] theorem stillR_setNum (k v : Nat) : (m.setNum k v).stillR r = m.stillR r := rfl
@[simp] theorem stillM_setNum (k v : Nat) : (m.setNum k v).stillM = m.stillM := rfl
@[simp] theorem stillR_bump (k v : Nat) : (m.bump k v).stillR r = m.stillR r := rfl
@[simp] theorem stillM_bump (k v : Nat) : (m.bump k v).stillM = m.stillM := rfl
@[simp] theorem stillR_setBlob (k : Nat) (v : List Byte) : (m.setBlob k v).stillR r = m.stillR r := rfl
@[simp] theorem stillM_setBlob (k : Nat) (v : List Byte) : (m.setBlob k v).stillM = m.stillM := rfl
@[simp] theorem stillR_status (v : Nat) : (m.status v).stillR r = m.stillR r := rfl
@[simp] theorem stillM_status (v : Nat) : (m.status v).stillM = m.stillM := rfl
@[simp] theorem stillR_emit (e : Emit) : (m.emit e).stillR r = m.stillR r := rfl
@[simp] theorem stillM_emit (e : Emit) : (m.emit e).stillM = m.stillM := rfl
@[simp] theorem stillR_useFree : m.useFree.stillR r = m.stillR r := rfl
@[simp] theorem stillM_useFree : m.useFree.stillM = m.stillM := rfl
@[simp] theorem stillR_modPort (p : Nat) (f : PortSt → PortSt) : (m.modPort p f).stillR r = m.stillR r := rfl
@[simp] theorem stillM_modPort (p : Nat) (f : PortSt → PortSt) : (m.modPort p f).stillM = m.stillM := rfl
@[simp] theorem stillR_modEdge (p : Nat) (f : EdgeSt → EdgeSt) : (m.modEdge p f).stillR r = m.stillR r := rfl
@[simp] theorem stillM_modEdge (p : Nat) (f : EdgeSt → EdgeSt) : (m.modEdge p f).stillM = m.stillM := rfl
@[simp] theorem stillR_modFab (f : Fabric → Fabric) : (m.modFab f).stillR r = m.stillR r := rfl
@[simp] theorem stillM_modFab (f : Fabric → Fabric) : (m.modFab f).stillM = m.stillM := rfl
@[simp] theorem stillR_modDrone (f : Drone → Drone) : (m.modDrone f).stillR r = m.stillR r := rfl
@[simp] theorem stillM_modDrone (f : Drone → Drone) : (m.modDrone f).stillM = m.stillM := rfl
@[simp] theorem stillR_modSec (f : Security → Security) : (m.modSec f).stillR r = m.stillR r := rfl
@[simp] theorem stillM_modSec (f : Security → Security) : (m.modSec f).stillM = m.stillM := rfl
@[simp] theorem stillR_modTest (f : Test → Test) : (m.modTest f).stillR r = m.stillR r := rfl
@[simp] theorem stillM_modTest (f : Test → Test) : (m.modTest f).stillM = m.stillM := rfl
@[simp] theorem stillR_modKey (k : Nat) (f : LineKey → LineKey) : (m.modKey k f).stillR r = m.stillR r := rfl
@[simp] theorem stillM_modKey (k : Nat) (f : LineKey → LineKey) : (m.modKey k f).stillM = m.stillM := rfl
@[simp] theorem stillM_modR (f : Region → Region) : (m.modR q f).stillM = m.stillM := rfl
@[simp] theorem stillM_modStack (f : Stack → Stack) : (m.modStack q f).stillM = m.stillM := rfl
@[simp] theorem stillM_modPower (f : Power → Power) : (m.modPower q f).stillM = m.stillM := rfl
@[simp] theorem stillM_modCl (c : Nat) (f : Cluster → Cluster) : (m.modCl q c f).stillM = m.stillM := rfl
@[simp] theorem stillR_sec (x : Security) : Module.stillR { m with security := x } r = m.stillR r := rfl
@[simp] theorem stillM_sec (x : Security) : Module.stillM { m with security := x } = m.stillM := rfl
@[simp] theorem stillR_modEnv (f : Env → Env) : (m.modEnv f).stillR r = m.stillR r := rfl

theorem stillR_modR {f : Region → Region}
    (h : ∀ g, ((f g).work, (f g).train, (f g).tier, (f g).xch, (f g).cut, (f g).dups, (f g).held, (f g).heldDesc)
      = (g.work, g.train, g.tier, g.xch, g.cut, g.dups, g.held, g.heldDesc)) : (m.modR q f).stillR r = m.stillR r := by
  by_cases hr : r = q
  · subst hr; simp only [Module.stillR, Module.rg_modR]; exact h _
  · simp only [Module.stillR, Module.rg_modR_ne m f hr]

@[simp] theorem stillR_modStack (f : Stack → Stack) : (m.modStack q f).stillR r = m.stillR r := stillR_modR m r q (fun _ => rfl)
@[simp] theorem stillR_modPower (f : Power → Power) : (m.modPower q f).stillR r = m.stillR r := stillR_modR m r q (fun _ => rfl)
@[simp] theorem stillR_modCl (c : Nat) (f : Cluster → Cluster) : (m.modCl q c f).stillR r = m.stillR r := stillR_modR m r q (fun _ => rfl)

end

/-! ### Folds -/

/-- A fold whose steps leave something alone leaves it alone. -/
theorem foldl_keeps {σ α β : Type} (p : σ → β) (f : σ → α → σ) (h : ∀ s a, p (f s a) = p s) (xs : List α) (s : σ) : p (xs.foldl f s) = p s := by
  induction xs generalizing s with
  | nil => rfl
  | cons a xs ih => simp only [List.foldl_cons]; rw [ih, h]

theorem forL_keeps {σ α β : Type} (p : σ → β) (f : α → σ → σ) (h : ∀ a s, p (f a s) = p s) (xs : List α) (s : σ) : p (forL xs s f) = p s :=
  foldl_keeps p _ (fun s a => h a s) xs s

theorem forN_keeps {σ β : Type} (p : σ → β) (f : Nat → σ → σ) (h : ∀ a s, p (f a s) = p s) (n : Nat) (s : σ) : p (forN n s f) = p s :=
  foldl_keeps p _ (fun s a => h a s) _ s

/-! ### Events -/

section
variable (m : Module) (r : Nat) (now : Nat)

theorem post_record_still (cls code src : Nat) (d : List Byte) (key : Nat) :
    (postF.record now cls code src d m key).stillR r = m.stillR r ∧ (postF.record now cls code src d m key).stillM = m.stillM := ⟨rfl, rfl⟩

@[simp] theorem stillR_postF (fatal : Bool) (cls code src : Nat) (d : List Byte) : (postF fatal now cls code src d m).stillR r = m.stillR r := by
  unfold postF; split
  · rfl
  · simp only []
    split
    · split
      · cases fatal <;> rfl
      · cases fatal <;> exact (post_record_still _ r now cls code src d _).1
    · cases fatal <;> exact (post_record_still _ r now cls code src d _).1

@[simp] theorem stillM_postF (fatal : Bool) (cls code src : Nat) (d : List Byte) : (postF fatal now cls code src d m).stillM = m.stillM := by
  unfold postF; split
  · rfl
  · simp only []
    split
    · split
      · cases fatal <;> rfl
      · cases fatal <;> exact (post_record_still _ 0 now cls code src d _).2
    · cases fatal <;> exact (post_record_still _ 0 now cls code src d _).2

@[simp] theorem stillR_post (cls code src : Nat) (d : List Byte) : (post now cls code src d m).stillR r = m.stillR r := stillR_postF _ _ _ _ _ _ _ _
@[simp] theorem stillM_post (cls code src : Nat) (d : List Byte) : (post now cls code src d m).stillM = m.stillM := stillM_postF _ _ _ _ _ _ _

@[simp] theorem stillR_wakePll (q : Nat) : (wakePll now q m).stillR r = m.stillR r := by unfold wakePll; simp only []; split <;> simp
@[simp] theorem stillM_wakePll (q : Nat) : (wakePll now q m).stillM = m.stillM := by unfold wakePll; simp only []; split <;> simp

/-! ### Sending -/

@[simp] theorem stillR_sealFrame (slot iface : Nat) (f : Frame) : (sealFrame now slot iface f m).1.stillR r = m.stillR r := by
  unfold sealFrame; simp only []; split <;> simp
@[simp] theorem stillM_sealFrame (slot iface : Nat) (f : Frame) : (sealFrame now slot iface f m).1.stillM = m.stillM := by
  unfold sealFrame; simp only []; split <;> simp

@[simp] theorem stillR_emitFrame (via : Via) (f : Frame) : (emitFrame now via f m).stillR r = m.stillR r := by unfold emitFrame; simp only []; split <;> rfl
@[simp] theorem stillM_emitFrame (via : Via) (f : Frame) : (emitFrame now via f m).stillM = m.stillM := by unfold emitFrame; simp only []; split <;> rfl

@[simp] theorem stillR_emitLink (p seq : Nat) (f : Frame) : (emitLink now p seq f m).stillR r = m.stillR r := by simp [emitLink]
@[simp] theorem stillM_emitLink (p seq : Nat) (f : Frame) : (emitLink now p seq f m).stillM = m.stillM := by simp [emitLink]

@[simp] theorem stillR_transmitPort (p seq : Nat) (f : Frame) : (transmitPort now p seq f m).stillR r = m.stillR r := by
  unfold transmitPort; split
  · rfl
  · split <;> simp
@[simp] theorem stillM_transmitPort (p seq : Nat) (f : Frame) : (transmitPort now p seq f m).stillM = m.stillM := by
  unfold transmitPort; split
  · rfl
  · split <;> simp

@[simp] theorem stillR_transmitEdge (p : Nat) (f : Frame) : (transmitEdge now p f m).stillR r = m.stillR r := by
  unfold transmitEdge; split
  · rfl
  · split <;> simp
@[simp] theorem stillM_transmitEdge (p : Nat) (f : Frame) : (transmitEdge now p f m).stillM = m.stillM := by
  unfold transmitEdge; split
  · rfl
  · split <;> simp

@[simp] theorem stillR_markSent (f : Frame) : (markSent now f m).stillR r = m.stillR r := by unfold markSent; simp only []; split <;> simp
@[simp] theorem stillM_markSent (f : Frame) : (markSent now f m).stillM = m.stillM := by unfold markSent; simp only []; split <;> simp

@[simp] theorem stillR_putOnLink (p : Nat) (f : Frame) : (putOnLink now p f m).stillR r = m.stillR r := by simp [putOnLink]
@[simp] theorem stillM_putOnLink (p : Nat) (f : Frame) : (putOnLink now p f m).stillM = m.stillM := by simp [putOnLink]

@[simp] theorem stillR_sendPort (p : Nat) (f : Frame) : (sendPort now p f m).stillR r = m.stillR r := by
  unfold sendPort; simp only []; split <;> simp
@[simp] theorem stillM_sendPort (p : Nat) (f : Frame) : (sendPort now p f m).stillM = m.stillM := by
  unfold sendPort; simp only []; split <;> simp

@[simp] theorem stillR_sendVia (via : Via) (f : Frame) : (sendVia now via f m).stillR r = m.stillR r := by cases via <;> simp [sendVia]
@[simp] theorem stillM_sendVia (via : Via) (f : Frame) : (sendVia now via f m).stillM = m.stillM := by cases via <;> simp [sendVia]

@[simp] theorem stillR_send (f : Frame) : (send now f m).1.stillR r = m.stillR r := by
  unfold send; split
  · simp
  · split
    · split <;> simp
    · simp
  · simp
@[simp] theorem stillM_send (f : Frame) : (send now f m).1.stillM = m.stillM := by
  unfold send; split
  · simp
  · split
    · split <;> simp
    · simp
  · simp

@[simp] theorem stillR_sendOnly (f : Frame) : (sendOnly now f m).stillR r = m.stillR r := stillR_send _ _ _ _
@[simp] theorem stillM_sendOnly (f : Frame) : (sendOnly now f m).stillM = m.stillM := stillM_send _ _ _

@[simp] theorem stillR_respond (f : Frame) (st aux : Nat) (b : List Byte) : (respond now f st aux b m).stillR r = m.stillR r := stillR_sendOnly _ _ _ _
@[simp] theorem stillM_respond (f : Frame) (st aux : Nat) (b : List Byte) : (respond now f st aux b m).stillM = m.stillM := stillM_sendOnly _ _ _

@[simp] theorem stillR_sendTagged (t h : Nat) (o : Owner) (c : Nat) (f : Frame) : (sendTagged now t h o c f m).1.stillR r = m.stillR r := by
  unfold sendTagged; simp only []; split <;> simp
@[simp] theorem stillM_sendTagged (t h : Nat) (o : Owner) (c : Nat) (f : Frame) : (sendTagged now t h o c f m).1.stillM = m.stillM := by
  unfold sendTagged; simp only []; split <;> simp

@[simp] theorem stillR_issue (h : Nat) (o : Owner) (c : Nat) (f : Frame) : (issue now h o c f m).1.stillR r = m.stillR r := by
  unfold issue; split <;> simp
@[simp] theorem stillM_issue (h : Nat) (o : Owner) (c : Nat) (f : Frame) : (issue now h o c f m).1.stillM = m.stillM := by
  unfold issue; split <;> simp

@[simp] theorem stillR_issueOnly (h : Nat) (o : Owner) (c : Nat) (f : Frame) : (issueOnly now h o c f m).stillR r = m.stillR r := stillR_issue _ _ _ _ _ _ _
@[simp] theorem stillM_issueOnly (h : Nat) (o : Owner) (c : Nat) (f : Frame) : (issueOnly now h o c f m).stillM = m.stillM := stillM_issue _ _ _ _ _ _

@[simp] theorem stillR_dictWriteTo (n k s v : Nat) : (dictWriteTo now n k s v m).stillR r = m.stillR r := by simp [dictWriteTo]
@[simp] theorem stillM_dictWriteTo (n k s v : Nat) : (dictWriteTo now n k s v m).stillM = m.stillM := by simp [dictWriteTo]

@[simp] theorem stillR_setCutAt (v : Nat) : (setCutAt v m).1.stillR r = m.stillR r := by
  unfold setCutAt; repeat' (split <;> try rfl)
@[simp] theorem stillM_setCutAt (v : Nat) : (setCutAt v m).1.stillM = m.stillM := by
  unfold setCutAt; repeat' (split <;> try rfl)

@[simp] theorem stillR_advise (b : Nat) : (advise now b m).stillR r = m.stillR r := by
  unfold advise; split
  · exact (forL_keeps (fun m : Module => m.stillR r) _ (fun _ _ => by simp) _ _).trans (by simp)
  · rfl
@[simp] theorem stillM_advise (b : Nat) : (advise now b m).stillM = m.stillM := by
  unfold advise; split
  · exact (forL_keeps (fun m : Module => m.stillM) _ (fun _ _ => by simp) _ _).trans (by simp)
  · rfl

/-! ### Bonded memory -/

theorem memAdvisory_go_still (q reason : Nat) :
    (memAdvisory.go now q reason m).stillR r = m.stillR r ∧ (memAdvisory.go now q reason m).stillM = m.stillM := by
  constructor <;> simp [memAdvisory.go]

@[simp] theorem stillR_memAdvisory (q reason : Nat) : (memAdvisory now q reason m).stillR r = m.stillR r := by
  unfold memAdvisory; split
  · split
    · rfl
    · exact (memAdvisory_go_still _ _ _ _ _).1
  · exact (memAdvisory_go_still _ _ _ _ _).1
@[simp] theorem stillM_memAdvisory (q reason : Nat) : (memAdvisory now q reason m).stillM = m.stillM := by
  unfold memAdvisory; split
  · split
    · rfl
    · exact (memAdvisory_go_still _ 0 _ _ _).2
  · exact (memAdvisory_go_still _ 0 _ _ _).2

@[simp] theorem stillR_noteCe (q : Nat) : (noteCe now q m).stillR r = m.stillR r := by unfold noteCe; simp only []; split <;> simp
@[simp] theorem stillM_noteCe (q : Nat) : (noteCe now q m).stillM = m.stillM := by unfold noteCe; simp only []; split <;> simp

@[simp] theorem stillR_noteUe (q req : Nat) (x : Nat × Nat) : (noteUe now q req x m).stillR r = m.stillR r := by simp [noteUe]
@[simp] theorem stillM_noteUe (q req : Nat) (x : Nat × Nat) : (noteUe now q req x m).stillM = m.stillM := by simp [noteUe]

@[simp] theorem stillR_noteMet (q req : Nat) (x : Met) : (noteMet now q req x m).stillR r = m.stillR r := by
  unfold noteMet
  exact (forL_keeps (fun m : Module => m.stillR r) _ (fun _ _ => by simp) _ _).trans (forL_keeps (fun m : Module => m.stillR r) _ (fun _ _ => by simp) _ _)
@[simp] theorem stillM_noteMet (q req : Nat) (x : Met) : (noteMet now q req x m).stillM = m.stillM := by
  unfold noteMet
  exact (forL_keeps (fun m : Module => m.stillM) _ (fun _ _ => by simp) _ _).trans (forL_keeps (fun m : Module => m.stillM) _ (fun _ _ => by simp) _ _)

@[simp] theorem stillR_noteMalformed (q req slot : Nat) : (noteMalformed now q req slot m).stillR r = m.stillR r := by simp [noteMalformed]
@[simp] theorem stillM_noteMalformed (q req slot : Nat) : (noteMalformed now q req slot m).stillM = m.stillM := by simp [noteMalformed]

@[simp] theorem stillR_memRequest (q : Nat) : (memRequest now q m).stillR r = m.stillR r := by unfold memRequest; simp only []; split <;> simp
@[simp] theorem stillM_memRequest (q : Nat) : (memRequest now q m).stillM = m.stillM := by unfold memRequest; simp only []; split <;> simp

@[simp] theorem stillR_touchLine (q slot : Nat) : (touchLine q slot m).stillR r = m.stillR r := by unfold touchLine; simp only []; split <;> simp
@[simp] theorem stillM_touchLine (q slot : Nat) : (touchLine q slot m).stillM = m.stillM := by unfold touchLine; simp only []; split <;> simp

@[simp] theorem stillR_readSlot (q req slot lo n : Nat) : (readSlot now q req slot lo n m).1.stillR r = m.stillR r := by
  unfold readSlot; simp only []
  split
  · simp
  · split <;> simp
@[simp] theorem stillM_readSlot (q req slot lo n : Nat) : (readSlot now q req slot lo n m).1.stillM = m.stillM := by
  unfold readSlot; simp only []
  split
  · simp
  · split <;> simp

/-- A fold over a module and more, whose steps leave something alone. -/
theorem foldlPair_keeps {α β γ : Type} (p : Module → β) (f : Module × γ → α → Module × γ) (h : ∀ a x, p (f a x).1 = p a.1) (xs : List α)
    (a : Module × γ) : p (xs.foldl f a).1 = p a.1 := foldl_keeps (fun a : Module × γ => p a.1) f h xs a

@[simp] theorem stillR_memRead (q req off len : Nat) : (memRead now q req off len m).1.stillR r = m.stillR r := by
  unfold memRead; split
  · rfl
  · refine (foldlPair_keeps (fun m : Module => m.stillR r) _ ?_ _ _).trans (by simp)
    intro a x
    split
    · rfl
    · have := stillR_readSlot a.1 r now q req x.1 x.2.1 x.2.2
      split <;> simp_all
@[simp] theorem stillM_memRead (q req off len : Nat) : (memRead now q req off len m).1.stillM = m.stillM := by
  unfold memRead; split
  · rfl
  · refine (foldlPair_keeps (fun m : Module => m.stillM) _ ?_ _ _).trans (by simp)
    intro a x
    split
    · rfl
    · have := stillM_readSlot a.1 now q req x.1 x.2.1 x.2.2
      split <;> simp_all

@[simp] theorem stillR_noteAlloc (q off len : Nat) : (noteAlloc q off len m).stillR r = m.stillR r := by
  unfold noteAlloc; simp only []
  split
  · split
    · split <;> simp
    · simp
  · rfl
@[simp] theorem stillM_noteAlloc (q off len : Nat) : (noteAlloc q off len m).stillM = m.stillM := by
  unfold noteAlloc; simp only []
  split
  · split
    · split <;> simp
    · simp
  · rfl

@[simp] theorem stillR_metaOk (q req slot : Nat) : (metaOk now q req slot m).1.stillR r = m.stillR r := by
  simp [metaOk]
@[simp] theorem stillM_metaOk (q req slot : Nat) : (metaOk now q req slot m).1.stillM = m.stillM := by
  simp [metaOk]

@[simp] theorem stillR_writeStored (q req slot code : Nat) (b : List Byte) : (writeStored now q req slot code b m).1.stillR r = m.stillR r := by
  unfold writeStored; simp only []; split
  · simp
  · split <;> simp
@[simp] theorem stillM_writeStored (q req slot code : Nat) (b : List Byte) : (writeStored now q req slot code b m).1.stillM = m.stillM := by
  unfold writeStored; simp only []; split
  · simp
  · split <;> simp

@[simp] theorem stillR_writePart (q req slot lo : Nat) (b : List Byte) : (writePart now q req slot lo b m).1.stillR r = m.stillR r := by
  unfold writePart; simp only []; split
  · simp
  · split
    · split <;> simp
    · have := stillR_readSlot m r now q req slot 0 256
      split <;> simp_all
@[simp] theorem stillM_writePart (q req slot lo : Nat) (b : List Byte) : (writePart now q req slot lo b m).1.stillM = m.stillM := by
  unfold writePart; simp only []; split
  · simp
  · split
    · split <;> simp
    · have := stillM_readSlot m now q req slot 0 256
      split <;> simp_all

@[simp] theorem stillR_memWrite (q req off : Nat) (b : List Byte) : (memWrite now q req off b m).1.stillR r = m.stillR r := by
  unfold memWrite; split
  · rfl
  · exact (foldlPair_keeps (fun m : Module => m.stillR r) _ (fun _ _ => by simp) _ _).trans (by simp)
@[simp] theorem stillM_memWrite (q req off : Nat) (b : List Byte) : (memWrite now q req off b m).1.stillM = m.stillM := by
  unfold memWrite; split
  · rfl
  · exact (foldlPair_keeps (fun m : Module => m.stillM) _ (fun _ _ => by simp) _ _).trans (by simp)

/-! ### Writes to a global address, credits -/

@[simp] theorem stillR_issueAll (h c : Nat) (fs : List Frame) : (issueAll now h c fs m).1.stillR r = m.stillR r :=
  foldlPair_keeps (fun m : Module => m.stillR r) _ (fun _ _ => by simp) _ _
@[simp] theorem stillM_issueAll (h c : Nat) (fs : List Frame) : (issueAll now h c fs m).1.stillM = m.stillM :=
  foldlPair_keeps (fun m : Module => m.stillM) _ (fun _ _ => by simp) _ _

@[simp] theorem stillR_writeGlobal (q req a : Nat) (b : List Byte) : (writeGlobal now q req a b m).1.stillR r = m.stillR r := by
  unfold writeGlobal; split <;> simp
@[simp] theorem stillM_writeGlobal (q req a : Nat) (b : List Byte) : (writeGlobal now q req a b m).1.stillM = m.stillM := by
  unfold writeGlobal; split <;> simp

@[simp] theorem stillR_sendCredit (i n : Nat) : (sendCredit now i n m).stillR r = m.stillR r := by simp [sendCredit]
@[simp] theorem stillM_sendCredit (i n : Nat) : (sendCredit now i n m).stillM = m.stillM := by simp [sendCredit]

@[simp] theorem stillR_freeEntries (i n : Nat) : (freeEntries now i n m).stillR r = m.stillR r := by
  unfold freeEntries; simp only []; repeat' split
  all_goals simp; try rfl

/-- An increment of a counter changes that counter alone in the region's work, and no other region's (R82). -/
theorem incCounter_work (q k n : Nat) : (incCounter now q k n m).work r = (m.modWork q (fun w => w.addCounter k n)).work r := by
  unfold incCounter; simp only []; split
  · rfl
  · refine work_of_still (forN_keeps (fun m : Module => m.stillR r) _ ?_ _ _)
    intro i s; split <;> simp

end

end Sys2Proof.Machine
end

