-- ==== Sys2Proof/Laws/Memory.lean ====
section
/-! SUPPORT. Bonded memory keeps its canonical form: every operation on it gives, of a memory in that form, one in that form
(addresses strictly rising, no entry equal to what an unlisted address reads as), and the memory at reset has it. -/

namespace Sys2Proof.Machine

open Sys2Proof

/-! ### One stack -/

theorem putFold_wf (a : Nat) (bs : List Byte) (xs : List Nat) (d : List Host.Cell) (h : Memory.wf d = true) :
    Memory.wf (xs.foldl (fun d i => Tab.set 0 d (a + i) (bs.getD i 0)) d) = true := by
  induction xs generalizing d with
  | nil => exact h
  | cons x xs ih => exact ih _ (Tab.canon_set 0 _ _ h)

/-- Writing stored bytes keeps the form. -/
theorem Stack.putBytes_wf (k : Stack) (a : Nat) (bs : List Byte) (h : Memory.wf k.data = true) : Memory.wf (k.putBytes a bs).data = true :=
  putFold_wf a bs _ _ h

/-- Replacing a slot keeps the form. -/
theorem Stack.putSlot_wf (k : Stack) (slot code : Nat) (st : List Byte) (h : Memory.wf k.data = true) :
    Memory.wf (k.putSlot slot code st).data = true := Stack.putBytes_wf k _ _ h

/-- Writing sectors back as a read delivered them keeps the form. -/
theorem putFold_sectors_wf (k : Stack) (r : Nat) (xs : List Nat) (y : Stack) (h : Memory.wf y.data = true) :
    Memory.wf (xs.foldl (fun (y : Stack) x => y.putBytes (32 * x) (k.deliver r (32 * x) 32)) y).data = true := by
  induction xs generalizing y with
  | nil => exact h
  | cons x xs ih => exact ih _ (Stack.putBytes_wf _ _ _ h)

/-- Rewriting a metadata sector leaves the data alone. -/
theorem Stack.settle_wf (k : Stack) (r slot : Nat) (h : Memory.wf k.data = true) : Memory.wf (k.settle r slot).data = true := by
  unfold Stack.settle Stack.seen; split
  · exact h
  · split <;> exact h

/-- The memory test of a granule keeps the form. -/
theorem wipeGranule_wf (g : Nat) (k : Stack) (h : Memory.wf k.data = true) : Memory.wf (wipeGranule g k).data = true := Tab.canon_filter 0 _ h

theorem Stack.touchMeta_data (k : Stack) (slot : Nat) : (k.touchMeta slot).1.data = k.data := by
  unfold Stack.touchMeta; simp only []; split
  · rfl
  · split <;> rfl

/-! ### The module -/

section
variable {m : Module} (now : Nat)

theorem memoryOk_modR (r : Nat) {f : Region → Region} (hf : Memory.wf (f (m.rg r)).stack.data = true) (h : MemoryOk m) : MemoryOk (m.modR r f) := by
  intro q
  by_cases e : q = r
  · subst e; simpa [Module.modR, Module.setR, Module.rg] using hf
  · have : (m.modR r f).rg q = m.rg q := by simp [Module.modR, Module.setR, Module.rg, Tab.get_put_ne _ _ _ e]
    rw [this]; exact h q

/-- A change of a stack that keeps the form of its memory. -/
theorem memoryOk_modStack (r : Nat) {f : Stack → Stack} (hf : Memory.wf (f (m.rg r).stack).data = true) (h : MemoryOk m) : MemoryOk (m.modStack r f) :=
  memoryOk_modR r hf h

theorem memoryOk_modPower (r : Nat) (f : Power → Power) (h : MemoryOk m) : MemoryOk (m.modPower r f) := memoryOk_modR r (h r) h

theorem forL_memoryOk {α : Type} (f : α → Module → Module) (hf : ∀ a m, MemoryOk m → MemoryOk (f a m)) (xs : List α) (h : MemoryOk m) :
    MemoryOk (forL xs m f) := by
  unfold forL
  induction xs generalizing m with
  | nil => exact h
  | cons a xs ih => exact ih (hf a m h)

theorem forN_memoryOk (f : Nat → Module → Module) (hf : ∀ a m, MemoryOk m → MemoryOk (f a m)) (n : Nat) (h : MemoryOk m) : MemoryOk (forN n m f) :=
  forL_memoryOk f hf _ h

theorem memoryOk_of_regions {a b : Module} (e : b.regions = a.regions) (h : MemoryOk a) : MemoryOk b := by
  intro r; have : b.rg r = a.rg r := by simp [Module.rg, e]
  rw [this]; exact h r

end

/-! ### Posting and sending leave every region alone -/

section
variable (m : Module) (now : Nat)

@[simp] theorem regions_postF (fatal : Bool) (cls code src : Nat) (d : List Byte) : (postF fatal now cls code src d m).regions = m.regions := by
  unfold postF; split
  · rfl
  · simp only []
    split
    · split
      · cases fatal <;> rfl
      · cases fatal <;> rfl
    · cases fatal <;> rfl

@[simp] theorem regions_post (cls code src : Nat) (d : List Byte) : (post now cls code src d m).regions = m.regions := regions_postF _ _ _ _ _ _ _

@[simp] theorem regions_modKey (k : Nat) (f : LineKey → LineKey) : (m.modKey k f).regions = m.regions := rfl

@[simp] theorem regions_sealFrame (slot iface : Nat) (f : Frame) : (sealFrame now slot iface f m).1.regions = m.regions := by
  unfold sealFrame; simp only []; split <;> simp

@[simp] theorem regions_emitFrame (via : Via) (f : Frame) : (emitFrame now via f m).regions = m.regions := by unfold emitFrame; simp only []; split <;> rfl

@[simp] theorem regions_transmitPort (p seq : Nat) (f : Frame) : (transmitPort now p seq f m).regions = m.regions := by
  unfold transmitPort emitLink; split
  · rfl
  · split <;> simp

@[simp] theorem regions_markSent (f : Frame) : (markSent now f m).regions = m.regions := by unfold markSent; simp only []; split <;> simp

@[simp] theorem regions_transmitEdge (e : Nat) (f : Frame) : (transmitEdge now e f m).regions = m.regions := by
  unfold transmitEdge; split
  · rfl
  · split <;> simp

@[simp] theorem regions_sendPort (p : Nat) (f : Frame) : (sendPort now p f m).regions = m.regions := by
  unfold sendPort putOnLink; simp only []; split <;> simp

@[simp] theorem regions_sendVia (via : Via) (f : Frame) : (sendVia now via f m).regions = m.regions := by cases via <;> simp [sendVia]

@[simp] theorem regions_send (f : Frame) : (send now f m).1.regions = m.regions := by
  unfold send; split
  · simp
  · split
    · split <;> simp
    · simp
  · simp

@[simp] theorem regions_sendTagged (t h : Nat) (o : Owner) (c : Nat) (f : Frame) : (sendTagged now t h o c f m).1.regions = m.regions := by
  unfold sendTagged; simp only []; split <;> simp

@[simp] theorem regions_issue (h : Nat) (o : Owner) (c : Nat) (f : Frame) : (issue now h o c f m).1.regions = m.regions := by
  unfold issue; split <;> simp

@[simp] theorem regions_issueOnly (h : Nat) (o : Owner) (c : Nat) (f : Frame) : (issueOnly now h o c f m).regions = m.regions := regions_issue _ _ _ _ _ _

@[simp] theorem regions_dictWriteTo (n k s v : Nat) : (dictWriteTo now n k s v m).regions = m.regions := by simp [dictWriteTo]

@[simp] theorem regions_setCutAt (v : Nat) : (setCutAt v m).1.regions = m.regions := by unfold setCutAt; repeat' (split <;> try rfl)

theorem forL_regions {α : Type} (f : α → Module → Module) (hf : ∀ a m, (f a m).regions = m.regions) (xs : List α) : (forL xs m f).regions = m.regions := by
  unfold forL
  induction xs generalizing m with
  | nil => rfl
  | cons a xs ih => rw [List.foldl_cons, ih, hf]

@[simp] theorem regions_advise (b : Nat) : (advise now b m).regions = m.regions := by
  unfold advise; split
  · exact (forL_regions _ _ (fun _ _ => by simp) _).trans (by simp)
  · rfl

end

/-! ### Operations on bonded memory -/

section
variable {m : Module} (now : Nat)

theorem memoryOk_post (cls code src : Nat) (d : List Byte) (h : MemoryOk m) : MemoryOk (post now cls code src d m) := memoryOk_of_regions (by simp) h

theorem memoryOk_advise (b : Nat) (h : MemoryOk m) : MemoryOk (advise now b m) := memoryOk_of_regions (by simp) h

theorem memoryOk_memAdvisory (r reason : Nat) (h : MemoryOk m) : MemoryOk (memAdvisory now r reason m) := by
  have go : MemoryOk (memAdvisory.go now r reason m) := by
    unfold memAdvisory.go
    refine memoryOk_advise _ _ (memoryOk_post _ _ _ _ _ (memoryOk_modStack r ?_ h))
    exact h r
  unfold memAdvisory; split
  · split
    · exact h
    · exact go
  · exact go

theorem memoryOk_noteCe (r : Nat) (h : MemoryOk m) : MemoryOk (noteCe now r m) := by
  have h1 : MemoryOk (m.bump kCE_COUNT 1) := h
  unfold noteCe; simp only []; split
  · exact memoryOk_memAdvisory _ _ _ (memoryOk_modStack r (h1 r) h1)
  · exact memoryOk_modStack r (h1 r) h1

theorem memoryOk_noteUe (r req : Nat) (x : Nat × Nat) (h : MemoryOk m) : MemoryOk (noteUe now r req x m) := by
  have h1 : MemoryOk (m.bump kUE_COUNT 1) := h
  refine memoryOk_memAdvisory _ _ _ (memoryOk_post _ _ _ _ _ (memoryOk_modStack r ?_ h1))
  exact h1 r

theorem memoryOk_noteMet (r req : Nat) (x : Met) (h : MemoryOk m) : MemoryOk (noteMet now r req x m) :=
  forL_memoryOk _ (fun u _ hm => memoryOk_noteUe now r req u hm) _ (forL_memoryOk _ (fun _ _ hm => memoryOk_noteCe now r hm) _ h)

theorem memoryOk_memRequest (r : Nat) (h : MemoryOk m) : MemoryOk (memRequest now r m) := by
  unfold memRequest; simp only []; split
  · exact memoryOk_modStack r (h r) h
  · exact memoryOk_modStack r (h r) h

/-- Touching the metadata line of a slot. -/
theorem memoryOk_touchLine (r slot : Nat) (h : MemoryOk m) : MemoryOk (touchLine r slot m) := by
  unfold touchLine; simp only []; split
  · exact memoryOk_modStack (m := m.bump kMETA_MISS 1) r (by rw [Stack.touchMeta_data]; exact h r) h
  · exact memoryOk_modStack r (by rw [Stack.touchMeta_data]; exact h r) h

theorem memoryOk_noteMalformed (r req slot : Nat) (h : MemoryOk m) : MemoryOk (noteMalformed now r req slot m) := memoryOk_post _ _ _ _ _ h

/-- Reading a slot keeps the form. -/
theorem memoryOk_readSlot (r req slot lo n : Nat) (h : MemoryOk m) : MemoryOk (readSlot now r req slot lo n m).1 := by
  have h1 := fun x => memoryOk_noteMet now r req x (memoryOk_touchLine r slot h)
  unfold readSlot; simp only []
  split
  · exact h1 _
  · split
    · exact memoryOk_noteMalformed _ _ _ _ (h1 _)
    · exact h1 _

/-- A fold over a module and more whose steps keep the form. -/
theorem foldlPair_memoryOk {α γ : Type} (f : Module × γ → α → Module × γ) (hf : ∀ a x, MemoryOk a.1 → MemoryOk (f a x).1) (xs : List α)
    (a : Module × γ) (h : MemoryOk a.1) : MemoryOk (xs.foldl f a).1 := by
  induction xs generalizing a with
  | nil => exact h
  | cons x xs ih => exact ih _ (hf a x h)

/-- Reading a range keeps the form. -/
theorem memoryOk_memRead (r req off len : Nat) (h : MemoryOk m) : MemoryOk (memRead now r req off len m).1 := by
  unfold memRead; split
  · exact h
  · refine foldlPair_memoryOk _ ?_ _ _ (memoryOk_memRequest now r h)
    intro a x ha
    split
    · exact ha
    · have := memoryOk_readSlot now r req x.1 x.2.1 x.2.2 ha
      split <;> simp_all

/-- Reading a slot in stored form keeps the form. -/
theorem memoryOk_readStored (r req slot : Nat) (h : MemoryOk m) : MemoryOk (readStored now r req slot m).1 := by
  unfold readStored; simp only []
  generalize (Stack.meetSlot _ _ _ _) = met
  have h1 := memoryOk_noteMet now r req met (memoryOk_touchLine r slot h)
  split
  · exact h1
  · split
    · exact memoryOk_noteMalformed _ _ _ _ h1
    · exact h1

theorem memoryOk_noteAlloc (r off len : Nat) (h : MemoryOk m) : MemoryOk (noteAlloc r off len m) := by
  unfold noteAlloc; simp only []
  split
  · split
    · split <;> exact h
    · exact h
  · exact h

theorem memoryOk_metaOk (r req slot : Nat) (h : MemoryOk m) : MemoryOk (metaOk now r req slot m).1 :=
  memoryOk_noteMet _ _ _ _ (memoryOk_touchLine r slot h)

/-- Writing a slot in stored form keeps the form. -/
theorem memoryOk_writeStored (r req slot code : Nat) (b : List Byte) (h : MemoryOk m) : MemoryOk (writeStored now r req slot code b m).1 := by
  have h1 := memoryOk_metaOk now r req slot h
  unfold writeStored; simp only []; split
  · exact h1
  · split
    · exact memoryOk_modStack r (Stack.putSlot_wf _ _ _ _ (Stack.settle_wf _ _ _ (h1 r))) h1
    · exact memoryOk_modStack (m := ((metaOk now r req slot m).1.bump kCOMP_SLOTS 1).bump kCOMP_SAVED (8 - sectorsOf code)) r
        (Stack.putSlot_wf _ _ _ _ (Stack.settle_wf _ _ _ (h1 r))) h1

/-- Setting codes to "all zeros" keeps the form. -/
theorem memoryOk_clearCodes (r req slot n : Nat) (h : MemoryOk m) : MemoryOk (clearCodes now r req slot n m) := by
  refine forN_memoryOk _ (fun i m hm => ?_) n (memoryOk_noteAlloc _ _ _ h)
  have h1 := memoryOk_metaOk now r req (slot + i) hm
  simp only []; split
  · exact memoryOk_modStack r (Stack.putSlot_wf _ _ _ _ (Stack.settle_wf _ _ _ (h1 r))) h1
  · exact h1

/-- Writing part of a slot keeps the form. -/
theorem memoryOk_writePart (r req slot lo : Nat) (b : List Byte) (h : MemoryOk m) : MemoryOk (writePart now r req slot lo b m).1 := by
  unfold writePart; simp only []; split
  · exact memoryOk_writeStored _ _ _ _ _ _ h
  · split
    · have h2 := fun x => memoryOk_noteMet now r req x (memoryOk_metaOk now r req slot h)
      split
      · exact h2 _
      · exact memoryOk_modStack r (Stack.putBytes_wf _ _ _ (putFold_sectors_wf _ _ _ _ (h2 _ r))) (h2 _)
    · have h3 := memoryOk_readSlot now r req slot 0 256 h
      split
      · rename_i e; rw [e] at h3; exact h3
      · rename_i m' old e; rw [e] at h3
        exact memoryOk_modStack (m := m'.bump kCOMP_RMW 1) r (Stack.putSlot_wf _ _ _ _ (Stack.settle_wf _ _ _ (h3 r))) h3

/-- Writing a range keeps the form. -/
theorem memoryOk_memWrite (r req off : Nat) (b : List Byte) (h : MemoryOk m) : MemoryOk (memWrite now r req off b m).1 := by
  unfold memWrite; split
  · exact h
  · refine foldlPair_memoryOk _ (fun a x ha => ?_) _ (_, 0) (memoryOk_noteAlloc _ _ _ (memoryOk_memRequest now r h))
    exact memoryOk_writePart now r req _ _ _ ha

/-- Writing whole slots, each compressed, keeps the form. -/
theorem memoryOk_memWriteComp (r req off : Nat) (b : List Byte) (h : MemoryOk m) : MemoryOk (memWriteComp now r req off b m).1 := by
  unfold memWriteComp; split
  · exact h
  · refine foldlPair_memoryOk _ (fun a x ha => ?_) _ (_, 0) (memoryOk_noteAlloc _ _ _ (memoryOk_memRequest now r h))
    exact memoryOk_writeStored now r req _ _ _ ha

/-- A granule read as zeros after its test: the form stays. -/
theorem memoryOk_wipeGranule (r g : Nat) (h : MemoryOk m) : MemoryOk (m.modStack r (wipeGranule g)) := memoryOk_modStack r (wipeGranule_wf g _ (h r)) h

end

/-- The memory at reset is in the form: nothing is listed. -/
theorem memoryOk_reset : MemoryOk State.reset.mod := fun _ => rfl

/-- An object whose first slot cannot be written is not placed whole (R105, R149). -/
theorem placeObject_first_fails {now r req off n : Nat} {obj : List Byte} {m : Module} (h : 0 < n)
    (hm : (metaOk now r req (off / 256) (noteAlloc r off (256 * n) m)).2 = false) : (placeObject now r req off n obj m).2 = false := by
  have stays : ∀ (l : List Nat) (f : Module × List Byte × Bool → Nat → Module × List Byte × Bool) (a : Module × List Byte × Bool),
      (∀ b i, b.2.2 = false → (f b i).2.2 = false) → a.2.2 = false → (l.foldl f a).2.2 = false := by
    intro l f
    induction l with
    | nil => intro a _ ha; exact ha
    | cons i l ih => intro a hf ha; exact ih _ hf (hf _ _ ha)
  obtain ⟨k, rfl⟩ : ∃ k, n = k + 1 := ⟨n - 1, by omega⟩
  simp only [placeObject, List.range_succ_eq_map, List.foldl_cons]
  exact stays _ _ _ (fun b i hb => by simp [hb]) (by simp [writeStored, hm])

end Sys2Proof.Machine
end

