-- ==== Sys2Proof/Tests/Slice0.lean ====
section
/-! SUPPORT. Tests: what `WellFormed` refuses, what single commands do to small states (expected from the rules named), and for
every obligation with hypotheses a state and operands that meet them, clause by clause. -/

namespace Sys2Proof.Tests

open Sys2Proof.Machine Sys2Proof.Claims

-- one theorem after the other: the whole package compiles in one process
set_option Elab.async false

/-! ### Small states -/

/-- A module whose Drone runs, at 5 ms. -/
def up (m : Module) : State := { time := 5000000, mod := { m with env := { m.env with droneUp := true } } }

/-- The same, in RUN, with HOST_GATE at its default. -/
def running (m : Module) : State := up { m with nums := (kMODULE_STATE, 2) :: (kHOST_GATE, 64) :: m.nums }

/-- Region 3 alone. -/
def region3 (g : Region) : Tab Region := [(3, g)]

/-- The empty frame of an operation to region 3 of node 0. -/
def frame (op : Nat) : Frame :=
  { ver := 1, rsp := false, op := op, vc := 0, retry := false, stored := false, enc := false, epoch := 0, auth := false, gen := 0, srcRegion := 0,
    srcNode := 0, tag := 7, addr := 3 * 2 ^ 37, status := 0, len := 0, hops := 0, fmt := 0, cop := 0, aux := 0, group := 0, cseq := 0, seg := 0, segs := 0,
    sec := 0, body := [], mac := [] }

/-- A descriptor with the first six words given. -/
def desc (w0 w1 w2 w3 w4 w5 : W64) : Desc := { w0 := w0, w1 := w1, w2 := w2, w3 := w3, w4 := w4, w5 := w5, w6 := 0, w7 := 0 }

/-- A region with one descriptor in flight, numbered 0. -/
def flying (x : Flight) (g : Region) : Region := { g with work := { g.work with flights := [x], nextId := 1 } }

def noChMsg : ChMsg :=
  { type := 1, codec := 0, flags := 0, srcSite := 0, dstRegion := 0, stream := 0, seq := 0, round := 0, origin := 0, w2 := 0, gstride := 0, count := 0,
    k := 0, outer := 0, len := 0, body := [] }

def noDict : DictMsg := { ver := 1, kind := 1, op := 1, flags := 0, seq := 0, index := 0, sub := 0, status := 0, len := 0, offset := 0, time := 0, data := [] }

def noKex : KexMsg := { kind := 1, node := 0, count := 0, nonce := [], kem := [], signature := [] }

def someObs : StartObs := { inputMv := 48000, trainFail := [], testFail := [], portFail := [], portFound := [], fuseMs := 0 }

def noReply : PoolReply := { pstatus := 0, len := 0, size := 0, data := [] }

/-! ### What is not well formed -/

def noEdge : EdgePkt := { extHeaders := false, udpOk := true, dstPort := 0, frame := frame 5 }

def noField : FieldPkt := { srcAddr := zeros 16, srcPort := 0, dstPort := 47210, extHeaders := false, udpOk := true, payload := [] }

def badFrame (op : Nat) : Frame := { frame op with vc := 4 }

def badObs : StartObs := { someObs with trainFail := [16] }

/-- Frames with one field too wide, a wrong length, a tag without protection and protection without a tag. -/
def wideFrames : List Frame :=
  [{ frame 5 with ver := 2 ^ 4 }, { frame 5 with op := 2 ^ 5 }, { frame 5 with vc := 2 ^ 2 }, { frame 5 with epoch := 2 }, { frame 5 with gen := 2 ^ 8 },
   { frame 5 with srcRegion := 2 ^ 4 }, { frame 5 with srcNode := 2 ^ 15 }, { frame 5 with tag := 2 ^ 18 }, { frame 5 with addr := 2 ^ 56 }, { frame 5 with status := 2 ^ 8 },
   { frame 5 with hops := 2 ^ 8 }, { frame 5 with fmt := 2 ^ 4 }, { frame 5 with cop := 2 ^ 4 }, { frame 5 with aux := 2 ^ 32 }, { frame 5 with group := 2 ^ 16 },
   { frame 5 with cseq := 2 ^ 24 }, { frame 5 with seg := 2 ^ 12 }, { frame 5 with segs := 2 ^ 12 }, { frame 5 with sec := 2 ^ 64 }, { frame 5 with len := 1 },
   { frame 5 with mac := zeros 16 }, { frame 5 with enc := true }]

def wideMessages : List ChMsg :=
  [{ noChMsg with type := 2 ^ 4 }, { noChMsg with codec := 2 ^ 4 }, { noChMsg with flags := 2 ^ 8 }, { noChMsg with srcSite := 2 ^ 6 }, { noChMsg with dstRegion := 2 ^ 4 },
   { noChMsg with stream := 2 ^ 12 }, { noChMsg with seq := 2 ^ 24 }, { noChMsg with round := 2 ^ 32 }, { noChMsg with origin := 2 ^ 32 }, { noChMsg with w2 := 2 ^ 64 },
   { noChMsg with gstride := 2 ^ 32 }, { noChMsg with count := 2 ^ 16 }, { noChMsg with k := 2 ^ 8 }, { noChMsg with outer := 2 ^ 32 }, { noChMsg with len := 2 ^ 32 },
   { noChMsg with len := 1 }]

def wideRequests : List DictMsg :=
  [{ noDict with ver := 2 ^ 8 }, { noDict with kind := 2 ^ 8 }, { noDict with op := 2 ^ 8 }, { noDict with flags := 2 ^ 8 }, { noDict with seq := 2 ^ 16 },
   { noDict with index := 2 ^ 16 }, { noDict with sub := 2 ^ 8 }, { noDict with status := 2 ^ 8 }, { noDict with len := 2 ^ 16 }, { noDict with offset := 2 ^ 32 },
   { noDict with time := 2 ^ 64 }, { noDict with data := zeros 4073 }]

def goodCommands0 : List Instr :=
  [.coldStart someObs, .powerFail 0, .lossRecordWritten someObs, .railsStop 0, .inputVoltageHigh 0, .resetNLow, .resetNRise someObs,
   .resetModuleWarm someObs, .resetModuleCold someObs, .resetRegion 0, .resetDie 0, .resetCompleted .warm, .regionRecoveryLate 0, .runEnter 0,
   .alertAck 0, .regionDisable 0 0, .ctxDisable 0 0, .chanterDisable 0, .functionEnable .chanter, .drainEnd .chanter, .drainTimeout .chanter,
   .submitDescriptor 0 (desc 0 0 0 0 0 0), .dispatchDescriptor 0 0, .descriptorComplete 0 0]

def goodCommands1 : List Instr :=
  [.queueHeadWrite 0 0 0, .resume 0 0, .flush 0 0, .syncCounterWrite 0 0 0, .switch 0 0, .quantumExpiry 0, .switchDrained 0, .switchComplete 0,
   .clusterFenceWrite 0 0, .clusterFenced 0 0, .matrixDescriptor 0 0, .mov 0 0, .add 0 0, .sub 0 0, .mul 0 0, .fma 0 0, .max 0 0, .min 0 0,
   .abs 0 0, .neg 0 0, .cmpgt 0 0, .select 0 0, .exp2 0 0, .log2 0 0]

def goodCommands2 : List Instr :=
  [.rcp 0 0, .rsqrt 0 0, .exp 0 0, .siluMul 0 0, .rsum 0 0, .rsumsq 0 0, .rmaxIdx 0 0, .rminIdx 0 0, .smaxStep 0 0, .smaxNorm 0 0,
   .conversionUnscaled 0 0, .conversionCurrent 0 0, .conversionDelayed 0 0, .conversionFixed 0 0, .move 0 0, .moveCompress 0 0, .fence 0 0,
   .fenceComplete 0 0, .signal 0 0, .set 0 0, .waitUntil 0 0, .waitUntilExpiry 0 0, .idleHint 0 0, .launch 0 0]

def goodCommands3 : List Instr :=
  [.launchResume 0 0, .yield 0 0, .fabricRead 0 0, .fabricWrite 0 0, .fabricAccum 0 0, .fabricGather 0 0, .fabricRefetch 0 0,
   .fabricRelease 0 0, .fabricStage 0 0, .fabricColl 0 0, .fabricResponse (frame 5) .mesh, .tagAcquire 0, .requestTimeout 0,
   .tagQuarantineEnd 0, .read (frame 5) .mesh, .write (frame 5) .mesh, .accum (frame 5) .mesh, .gather (frame 5) .mesh,
   .refetch (frame 5) .mesh, .release (frame 5) .mesh, .signalFrame (frame 5) .mesh, .stage (frame 5) .mesh, .credit (frame 5) .mesh,
   .coll (frame 5) .mesh]

def goodCommands4 : List Instr :=
  [.regRd (frame 5) .mesh, .regWr (frame 5) .mesh, .dict (frame 5) .mesh, .desc (frame 5) .mesh, .descHoldTimeout 0, .pool (frame 5) .mesh,
   .chanter (frame 5) .mesh, .timing (frame 5) .mesh, .dupRecordExpiry 0 0, .linkAck 0 0, .linkNak 0 0, .linkCredit 0 0 0, .linkReplayTimeout 0,
   .linkFrameReceive 0 0 true (frame 5), .ackSendTimer 0, .laneLockLoss 0, .trainingAttemptEnd 0 true 0 0, .portDisable 0 0, .portDrainEnd 0,
   .neighborSolicitation 0 [] [], .echoRequest 0 [] [] [], .edgePacketReceive 0 noEdge, .reasmTimeout 0 0 0, .sectionDecode 0]

def goodCommands5 : List Instr :=
  [.fragmentSend 0, .delta 0 noChMsg, .result 0 noChMsg, .state 0 noChMsg, .ack 0 noChMsg, .resync 0 noChMsg, .probe 0 noChMsg,
   .probeReply 0 noChMsg, .ackTimer 0 0, .rtoExpiry 0 0, .peerHeld 0, .probeTimer 0, .roundDeadline, .quorumHoldExpiry, .catchupDelta 0 0,
   .join 0, .timeExchange 0 0 0 0, .alignLost, .innerUpdate 0 0, .blockCommit 0 0, .reserveStallTimeout 0 0, .normModuleSum, .normFence 0,
   .stepClose 0]

def goodCommands6 : List Instr :=
  [.drainShard 0, .poolQueryReply 0 noReply, .poolPutReply 0 noReply, .poolGetReply 0 noReply, .poolCommitReply 0 noReply, .poolTimeout 0,
   .manifestWrite, .cutAt 0, .restoreGo 0, .restoreVerified, .restoreApplied, .recallArrival 0 0, .recallDeadlineExpiry 0 0, .writeBack 0 0,
   .tierFlush 0 0, .scrubVisit 0 0, .rowRepair 0 0, .repairTableAppend 0, .refreshWindowChange 0, .selfRefreshEntry 0, .selfRefreshExit 0,
   .pllStop 0, .pllRestart 0, .fastLoop [] [] 0 0]

def goodCommands7 : List Instr :=
  [.slowLoop [], .estimateRefit, .divergenceEnter, .divergenceExit, .estimateOnlyExit, .droopDetect 0, .droopRecover 0, .logicSensorRead 0 [] 0,
   .vfStep 0 true, .logicThermalTrip 0 0, .dramSensorRead 0 [] 0, .dramThermalTrip 0 0, .referenceClockLost 0, .sleepDecision 0, .startAdmit 0,
   .clusterReady 0 0, .heartbeatTick, .flagsClear 0, .flagRegisterClear 0 0 0, .registerWrite .fieldPort 0 0 4 0, .heldAccessComplete 0,
   .moduleCommit .fieldPort 0, .moduleDiscard .fieldPort 0, .lock 0]

def goodCommands8 : List Instr :=
  [.doorbell 0 0, .descForward 0, .descResponse 0 0, .ringResume 0, .completionDoorbell 0 0 0 0, .mgmtEntry 0, .hostFrameReceive 0 (frame 5),
   .hostDupRecordExpiry 0 0, .dictRead .fieldPort noDict, .dictWrite .fieldPort noDict, .dictInfo .fieldPort noDict,
   .fieldRequestReceive noField, .parkedRequestResume 0, .storeSave, .storeErase, .storeComplete true, .telemTick, .transmitOpportunity,
   .plcaBeacon, .fieldNeighborSolicitation [] [], .logicTest 0 0 0, .logicTestDone 0 0 0, .memoryTest 0 0, .portRecal 0]

def goodCommands9 : List Instr :=
  [.dramRecal 0 0, .bistDeadline 0, .memtestGranule 0 [], .portRecalTimer, .calProgramDone, .fwProgramDone, .attestNonce (zeros 32),
   .init .mesh noKex, .reply .mesh noKex, .update .mesh noKex, .handshakeStart .mesh 0, .rekey 0, .keyUpdateTimer .mesh 0, .keyRetire .mesh 0,
   .kexHoursTimer, .bypass true, .idcode, .samplePreload [], .extest [], .imageLoad default, .recoveryImageCheck someObs, .portSignalDetect 0,
   .referenceClockRestored 0, .dramTrainingAgeDue 0]

def goodCommands10 : List Instr :=
  [.dramRecalDone 0, .keyUpdateRetry .mesh 0, .longHaulRateRecovery 0]

/-- A command of each constructor that numbers existing parts and whose fields fit. -/
def goodCommands : List Instr := goodCommands0 ++ goodCommands1 ++ goodCommands2 ++ goodCommands3 ++ goodCommands4 ++ goodCommands5 ++ goodCommands6 ++ goodCommands7 ++ goodCommands8 ++ goodCommands9 ++ goodCommands10

def illCommands0 : List Instr :=
  [.resetCompleted (.die 4), .regionRecoveryLate 16, .regionDisable 16 0, .ctxDisable 16 0, .ctxDisable 0 256, .functionEnable (.region 16),
   .drainEnd (.region 16), .drainTimeout (.region 16), .submitDescriptor 16 (desc 0 0 0 0 0 0), .dispatchDescriptor 16 0,
   .dispatchDescriptor 0 64, .descriptorComplete 16 0, .queueHeadWrite 16 0 0, .queueHeadWrite 0 64 0, .resume 16 0, .resume 0 64, .flush 16 0,
   .flush 0 64, .syncCounterWrite 16 0 0, .syncCounterWrite 0 255 0, .syncCounterWrite 0 0 65536, .switch 16 0, .switch 0 8, .quantumExpiry 16]

def illCommands1 : List Instr :=
  [.switchDrained 16, .switchComplete 16, .clusterFenceWrite 16 0, .clusterFenceWrite 0 65536, .clusterFenced 16 0, .clusterFenced 0 16,
   .matrixDescriptor 16 0, .mov 16 0, .add 16 0, .sub 16 0, .mul 16 0, .fma 16 0, .max 16 0, .min 16 0, .abs 16 0, .neg 16 0, .cmpgt 16 0,
   .select 16 0, .exp2 16 0, .log2 16 0, .rcp 16 0, .rsqrt 16 0, .exp 16 0, .siluMul 16 0]

def illCommands2 : List Instr :=
  [.rsum 16 0, .rsumsq 16 0, .rmaxIdx 16 0, .rminIdx 16 0, .smaxStep 16 0, .smaxNorm 16 0, .conversionUnscaled 16 0, .conversionCurrent 16 0,
   .conversionDelayed 16 0, .conversionFixed 16 0, .move 16 0, .moveCompress 16 0, .fence 16 0, .fenceComplete 16 0, .signal 16 0, .set 16 0,
   .waitUntil 16 0, .waitUntilExpiry 16 0, .idleHint 16 0, .launch 16 0, .launchResume 16 0, .yield 16 0, .fabricRead 16 0, .fabricWrite 16 0]

def illCommands3 : List Instr :=
  [.fabricAccum 16 0, .fabricGather 16 0, .fabricRefetch 16 0, .fabricRelease 16 0, .fabricStage 16 0, .fabricColl 16 0, .tagAcquire 18,
   .descHoldTimeout 16, .dupRecordExpiry 16 0, .linkAck 96 0, .linkNak 96 0, .linkCredit 96 0 0, .linkCredit 0 4 0, .linkReplayTimeout 96,
   .linkFrameReceive 96 0 true (frame 5), .linkFrameReceive 0 0 true (badFrame 5), .ackSendTimer 96, .laneLockLoss 96,
   .trainingAttemptEnd 96 true 0 0, .portDisable 96 0, .portDrainEnd 96, .neighborSolicitation 4 [] [], .echoRequest 5 [] [] [],
   .edgePacketReceive 4 noEdge]

def illCommands4 : List Instr :=
  [.edgePacketReceive 0 { noEdge with frame := badFrame 5 }, .reasmTimeout 5 0 0, .sectionDecode 4, .catchupDelta 16 0, .innerUpdate 16 0,
   .blockCommit 16 0, .reserveStallTimeout 16 0, .stepClose 16, .drainShard 16, .recallArrival 16 0, .recallDeadlineExpiry 16 0,
   .writeBack 16 0, .tierFlush 16 0, .scrubVisit 16 0, .scrubVisit 0 402653184, .rowRepair 16 0, .rowRepair 0 100663296, .repairTableAppend 16,
   .refreshWindowChange 16, .selfRefreshEntry 16, .selfRefreshExit 16, .pllStop 16, .pllRestart 16, .droopDetect 16]

def illCommands5 : List Instr :=
  [.droopRecover 16, .logicSensorRead 16 [] 0, .vfStep 16 true, .logicThermalTrip 16 0, .dramSensorRead 16 [] 0, .dramThermalTrip 16 0,
   .referenceClockLost 5, .sleepDecision 16, .startAdmit 16, .clusterReady 16 0, .clusterReady 0 16, .doorbell 256 0, .descForward 256,
   .descResponse 256 0, .ringResume 256, .completionDoorbell 8 0 0 0, .completionDoorbell 0 16 0 0, .completionDoorbell 0 0 64 0,
   .mgmtEntry 256, .hostFrameReceive 4 (frame 5), .hostFrameReceive 0 (badFrame 5), .hostDupRecordExpiry 4 0, .logicTestDone 16 0 0,
   .logicTestDone 0 16 0]

def illCommands6 : List Instr :=
  [.memtestGranule 16 [], .init (.port 96) noKex, .init .mesh { noKex with kind := 256 }, .reply (.port 96) noKex,
   .reply .mesh { noKex with kind := 256 }, .update (.port 96) noKex, .update .mesh { noKex with kind := 256 }, .handshakeStart (.port 96) 0,
   .keyUpdateTimer (.port 96) 0, .keyRetire (.port 96) 0, .portSignalDetect 96, .referenceClockRestored 5, .dramTrainingAgeDue 16,
   .dramRecalDone 16, .keyUpdateRetry (.port 96) 0, .longHaulRateRecovery 64, .coldStart badObs, .lossRecordWritten badObs, .resetNRise badObs,
   .resetModuleWarm badObs, .resetModuleCold badObs, .resetRegion 65536, .resetDie 16, .fabricResponse (badFrame 5) .mesh]

def illCommands7 : List Instr :=
  [.fabricResponse (frame 5) (.port 96), .read (badFrame 5) .mesh, .read (frame 5) (.port 96), .write (badFrame 5) .mesh,
   .write (frame 5) (.port 96), .accum (badFrame 5) .mesh, .accum (frame 5) (.port 96), .gather (badFrame 5) .mesh,
   .gather (frame 5) (.port 96), .refetch (badFrame 5) .mesh, .refetch (frame 5) (.port 96), .release (badFrame 5) .mesh,
   .release (frame 5) (.port 96), .signalFrame (badFrame 5) .mesh, .signalFrame (frame 5) (.port 96), .stage (badFrame 5) .mesh,
   .stage (frame 5) (.port 96), .credit (badFrame 5) .mesh, .credit (frame 5) (.port 96), .coll (badFrame 5) .mesh, .coll (frame 5) (.port 96),
   .regRd (badFrame 5) .mesh, .regRd (frame 5) (.port 96), .regWr (badFrame 5) .mesh]

def illCommands8 : List Instr :=
  [.regWr (frame 5) (.port 96), .dict (badFrame 5) .mesh, .dict (frame 5) (.port 96), .desc (badFrame 5) .mesh, .desc (frame 5) (.port 96),
   .pool (badFrame 5) .mesh, .pool (frame 5) (.port 96), .chanter (badFrame 5) .mesh, .chanter (frame 5) (.port 96), .timing (badFrame 5) .mesh,
   .timing (frame 5) (.port 96), .delta 0 { noChMsg with type := 16 }, .result 0 { noChMsg with type := 16 },
   .state 0 { noChMsg with type := 16 }, .ack 0 { noChMsg with type := 16 }, .resync 0 { noChMsg with type := 16 },
   .probe 0 { noChMsg with type := 16 }, .probeReply 0 { noChMsg with type := 16 }, .poolQueryReply 0 { noReply with pstatus := 256 },
   .poolPutReply 0 { noReply with pstatus := 256 }, .poolGetReply 0 { noReply with pstatus := 256 },
   .poolCommitReply 0 { noReply with pstatus := 256 }, .registerWrite (.requester 0 16) 0 0 4 0, .registerWrite .fieldPort 4096 0 4 0]

def illCommands9 : List Instr :=
  [.registerWrite .fieldPort 0 65536 4 0, .registerWrite .fieldPort 0 0 5 0, .registerWrite .fieldPort 0 0 4 (2 ^ 32),
   .moduleCommit (.requester 0 16) 0, .moduleDiscard (.requester 0 16) 0, .dictRead (.requester 0 16) noDict,
   .dictRead .fieldPort { noDict with ver := 256 }, .dictWrite (.requester 0 16) noDict, .dictWrite .fieldPort { noDict with ver := 256 },
   .dictInfo (.requester 0 16) noDict, .dictInfo .fieldPort { noDict with ver := 256 }, .fieldRequestReceive { noField with srcPort := 65536 },
   .attestNonce [], .recoveryImageCheck badObs]

/-- For each check that `WellFormed` makes of a constructor, a command that fails it alone. -/
def illCommands : List Instr := illCommands0 ++ illCommands1 ++ illCommands2 ++ illCommands3 ++ illCommands4 ++ illCommands5 ++ illCommands6 ++ illCommands7 ++ illCommands8 ++ illCommands9

theorem test_good_commands : goodCommands.all WellFormed = true := by decide +kernel

theorem test_ill_commands : illCommands.all (fun c => !WellFormed c) = true := by decide +kernel

theorem test_wide_frames : wideFrames.all (fun f => !WellFormed (.read f .mesh)) = true := by decide +kernel

/-- The oversized body of 4,097 B with its length. -/
theorem test_long_frame : WellFormed (.read { frame 5 with len := 4097, body := zeros 4097 } .mesh) = false := by decide +kernel

theorem test_wide_messages : wideMessages.all (fun x => !WellFormed (.delta 0 x)) = true := by decide +kernel

theorem test_wide_requests : wideRequests.all (fun x => !WellFormed (.dictRead .fieldPort x)) = true := by decide +kernel

theorem test_wide_packets : [{ noField with srcAddr := [] }, { noField with srcPort := 65536 }, { noField with dstPort := 65536 }].all
    (fun x => !WellFormed (.fieldRequestReceive x)) = true := by decide

theorem test_wide_replies : [{ noReply with pstatus := 256 }, { noReply with data := zeros 4097 }].all
    (fun x => !WellFormed (.poolPutReply 0 x)) = true := by decide +kernel

theorem test_wide_handshakes : [{ noKex with kind := 256 }, { noKex with node := 65536 }, { noKex with count := 2 ^ 32 }].all
    (fun x => !WellFormed (.init .mesh x)) = true := by decide

theorem test_sources : [Source.requester 32768 0, Source.requester 0 16].all (fun x => !WellFormed (.moduleDiscard x 0)) = true := by decide

theorem test_observations : [{ someObs with trainFail := [16] }, { someObs with testFail := [256] }, { someObs with portFail := [96] },
    { someObs with portFound := [(96, 0, 0)] }, { someObs with bits := [{ addr := 0, bit := 280, pattern := 0 }] },
    { someObs with bits := [{ addr := 0, bit := 279, pattern := 2 }] }].all (fun x => !WellFormed (.coldStart x)) = true := by decide

theorem test_vias : [Via.port 96, Via.edge 4].all (fun x => !WellFormed (.keyRetire x 0)) = true := by decide

theorem test_functions : [Func.region 16, .context 16 0, .context 0 8, .port 96, .ring 256, .stageQueue 32].all
    (fun x => !WellFormed (.functionEnable x)) = true := by decide

theorem test_domains : [Domain.region 16, .die 4].all (fun x => !WellFormed (.resetCompleted x)) = true := by decide

/-! ### Witnesses: for each obligation with hypotheses, a state and operands that meet those of each clause -/

/-- Region 3 with one descriptor that has this record. -/
def inFlight (x : Flight) : State := running { regions := region3 (flying x {}) }

theorem witness_IdleStepIsOneTick : State.reset.pending = [] := rfl

theorem witness_CommandsLeaveTheQueue : ∃ t, exec .idcode { State.reset with pending := [.storeSave] } = .next t := ⟨_, rfl⟩

theorem witness_OnlyMissingPartsStop : Instr.partsOk .storeSave = true ∧ Instr.partsOk (.resume 16 0) = false := by decide

theorem witness_StepKeepsQueueOk : QueueOk { State.reset with pending := [.heartbeatTick, .resume 15 63] } := by
  intro c h
  simp only [List.mem_cons, List.not_mem_nil, or_false] at h
  rcases h with rfl | rfl <;> rfl

theorem witness_NothingActsBeforeDroneBoots : State.reset.mod.env.droneUp = false ∧ Instr.needsNoDrone .storeSave = false
    ∧ ∃ t, exec .storeSave State.reset = .next t := ⟨rfl, rfl, _, rfl⟩

theorem witness_TimeNeverRunsBack : Instr.startsAnew .heartbeatTick = false ∧ ∃ t, exec .heartbeatTick (up {}) = .next t := ⟨rfl, _, rfl⟩

def waitsForImage : State := { mod := { env := { bootWait := true }, flash := { recovery := some default } } }

theorem witness_ColdStartBootsAGoodImage : mayBoot State.reset.mod someObs = true
    ∧ waitsForImage.mod.env.bootWait = true ∧ waitsForImage.mod.flash.recovery = some default := by and_intros <;> first | rfl | decide

/-- A running module whose loss record is being programmed. -/
def losing (m : Module) : State := up { m with env := { m.env with lossUntil := some 900000 } }

def hot : State := up { regions := region3 { power := { logicTripSince := some 0, dramTripSince := some 0 } } }

theorem witness_InputLossStopsTheModule :
    (Up (up {}) ∧ (up {}).mod.bellows.failing = false ∧ (41999 < 42000 ∨ 66000 < 41999) ∧ (66001 < 42000 ∨ 66000 < 66001))
    ∧ 37999 < 38000 ∧ (Up (up {}) ∧ 64000 < 64001)
    ∧ (Up hot ∧ hot.mod.bellows.failing = false ∧ (110000 : Int) ≤ 110000 ∧ (hot.mod.rg 3).power.logicTripSince = some 0)
    ∧ ((100000 : Int) ≤ 100000 ∧ (hot.mod.rg 3).power.dramTripSince = some 0)
    ∧ ((losing {}).mod.env.lossUntil = some 900000 ∧ 43999 < 44000 ∧ 44000 ≤ 44000 ∧ (losing {}).mod.env.resetN = true ∧ (losing {}).mod.env.trip = false) := by decide

def held0 : State := { mod := { env := { resetN := false } } }

/-- A commit that waits behind another, parked as the dictionary's. -/
def commitReq (k : Nat) : DictReq :=
  { id := k, src := .fieldPort, msg := { noDict with op := 2, index := kCOMMIT / 256, sub := kCOMMIT % 256 }, addr := [], port := 0, wait := 4, order := k }

/-- A module with commits in progress. -/
def committing (n : Nat) : State := running { nextHeld := n, drone := { parked := (List.range n).map commitReq, nextReq := n } }

theorem test_committing : commitBefore (committing 1).mod (committing 1).mod.nextHeld = true ∧ (committing 1).mod.drone.parked.length < 8
    ∧ commitBefore (committing 8).mod (committing 8).mod.nextHeld = true ∧ 8 ≤ (committing 8).mod.drone.parked.length
    ∧ (committing 1).mod.bellows.failing = false ∧ NoCommit (running {}) ∧ NoCommit (up {}) := by decide +kernel

theorem witness_ColdResetsRestartTheModule :
    ((up {}).mod.env.resetN = true ∧ (up {}).mod.env.lossUntil = none ∧ (up {}).mod.flash.calBusy = none)
    ∧ ((losing {}).mod.env.resetN = true ∧ ((losing {}).mod.env.lossUntil.isSome = true ∨ (losing {}).mod.flash.calBusy.isSome = true))
    ∧ (held0.mod.env.resetN = false ∧ held0.mod.env.droneUp = false ∧ held0.mod.env.bootWait = false ∧ held0.mod.env.lossUntil = none
        ∧ held0.mod.env.trip = false ∧ 44000 ≤ someObs.inputMv)
    ∧ (Up (running {}) ∧ (running {}).mod.bellows.failing = false ∧ (running {}).mod.mstate ≠ 0)
    ∧ (Up (up {}) ∧ (up {}).mod.bellows.failing = false ∧ (up {}).mod.mstate = 0 ∧ NoCommit (up {})) ∧ NoCommit (running {})
    ∧ (commitBefore (committing 1).mod (committing 1).mod.nextHeld = true ∧ 8 ≤ (committing 8).mod.drone.parked.length ∧ (committing 1).mod.drone.parked.length < 8) := by decide +kernel

/-- A module with one reset in progress. -/
def resetting (d : Domain) : State := running { resets := [{ dom := d, at_ := 4000000, cause := 1, obs := some someObs }] }

/-- A warm reset asked for meanwhile. -/
def asksWarm (d : Domain) : State := let s := resetting d; { s with mod := s.mod.modEnv (fun e => { e with resetAsked := some (1, someObs) }) }

theorem witness_ResetsRunAndEnd :
    (15 < 16 ∧ Up (running {}) ∧ mayReset (running {}).mod (.region 15) = true ∧ NoCommit (running {}) ∧ ((running {}).mod.rg 15).heldDesc = [])
    ∧ (3 < 4 ∧ mayReset (running {}).mod (.die 3) = true ∧ ∀ i, i < 4 → ((running {}).mod.rg (4 * 3 + i)).heldDesc = [])
    ∧ 65536 ≤ 65536 ∧ 256 ≤ 256
    ∧ ((running {}).mod.bellows.failing = false ∧ ((running {}).mod.mstate = 1 ∨ (running {}).mod.mstate = 2))
    ∧ ((up {}).mod.bellows.failing = false ∧ (up {}).mod.mstate = 0 ∧ (up {}).mod.env.resetAsked = none)
    ∧ (ending? (resetting (.region 15)).mod (.region 15)).isSome = true ∧ (ending? (resetting (.die 3)).mod (.die 3)).isSome = true
    ∧ ((ending? (resetting .warm).mod .warm).isSome = true ∧ (resetting .warm).mod.env.resetAsked = none)
    ∧ (∀ d ∈ [Domain.warm, .cold], let s := asksWarm d; Up s ∧ s.mod.bellows.failing = false ∧ (ending? s.mod d).isSome = true ∧ s.mod.env.resetAsked = some (1, someObs))
    ∧ (commitBefore (committing 1).mod (committing 1).mod.nextHeld = true ∧ (waitingWrites 0 someObs).length = 6)
    ∧ ((ending? (resetting .cold).mod .cold).isSome = true ∧ (resetting .cold).mod.env.resetAsked = none)
    ∧ (let m := (resetting (.region 15)).mod.setNum (kREGION_FSTATE + 15) 2; (regionReset? m 15).isSome = true) := by decide +kernel

/-- Region 3 in its drain, or in its recovery. -/
def cycling3 (st : Nat) (g : Region) : State :=
  up { nums := [(kMODULE_STATE, 2), (kREGION_FSTATE + 3, st)], regions := region3 g, cycles := [{ func := .region 3, until_ := 9000000 }] }

def draining (g : Region) : State := cycling3 1 g

def chanterDrains : State := up { nums := [(kMODULE_STATE, 2), (kCHANTER_FSTATE, 1)], cycles := [{ func := .chanter, until_ := 9000000 }] }

def disabled3 : State := up { nums := [(kMODULE_STATE, 2), (kREGION_FSTATE + 3, 3)] }

theorem witness_FunctionsLeaveAndReturn :
    (Up (running {}) ∧ (running {}).mod.fstate 3 = 0 ∧ (running {}).mod.inReset 3 = false ∧ ((running {}).mod.rg 3).heldDesc = [])
    ∧ (255 < 256 ∧ (255).testBit 7 = true ∧ ((running {}).mod.num (kCTX_DISABLE + 3)).testBit 7 = false)
    ∧ ((running {}).mod.num kCHANTER_FSTATE = 0 ∧ (running {}).mod.moduleInReset = false) ∧ 1 < 2 ∧ ((resetting .warm).mod.moduleInReset = true ∧ 1 ≤ 1)
    ∧ ((cycling3 2 {}).mod.fstate 3 = 2)
    ∧ (∃ x, (cycling3 2 {}).mod.cycles.find? (fun y => y.func == .region 3) = some x ∧ x.enableAfter = false)
    ∧ (Up (draining {}) ∧ (draining {}).mod.fstate 3 = 1 ∧ (∃ x, (draining {}).mod.cycles.find? (fun y => y.func == .region 3) = some x)
        ∧ ((draining {}).mod.work 3).flights = [] ∧ funcIdle (draining {}).mod (.region 3) = true)
    ∧ (Up chanterDrains ∧ ∃ x, chanterDrains.mod.cycles.find? (fun y => y.func == .chanter) = some x ∧ x.enableAfter = false)
    ∧ testRuns (draining {}).mod 3 = false
    ∧ (Up disabled3 ∧ disabled3.mod.fstate 3 = 3 ∧ disabled3.mod.inReset 3 = false ∧ disabled3.mod.cycling (.region 3) = false)
    ∧ (((running {}).mod.ring 255).enable = false ∧ (running {}).mod.cycling (.ring 255) = false) := by
  and_intros <;> first | decide | exact ⟨_, rfl, rfl⟩ | exact ⟨_, rfl⟩

/-- Region 3 with queue 5 enabled. -/
def queued (g : Work) : Region := { work := { g with queues := [(5, { enable := true, head := 7 })] } }

/-- A descriptor of a class on queue 5. -/
def onQueue5 (cls : W64) : Desc := desc (cls <<< 60 ||| 5 <<< 42) 0x000000000000FFFF 0 0 0 0

def accepting : State := running { regions := region3 (queued {}) }

def full3 : State := running { regions := region3 (queued { flights := List.replicate 4096 { id := 0, d := onQueue5 7 } }) }

theorem witness_SubmissionChecks :
    (Up accepting ∧ submitStatus accepting.mod 3 (onQueue5 7) = 0 ∧ submitStatus accepting.mod 3 (onQueue5 0) = 2)
    ∧ ((up {}).mod.mstate ≠ 2 ∧ submitStatus (up {}).mod 3 (onQueue5 7) = 8)
    ∧ submitStatus accepting.mod 3 { onQueue5 7 with w0 := (onQueue5 7).w0 ||| 1 <<< 48 } = 3
    ∧ submitStatus accepting.mod 3 (onQueue5 8) = 2 := by decide +kernel

theorem witness_SubmissionChecks_full : submitStatus full3.mod 3 (onQueue5 7) = 7 := by
  unfold submitStatus
  dsimp only
  rw [if_neg (by decide +kernel), if_neg (by decide +kernel), if_neg (by decide +kernel), if_pos]
  exact Nat.le_of_eq List.length_replicate.symm

/-- A SET of counter 9 to 6, waiting for nothing, on queue 5. -/
def setDesc : Desc := desc (7 <<< 60 ||| 5 <<< 42) 0xFF0000FF0000FF00 0x0309000600000000 0 0 0

def accepted : State := running { regions := region3 (queued { flights := [{ id := 0, d := setDesc }], nextId := 1 }) }

theorem witness_DispatchTakesTheHead : Up accepted ∧ ∃ p, plan accepted.mod 3 5 = some p ∧ beaten accepted.mod 3 5 p = false := by
  refine ⟨rfl, ?_⟩
  cases h : plan accepted.mod 3 5 with
  | none => exact absurd h (by decide +kernel)
  | some p => exact ⟨p, rfl, by revert h; revert p; decide +kernel⟩

/-- Region 3 with a descriptor that has ended with a status. -/
def ended (st : Nat) : Flight := { id := 0, d := setDesc, phase := 2, status := st, endAt := 4000000 }

theorem witness_CompletionSignalsOrHalts : ∀ st, st = 0 ∨ st = 2 → Up (inFlight (ended st)) ∧ ((inFlight (ended st)).mod.work 3).flight? 0 = some (ended st)
    ∧ (ended st).phase = 2 ∧ ((inFlight (ended st)).mod.rg 3).heldDesc = [] := fun _ _ => ⟨rfl, rfl, rfl, rfl⟩

def fencing : State := running { regions := region3 { work := { fence := 2 } } }

theorem takesWrites_of {s : State} {r : Nat} (h : domainSilent s.mod r = false ∧ s.mod.inReset r = false ∧ (s.mod.rg r).power.pllOff = false ∧ s.mod.heldAccess = []) :
    TakesWrites s r := ⟨h.1, h.2.1, h.2.2.1, by simp [h.2.2.2]⟩

/-- Region 3 with its PLL stopped. -/
def sleepingRegion : State := running { regions := region3 { power := { pllOff := true } } }

theorem witness_QueueAndCounterControls_access :
    TakesWrites accepting 3 ∧ (domainSilent (resetting (.die 0)).mod 3 = true) ∧ (domainSilent (resetting (.region 3)).mod 3 = false ∧ (resetting (.region 3)).mod.inReset 3 = true)
    ∧ (domainSilent sleepingRegion.mod 3 = false ∧ sleepingRegion.mod.inReset 3 = false ∧ ¬TakesWrites sleepingRegion 3) :=
  ⟨takesWrites_of (by decide +kernel), by decide +kernel, by decide +kernel, by decide +kernel, by decide +kernel, fun h => absurd h.clocked (by decide +kernel)⟩

theorem witness_QueueAndCounterControls :
    (63 < 64 ∧ Up accepting ∧ (∀ x ∈ (accepting.mod.work 3).ringWait, x.1 ≠ 63) ∧ (accepting.mod.rg 3).heldDesc = [])
    ∧ 254 < 255 ∧ ((accepting.mod.work 3).counter 254 < 65536 ∧ 65535 < 65536)
    ∧ (65535 < 65536 ∧ ∀ b ∈ accepting.mod.test.reqs, b.kind ≠ 1 ∨ b.region ≠ 3)
    ∧ (Up fencing ∧ (fencing.mod.work 3).fence.testBit 1 = true ∧ fencing.mod.clusterBusy 3 1 = false ∧ fencing.mod.test.reqs = []) := by decide

def switches (drainedAt : Option Nat) : State := running { regions := region3 { work := { quantum := 1, switching := true, target := 7, drainedAt := drainedAt, kept := some 2 } } }

/-- Region 3 with a quantum, and the SET in context 0 or, while context 1 is active, to be switched to. -/
def quantumRuns (active : Nat) : State :=
  running { regions := region3 (queued { flights := [{ id := 0, d := setDesc }], nextId := 1, quantum := 1, active := active }) }

theorem witness_ContextSwitches_switch : TakesWrites (quantumRuns 0) 3 := takesWrites_of (by decide +kernel)

theorem witness_ContextSwitches :
    7 < 8 ∧ (Up (quantumRuns 0) ∧ ((quantumRuns 0).mod.work 3).quantum ≠ 0 ∧ nextCtx (quantumRuns 0).mod 3 = none)
    ∧ (nextCtx (quantumRuns 1).mod 3 = some 0 ∧ ((quantumRuns 1).mod.work 3).switching = false ∧ 0 ≠ ((quantumRuns 1).mod.work 3).active)
    ∧ (Up (switches none) ∧ drained ((switches none).mod.work 3) = true)
    ∧ (Up (switches (some 1)) ∧ ((switches (some 1)).mod.work 3).switching = true ∧ ((switches (some 1)).mod.work 3).drainedAt = some 1) := by decide +kernel

theorem witness_CompressionIsLossless : (List.replicate 256 (0xA5 : Byte)).length = 256 ∧ 8 < 9 := ⟨List.length_replicate, by decide⟩

theorem witness_MemoryReadsBack : ((up {}).mod.rg 3).stack.errs = [] ∧ (∃ m', memWrite 0 3 5 0x17F3FFFFFE [1, 2] (up {}).mod = (m', 0))
    ∧ 0x1800000000 < 0x17FFFFFFFF + 2 ∧ 0x17F4000000 < 0x17F3FFFFFF + [(1 : Byte), 2].length := by
  refine ⟨by decide, ⟨_, Prod.ext rfl ?_⟩, by decide, by decide⟩
  decide +kernel

theorem inFlight_here (x : Flight) (h : x.id = 0) : ((inFlight x).mod.work 3).flight? 0 = some x := by
  show List.find? _ [x] = some x
  simp [h]

theorem ready_inFlight (x : Flight) (h : x.id = 0) (hp : x.phase = 1) (hr : x.ready.isSome = true) : Ready (inFlight x) 3 0 x :=
  ⟨by decide, rfl, inFlight_here x h, hp, hr, fun h => absurd (show (64 : Nat) = 0 from h) (by decide)⟩

theorem running_inFlight (x : Flight) (h : x.id = 0) (hp : x.phase = 1) (hr : x.ready.isSome = true) : Running (inFlight x) 3 0 x :=
  ⟨by decide, rfl, inFlight_here x h, hp, hr⟩

theorem waiting_inFlight (x : Flight) (h : x.id = 0) (hp : x.phase = 4) : Waiting (inFlight x) 3 0 x :=
  ⟨by decide, rfl, inFlight_here x h, hp⟩

/-- A dispatched descriptor on unit 0 of cluster 0. -/
def dispatchedOf (d : Desc) : Flight := { id := 0, d := d, phase := 1, ready := some 0, unit := some 0 }

def vectorDesc (v : Nat) : Desc := desc (2 <<< 60) 0 (BitVec.ofNat 64 (v * 2 ^ 58 + 2 ^ 32 + 64)) 0 0 0

theorem witness_VectorDescriptorsRun : ∀ p ∈ vectorCommands, let x := dispatchedOf (vectorDesc p.1)
    Ready (inFlight x) 3 0 x ∧ x.d.cls = 2 ∧ (vecOf x.d).vop = p.1 ∧ inRowOrder (inFlight x).mod 3 x = true := by
  intro p hp
  have h : ∀ v ∈ vectorCommands.map Prod.fst, (vectorDesc v).cls = 2 ∧ (vecOf (vectorDesc v)).vop = v
      ∧ inRowOrder (inFlight (dispatchedOf (vectorDesc v))).mod 3 (dispatchedOf (vectorDesc v)) = true := by decide +kernel
  exact ⟨ready_inFlight _ rfl rfl rfl, h p.1 (List.mem_map_of_mem hp)⟩

theorem witness_MatrixDescriptorRuns : let x := dispatchedOf (desc (1 <<< 60) 0 0 0 0 0)
    Ready (inFlight x) 3 0 x ∧ x.d.cls = 1 ∧ inRowOrder (inFlight x).mod 3 x = true :=
  ⟨ready_inFlight _ rfl rfl rfl, by decide +kernel, by decide +kernel⟩

def convDesc (k : Nat) : Desc := desc (3 <<< 60) 0 0 0 (BitVec.ofNat 64 (k * 2 ^ 14)) 0

def moveDesc (k : Nat) : Desc := desc (4 <<< 60) 0 0 0 (BitVec.ofNat 64 (2 ^ 50 + 2 ^ 32 + k * 2 ^ 30)) 0

/-- Region 3 with a shard table of one resident extent of two blocks: headers at 0x1000, working copies at 0x1100, accumulators at 0x8000;
the table is at 0x100, and has been taken (R158, R161, R162). -/
def blocks (expect : Nat) (g : Region) (nums : Tab Nat) : Module :=
  takeShard 3
  { nums := (kSHARD_CFG + 3, 0x100) :: nums,
    regions := region3 { g with stack := { codes := [(1, 0)], data := [(0x106, 8), (0x141, 0x10), (0x146, BitVec.ofNat 8 expect), (0x149, 0x80), (0x14D, 2)] } } }

theorem test_blocks : (blocks 0 {} []).extents 3 = [{ idx := 0, form := 0, wfmt := 0, expect := 0, base := 0x1000, blocks := 2, acc := 0x8000 }] := by
  decide +kernel

/-- The same descriptors with their destination at a header. -/
def intoBlock (d : Desc) : Desc := { d with w3 := 2 ^ 58 + 0x1000 }

theorem witness_ConversionsAndMovesRun : (∀ k ∈ conversionCommands.map Prod.fst, let x := dispatchedOf (convDesc k)
      Up (inFlight x) ∧ x.phase = 1 ∧ x.ready.isSome = true ∧ x.d.cls = 3 ∧ (convOf x.d).smode = k ∧ (convOf x.d).touches (inFlight x).mod 3 = false)
    ∧ ∀ k ∈ [0, 1], let x := dispatchedOf (moveDesc k)
      Up (inFlight x) ∧ x.phase = 1 ∧ x.ready.isSome = true ∧ x.d.cls = 4 ∧ (mvOf x.d).cmode = k ∧ (mvOf x.d).touches (inFlight x).mod 3 = false := by
  decide +kernel

theorem witness_ConversionsAndMovesRun_refused : (∀ k ∈ conversionCommands.map Prod.fst, let x := dispatchedOf (intoBlock { convDesc k with w4 := (convDesc k).w4 + 2 ^ 32 })
      let s := running (blocks 0 (flying x {}) [])
      (s.mod.work 3).flight? 0 = some x ∧ x.d.cls = 3 ∧ (convOf x.d).smode = k ∧ (convOf x.d).touches s.mod 3 = true)
    ∧ ∀ k ∈ [0, 1], let x := dispatchedOf (intoBlock (moveDesc k))
      let s := running (blocks 0 (flying x {}) [])
      (s.mod.work 3).flight? 0 = some x ∧ x.d.cls = 4 ∧ (mvOf x.d).cmode = k ∧ (mvOf x.d).touches s.mod 3 = true := by
  decide +kernel

theorem witness_SpecialValues : (∀ v ∈ vectorCommands.map Prod.fst, vopKnown v = true) ∧ (FV.nan = .nan ∨ (vopUsesB 1 = true ∧ FV.nan = .nan))
    ∧ (1 : Nat) ≠ 0 ∧ ∀ code ∈ [0, 1, 2, 3, 4, 5, 6, 7], ∃ f, fmtOf code = some f ∧ ((2 ^ (f.mbits + f.ebits) : Nat) >>> f.mbits) % 2 ^ f.ebits = 0 := by
  refine ⟨by decide +kernel, by decide, by decide, ?_⟩
  intro code h
  simp only [List.mem_cons, List.not_mem_nil, or_false] at h
  rcases h with rfl | rfl | rfl | rfl | rfl | rfl | rfl | rfl <;> exact ⟨_, rfl, by decide +kernel⟩

/-- An event descriptor: EOP, CNT, VALUE, TIME, TARGET, COUNT (R86–R88). -/
def eventDesc (op cnt value mask time target count : Nat) : Desc :=
  desc (7 <<< 60) 0 (BitVec.ofNat 64 (op * 2 ^ 56 + cnt * 2 ^ 48 + value * 2 ^ 32 + mask * 2 ^ 16)) (BitVec.ofNat 64 time) (BitVec.ofNat 64 target)
    (BitVec.ofNat 64 (count * 2 ^ 32))

theorem witness_EventsThatEndAtOnce :
    (let x := dispatchedOf (eventDesc 2 254 65535 0 0 0 0); Running (inFlight x) 3 0 x ∧ isEvent 2 x.d = true ∧ evTarget x.d = 0 ∧ evCnt x.d ≠ 255)
    ∧ (let x := dispatchedOf (eventDesc 2 9 1 0 0 (8 * 2 ^ 41 + 9) 0); Running (inFlight x) 3 0 x ∧ isEvent 2 x.d = true ∧ evTarget x.d ≠ 0
        ∧ (inFlight x).mod.kindOf (addrNode (evTarget x.d)) ≠ 0)
    ∧ (let x := dispatchedOf (eventDesc 3 254 6 0 0 0 0); Running (inFlight x) 3 0 x ∧ isEvent 3 x.d = true ∧ evCnt x.d ≠ 255)
    ∧ (let x := dispatchedOf (eventDesc 5 0 0 0x8001 6000000 0 0); Running (inFlight x) 3 0 x ∧ isEvent 5 x.d = true)
    ∧ (let x := dispatchedOf (eventDesc 7 0 1 0 0 0 0); Running (inFlight x) 3 0 x ∧ isEvent 7 x.d = true) := by
  and_intros <;> first | exact running_inFlight _ rfl rfl rfl | decide +kernel

/-- A descriptor that has waited. -/
def waitingOf (d : Desc) : Flight := { dispatchedOf d with phase := 4 }

theorem witness_EventsThatWait :
    (let x := dispatchedOf (eventDesc 1 0 0 0 0 0 0); Running (inFlight x) 3 0 x ∧ isEvent 1 x.d = true)
    ∧ (let x := waitingOf (eventDesc 1 0 0 0 0 0 0); Waiting (inFlight x) 3 0 x ∧ isEvent 1 x.d = true)
    ∧ (let x := dispatchedOf (eventDesc 4 0 0 0 5000000 0 0); Running (inFlight x) 3 0 x ∧ isEvent 4 x.d = true)
    ∧ (let x := waitingOf (eventDesc 4 0 0 0 6000000 0 0); Waiting (inFlight x) 3 0 x ∧ isEvent 4 x.d = true)
    ∧ (let x := dispatchedOf (eventDesc 6 0 0 0 0 0x1000 0); Running (inFlight x) 3 0 x ∧ isEvent 6 x.d = true ∧ evCount x.d = 0)
    ∧ (let x := dispatchedOf (eventDesc 6 0 0 0 0 0x1020 1); Running (inFlight x) 3 0 x ∧ isEvent 6 x.d = true ∧ evTarget x.d % 64 ≠ 0) := by
  and_intros <;> first | exact running_inFlight _ rfl rfl rfl | exact waiting_inFlight _ rfl rfl | decide +kernel

theorem witness_EventsThatWait_launch : let d := eventDesc 6 0 0 0 0 0x1000 1
    Running (inFlight (dispatchedOf d)) 3 0 (dispatchedOf d) ∧ Waiting (inFlight (waitingOf d)) 3 0 (waitingOf d)
    ∧ isEvent 6 d = true ∧ evCount d ≠ 0 ∧ evTarget d % 64 = 0 ∧ readable (evTarget d) (64 * evCount d) = true ∧ 0 + 1 = evCount d
    ∧ (inFlight (dispatchedOf d)).mod.refusesWork 3 = false ∧ ((inFlight (dispatchedOf d)).mod.work 3).flights.length < 4096
    ∧ (memRead 5000000 3 0x0A (evTarget d + 64 * 0) 64 (quiet (inFlight (dispatchedOf d)))).2.1 = 0 := by
  and_intros <;> first | exact running_inFlight _ rfl rfl rfl | exact waiting_inFlight _ rfl rfl | decide +kernel

/-- A fabric descriptor of one unit to region 3 of this node, from 0x4000, versions at 0x9000, in group 5 (R251). -/
def fabricDesc (op len : Nat) : Desc :=
  { desc (6 <<< 60) 0 (BitVec.ofNat 64 (op * 2 ^ 59 + 3 * 2 ^ 37 + 0x1000)) 0x4000 (BitVec.ofNat 64 (len * 2 ^ 32)) (BitVec.ofNat 64 (5 * 2 ^ 48))
    with w6 := 0x9000 }

/-- A group table with one group, 5, whose one member is region 3 of node 0 (R248). -/
def grouped (g : Region) : Module :=
  { regions := [(0, { stack := { codes := [(0, 0)], data := [(0, 5), (2, 1), (16, 3)] } }), (3, g)] }

theorem test_group : (grouped {}).members 5 = [(0, 3)] ∧ rankOf ((grouped {}).members 5) 0 3 = some 0 := by decide +kernel

theorem witness_FabricDescriptorsStart : ∀ op ∈ fabricCommands.map Prod.fst, let x := dispatchedOf (fabricDesc op 1024)
    let s := running (grouped (flying x {}))
    isFabric op x.d = true ∧ (fdOf x.d).ok s.mod 3 = true ∧ (fdOf x.d).touches s.mod 3 = false
      ∧ (fdOf (fabricDesc op 0)).ok s.mod 3 = false ∧ (op = opREAD ∨ op = opGATHER → (fdOf (fabricDesc op 512)).len ≤ (fdOf (fabricDesc op 512)).unit (running { nums := [(kEDGE_MTU, 1500)] }).mod)
      ∧ addrNode (fdOf x.d).raddr = s.mod.node ∧ s.mod.newTag 3 = some 24576 ∧ (s.mod.work 3).flight? 0 = some x ∧ x.phase = 1 ∧ x.ready.isSome = true := by decide +kernel

theorem witness_FabricDescriptorsStart_sent : (∀ op ∈ (fabricCommands.map Prod.fst).filter (· ≠ opCOLL),
    let x := dispatchedOf (fabricDesc op 1024)
    let s := running (grouped (flying x {}))
    let m := (if op = opREFETCH then (quiet s).bump kREFETCHES ((fdOf x.d).len / 512) else quiet s).modFlight 3 x.id (fun y => { y with phase := 4 })
    let a := (fdOf x.d).frame s.time 3 0 m
    (fdOf x.d).len ≤ (fdOf x.d).unit s.mod ∧ a.2.1 = 0 ∧ addrNode a.2.2.addr = s.mod.node ∧ a.1.newTag 3 = some 24576)
    ∧ (let x := dispatchedOf (fabricDesc opCOLL 1024)
      let s := running (grouped (flying x {}))
      let a := memRead s.time 3 5 ((fdOf x.d).laddr + 0) 1024 ((quiet s).modFlight 3 x.id (fun y => { y with phase := 4 }))
      s.mod.fabric.collWaiting = [] ∧ collSends (s.mod.collUnit (s.mod.members 5)) (fdOf x.d) (s.mod.members (fdOf x.d).group) = [((0, 3), 0, 1024)]
        ∧ addrNode (mkAddr 0 3 0) = s.mod.node ∧ a.2.1 = 0 ∧ a.1.newTag 3 = some 24576)
    ∧ ∀ op ∈ fabricCommands.map Prod.fst, (fdOf (fabricDesc op 1024)).fop = op := by decide +kernel

theorem witness_FabricDescriptorsStart_state : let x := dispatchedOf { fabricDesc opREAD 1024 with w3 := 0x1000 }
    let s := running (blocks 0 (flying x {}) [])
    isFabric opREAD x.d = true ∧ (fdOf x.d).ok s.mod 3 = true ∧ (fdOf x.d).touches s.mod 3 = true ∧ (s.mod.work 3).flight? 0 = some x := by decide +kernel

/-- A request with a body. -/
def request (op off : Nat) (body : List Byte) : Frame := { frame op with addr := 3 * 2 ^ 37 + off, len := body.length, body := body }

/-- A small request of each kind that a region serves. -/
def requests : List (Nat × Frame) :=
  [(opREAD, { request opREAD 0x1000 [] with aux := 4096 }), (opWRITE, request opWRITE 0x4000 [1, 2]), (opACCUM, request opACCUM 0x1000 (zeros 1024)),
   (opGATHER, { request opGATHER 0x1100 [] with aux := 1 }), (opREFETCH, { request opREFETCH 0x1100 (zeros 4) with aux := 1 }),
   (opRELEASE, { request opRELEASE 0x1100 (zeros 4) with aux := 1 }), (opSIGNAL, { request opSIGNAL 254 [] with aux := 3 }),
   (opSTAGE, request opSTAGE 0 (zeros 256)), (opCOLL, { request opCOLL 0 (zeros 8) with group := 5 })]

theorem witness_FramesTurnedAway : ∀ x ∈ requests, badRequest x.1 { x.2 with ver := 0 } = true ∧ badRequest x.1 x.2 = false
    ∧ addrNode x.2.addr = (up {}).mod.node ∧ addrNode { x.2 with addr := 8 * 2 ^ 41 }.addr ≠ (up {}).mod.node
    ∧ disabled3.mod.fstate (addrRegion x.2.addr) ≠ 0 ∧ (x.2, Via.mesh) ∉ (disabled3.mod.rg (addrRegion x.2.addr)).held
    ∧ (x.2, Via.mesh) ∉ disabled3.mod.fabric.collWaiting ∧ (∀ d ∈ (disabled3.mod.rg (addrRegion x.2.addr)).dups, d.isOf x.2 = true → d.applying = false) := by decide +kernel

theorem reaches_of {s : State} {op : Nat} {f : Frame} (h : badRequest op f = false ∧ addrNode f.addr = s.mod.node ∧ f.srcNode = s.mod.node ∧ f.retry = false
    ∧ s.mod.mstate = 2 ∧ s.mod.fstate (addrRegion f.addr) = 0 ∧ s.mod.inReset (addrRegion f.addr) = false ∧ regionRetrains s.mod (addrRegion f.addr) = false
    ∧ (s.mod.rg (addrRegion f.addr)).dups.length < 65536
    ∧ (f, Via.mesh) ∉ (s.mod.rg (addrRegion f.addr)).held ∧ (f, Via.mesh) ∉ s.mod.fabric.collWaiting
    ∧ ∀ d ∈ (s.mod.rg (addrRegion f.addr)).dups, d.isOf f = true → d.applying = false) : Reaches s op f := by
  obtain ⟨h1, h2, h3, h4, h5, h6, h7, h8, h9, h10, h11, h12⟩ := h
  exact ⟨h1, h2, h3, h4, h5, h6, h7, h8, h9, h10, h11, h12⟩

theorem served_of {s : State} {op : Nat} {f : Frame} (h : (badRequest op f = false ∧ addrNode f.addr = s.mod.node ∧ f.srcNode = s.mod.node ∧ f.retry = false
    ∧ s.mod.mstate = 2 ∧ s.mod.fstate (addrRegion f.addr) = 0 ∧ s.mod.inReset (addrRegion f.addr) = false ∧ regionRetrains s.mod (addrRegion f.addr) = false
    ∧ (s.mod.rg (addrRegion f.addr)).dups.length < 65536
    ∧ (f, Via.mesh) ∉ (s.mod.rg (addrRegion f.addr)).held ∧ (f, Via.mesh) ∉ s.mod.fabric.collWaiting
    ∧ ∀ d ∈ (s.mod.rg (addrRegion f.addr)).dups, d.isOf f = true → d.applying = false)
    ∧ regionHolds s.mod (addrRegion f.addr) = false ∧ (s.mod.rg (addrRegion f.addr)).power.paceUntil ≤ s.time) : Served s op f :=
  ⟨reaches_of h.1, h.2.1, fun _ => h.2.2⟩

/-- Region 3 under a rate limit of a quarter, its next request 1 µs from now. -/
def paced3 : State := running { regions := region3 { power := { dramLimit := 2, paceUntil := 5001000 } } }

theorem witness_FramesTurnedAway_held : ∀ x ∈ requests.filter (fun x => x.1 != opCOLL),
    Reaches sleepingRegion x.1 x.2 ∧ regionHolds sleepingRegion.mod (addrRegion x.2.addr) = true ∧ Reaches paced3 x.1 x.2
      ∧ (onStack x.1 = true → paced3.time < (paced3.mod.rg (addrRegion x.2.addr)).power.paceUntil) := by
  intro x h
  have h' : x ∈ requests ∧ x.1 ≠ opCOLL := by simpa using h
  refine ⟨reaches_of ?_, ?_, reaches_of ?_, ?_⟩ <;> revert h' <;> revert x <;> decide +kernel

theorem witness_FramesTurnedAway_rate : onStack opSIGNAL = false ∧ ((running {}).mod.rg 3).power.dramLimit = 0
    ∧ onStack opREAD = true ∧ (paced3.mod.rg (addrRegion (frame opREAD).addr)).power.dramLimit ≠ 0 := by decide +kernel

/-- A STAGE queue record: 6 is inbound with one slot of an entry of 256 B at region 3, 7 outbound with 4 slots, both of PEER 0 (R192). -/
def stageRecords : Tab (List Byte) :=
  [(kSTAGEQ + 6, leBytes 8 (2 ^ 62 + 3 * 2 ^ 37 + 0x6000) ++ leBytes 8 (2 ^ 48 + 2 ^ 24 + 3 * 2 ^ 20 + 0xFFFF) ++ zeros 48),
   (kSTAGEQ + 7, leBytes 8 (2 ^ 63 + 2 ^ 62) ++ leBytes 8 (4 * 2 ^ 48 + 3 * 2 ^ 20 + 0xFFFF) ++ zeros 48)]

def staging : State := running { blobs := stageRecords }

def collecting : State := running (grouped {})

def recorded : State := running { regions := region3 { dups := [{ tag := 1, node := 0, region := 0, gen := 0, status := 0, answer := [], at_ := 0 }] } }

theorem witness_MemoryFramesAreServed :
    (let f := { request opREAD 0x1000 [] with aux := 4096 }; Served (running {}) opREAD f ∧ f.stored = false ∧ 1 ≤ f.aux ∧ f.aux ≤ 4096 ∧ readable (addrOff f.addr) f.aux = true)
    ∧ (let f := request opWRITE 0x4000 [1, 2]; Served (running {}) opWRITE f ∧ writable (addrOff f.addr) f.len = true
        ∧ touchesState (running {}).mod (addrRegion f.addr) (addrOff f.addr) f.len = false)
    ∧ (let f := request opWRITE 0x17F3FFFFFF [1, 2]; Served (running {}) opWRITE f ∧ writable (addrOff f.addr) f.len = false)
    ∧ (let f := request opWRITE 0x1000 [1, 2]; Served (running (blocks 0 {} [])) opWRITE f ∧ touchesState (running (blocks 0 {} [])).mod (addrRegion f.addr) (addrOff f.addr) f.len = true)
    ∧ (let f := { request opSIGNAL 254 [] with aux := 3 }; Served (running {}) opSIGNAL f ∧ addrOff f.addr < 255)
    ∧ (let f := { request opSTAGE 0 (zeros 256) with group := 38 }; Served staging opSTAGE f ∧ 6 = f.group % 32 ∧ queueLive staging.mod 6 = true ∧ (staging.mod.sqRec 6).out = false
        ∧ f.cseq = (staging.mod.sq 6).arrivedN % 2 ^ 24 ∧ (staging.mod.sq 6).arrivedN < (staging.mod.sq 6).freedN + (staging.mod.sqRec 6).slots ∧ f.aux = 0 ∧ 0 < f.len
        ∧ f.len = (staging.mod.sqRec 6).entry * 256 ∧ ∀ k, Tab.find? (staging.mod.sq 6).parts k = none)
    ∧ (let f := { request opCREDIT 0 [] with group := 7, aux := 9 }; badRequest opCREDIT f = false ∧ addrNode f.addr = staging.mod.node ∧ staging.mod.mstate = 2 ∧ 7 = f.group % 32
        ∧ queueLive staging.mod 7 = true ∧ (staging.mod.sqRec 7).peer = f.srcNode ∧ (staging.mod.sqRec 7).out = true ∧ 0 < f.aux)
    ∧ (let f := { request opCREDIT 0 [] with group := 6 }; badRequest opCREDIT f = false ∧ addrNode f.addr = staging.mod.node ∧ 6 = f.group % 32
        ∧ queueLive staging.mod 6 = true ∧ (staging.mod.sqRec 6).peer = f.srcNode ∧ (staging.mod.sqRec 6).out = false ∧ f.aux = 0)
    ∧ (let f := { request opCOLL 0 (zeros 8) with group := 4 }; Served collecting opCOLL f ∧ rankOf (collecting.mod.members f.group) f.srcNode f.srcRegion = none)
    ∧ (let f := { request opCOLL 0 (zeros 8) with group := 5, srcRegion := 3 }; Served collecting opCOLL f ∧ rankOf (collecting.mod.members f.group) f.srcNode f.srcRegion = some 0
        ∧ (collMode f.cop = 3 ∨ f.cop % 4 ≠ 3) ∧ f.fmt ≤ 1 ∧ f.len % collElem f.cop f.fmt = 0 ∧ f.aux ≠ 1 ∧ collRoom collecting.mod (addrRegion f.addr) f.group f.cseq = true)
    ∧ ((recorded.mod.rg 3).dups[0]?.map (fun d => d.applying)) = some false := by
  and_intros <;> first | exact served_of (by decide +kernel) | exact fun _ => rfl | decide +kernel

/-- Region 3 with blocks that expect one contribution, and a norm record of step 0 at 0xA000. -/
def training : State := running (blocks 1 {} [(kNORM_BASE + 3, 0xA000)])

theorem witness_TrainingFramesAreServed :
    (let f := request opACCUM 0x1040 (zeros 1024); Served training opACCUM f ∧ f.fmt ≤ 1 ∧ f.body.length = accBytes f.fmt
        ∧ (blockOfHdr training.mod (addrRegion f.addr) (addrOff f.addr)).map Prod.snd = some 1 ∧ 1 < 2)
    ∧ 1 ≠ (training.mod.normRec 3).step % 2 ^ 32
    ∧ ((running (blocks 0 {} [])).mod.extents 3).map Extent.expect = [0] ∧ 0 = ((running (blocks 0 {} [])).mod.normRec 3).step % 2 ^ 32
    ∧ (∀ e ∈ training.mod.extents 3, (readPart 0 3 5 e 1 pHDR training.mod).2.isSome = true ∧ (readPart 0 3 3 e 1 pHDR training.mod).2.isSome = true
        ∧ (wcOf 0 3 e (partAddr (readPart 0 3 5 e 1 pHDR training.mod).1 3 e 1 pWC) true (readPart 0 3 5 e 1 pHDR training.mod).1).2.isSome = true)
    ∧ (let f := { request opGATHER 0x1300 [] with aux := 1 }; Served training opGATHER f ∧ (blockOfWc training.mod (addrRegion f.addr) (addrOff f.addr)).map Prod.snd = some 1
        ∧ f.aux = 1 ∧ 1 + 1 ≤ 2 ∧ ∀ e ∈ training.mod.extents 3, (training.mod.hdr 3 e 1).relcount < 65535)
    ∧ (let f := { request opREFETCH 0x1100 (zeros 4) with aux := 1 }; Served training opREFETCH f ∧ (blockOfWc training.mod (addrRegion f.addr) (addrOff f.addr)).isSome = true ∧ f.aux = 1)
    ∧ (let f := { request opRELEASE 0x1100 (zeros 4) with aux := 1 }; Served training opRELEASE f ∧ (blockOfWc training.mod (addrRegion f.addr) (addrOff f.addr)).isSome = true ∧ f.aux = 1)
    ∧ (∀ x ∈ [(opGATHER, { request opGATHER 0x1101 [] with aux := 1 }), (opRELEASE, { request opRELEASE 0x1000 (zeros 4) with aux := 1 })],
        badRequest x.1 x.2 = false ∧ blockOfWc training.mod (addrRegion x.2.addr) (addrOff x.2.addr) = none) := by
  and_intros <;> first | exact served_of (by decide +kernel) | decide +kernel

/-- A register of region 0's controller: its sync counter 0. -/
def counterFrame (op : Nat) (body : List Byte) : Frame := { frame op with addr := 0x010 * 2 ^ 16 + 0x2000, len := body.length, body := body, aux := 4 }

def submission : Frame := request opDESC 0 (leBytes 8 (onQueue5 7).w0.toNat ++ leBytes 8 (onQueue5 7).w1.toNat ++ zeros 48)

def holding : State := running { regions := region3 { heldDesc := [(submission, 4000000)] } }

theorem witness_ModuleFramesAreServed :
    (badRequest opDESC submission = false ∧ addrNode submission.addr = accepting.mod.node ∧ 3 = addrRegion submission.addr ∧ accepting.mod.inReset 3 = false
      ∧ (accepting.mod.rg 3).power.pllOff = false ∧ (submission, Via.mesh) ∉ (accepting.mod.rg 3).held ∧ submission.aux % 2 = 0)
    ∧ (badRequest opDESC { submission with aux := 1 } = false ∧ Desc.ofBytes submission.body = onQueue5 7 ∧ (full3.mod.rg 3).heldDesc = [])
    ∧ (Up holding ∧ (holding.mod.rg 3).heldDesc = (submission, 4000000) :: [])
    ∧ (∀ f ∈ [counterFrame opREGRD [], counterFrame opREGWR (zeros 4)], (badRequest opREGRD f = false ∧ f.op = opREGRD ∨ badRequest opREGWR f = false ∧ f.op = opREGWR)
        ∧ addrNode f.addr = (running {}).mod.node ∧ accessOk (f.addr % 2 ^ 41) (regWidth f) = true ∧ domainSilent (running {}).mod (domainOf (regBlock f)) = false
        ∧ domainInReset (running {}).mod (domainOf (regBlock f)) = false ∧ accessWaits (quiet (running {})) .frame f = false)
    ∧ (let f := request opDICT 0 ([1, 1] ++ zeros 22); badRequest opDICT f = false ∧ addrNode f.addr = (running {}).mod.node ∧ leAt f.body 0 1 = 1 ∧ leAt f.body 1 1 = 1
        ∧ (running {}).mod.drone.bandQ.length < 4)
    ∧ (let f := { request opCHANTER 0 [1] with seg := 4094, segs := 4095 }; badRequest opCHANTER f = false ∧ f.seg < f.segs ∧ f.segs ≤ 4095 ∧ addrNode f.addr = (running {}).mod.node
        ∧ (running {}).mod.mstate = 2)
    ∧ (let f := { request opTIMING 0 (zeros 8) with mac := zeros 16 }; badRequest opTIMING f = false ∧ 8 ≤ f.body.length ∧ f.mac.length = 16
        ∧ addrNode f.addr = (running {}).mod.node ∧ Tab.find? (running {}).mod.security.timingSeen f.srcNode = none) := by decide +kernel

theorem witness_ModuleFramesAreServed_full : submitStatus full3.mod 3 (Desc.ofBytes submission.body) = 7 := by
  rw [show Desc.ofBytes submission.body = onQueue5 7 by decide +kernel]
  exact witness_SubmissionChecks_full

/-- One request of region 3 under tag 7. -/
def asked (q : Req) (pool : List PoolReq) : State := running { fabric := { reqs := [q] }, cuts := { pool := pool } }

def readAsked : Req := { tag := 7, holder := 3, owner := .flight 0 0, ctxGen := 1, frame := frame opREAD, sentAt := 4950000 }

def answer (op : Nat) : Frame := { frame op with rsp := true }

def tagWaits : State := running { fabric := { waiting := [{ holder := 3, owner := .none, ctx := 0, since := 0, frame := frame opREAD }] } }

theorem witness_ResponsesReachTheirOwner :
    (goodResponse (answer opREAD) ∧ (answer opREAD).srcNode = (asked readAsked []).mod.node ∧ (asked readAsked []).mod.fabric.reqs.find? (fun y => y.tag == 7) = some readAsked
      ∧ readAsked.frame.op = (answer opREAD).op ∧ rspAgrees readAsked.frame (answer opREAD) = true ∧ lateFor (asked readAsked []).mod readAsked (answer opREAD) = false)
    ∧ (let q := { readAsked with frame := frame opPOOL }
      let f := { answer opPOOL with len := 16, body := zeros 16 }
      goodResponse f ∧ f.op = opPOOL ∧ q.frame.op = f.op ∧ rspAgrees q.frame f = true ∧ lateFor (asked q []).mod q f = false)
    ∧ (let f := { answer opREAD with len := 4, body := zeros 4 }
      goodResponse f ∧ readAsked.frame.op = f.op ∧ rspAgrees readAsked.frame f = false ∧ lateFor (asked readAsked []).mod readAsked f = false)
    ∧ (let q := { readAsked with ctxGen := 0 }; (asked q []).mod.fabric.reqs.find? (fun y => y.tag == 7) = some q ∧ q.holder < 16 ∧ q.ctx < 8 ∧ (asked q []).mod.cgen q.holder q.ctx ≠ q.ctxGen)
    ∧ (running {}).mod.fabric.reqs.find? (fun y => y.tag == 7) = none ∧ { answer opREAD with gen := 1 }.gen ≠ (asked readAsked []).mod.holderGen 3
    ∧ { answer opREAD with srcNode := 1 }.srcNode ≠ (running {}).mod.node
    ∧ ((answer opPOOL).rsp = true ∧ (answer opPOOL).op = opPOOL) ∧ Served (running {}) opPOOL (request opPOOL 0 (zeros 16))
    ∧ (3 < 18 ∧ (tagWaits.mod.fabric.waiting.find? (fun x => x.holder == 3)).isSome = true ∧ tagWaits.mod.newTag 3 = some 24576
        ∧ ∀ w ∈ tagWaits.mod.fabric.waiting, w.frame.rsp = false ∧ addrNode w.frame.addr = tagWaits.mod.node)
    ∧ tagWaits.mod.fabric.waiting.find? (fun x => x.holder == 17) = none
    ∧ ((running {}).mod.newTag 16 = some 261120 ∧ (running {}).mod.newTag 17 = some 261120) := by
  and_intros <;> first | exact served_of (by decide +kernel) | decide +kernel

def poolReq (kind : Nat) : PoolReq := { k := 5, kind := kind, region := 3, item := 0, off := 0, node := 8, body := [] }

/-- A pool request of a kind that waits under tag 7. -/
def pooled (kind : Nat) : State := asked { readAsked with frame := frame opPOOL, owner := .pool 5 } [poolReq kind]

def quarantined : State := running { fabric := { quarantine := [(7, 5100000)] } }

theorem witness_RequestsTimeOut :
    (Up (asked readAsked []) ∧ (asked readAsked []).mod.fabric.reqs.find? (fun y => y.tag == 7) = some readAsked ∧ readAsked.parked = false ∧ poolOf (asked readAsked []).mod 7 = none)
    ∧ (Up quarantined ∧ quarantined.mod.fabric.quarantine.find? (fun x => x.1 == 7) = some (7, 5100000))
    ∧ (goodResponse (answer opREAD) ∧ (answer opREAD).srcNode = quarantined.mod.node ∧ ∀ q ∈ quarantined.mod.fabric.reqs, q.tag ≠ (answer opREAD).tag)
    ∧ (Up (pooled 1) ∧ ((pooled 1).mod.fabric.reqs.find? (fun y => y.tag == 7)).map (fun q => (q.frame.op, q.parked)) = some (opPOOL, false)
        ∧ (poolOf (pooled 1).mod 7).map Prod.snd = some (poolReq 1) ∧ (poolReq 1).tries < 8) := by decide +kernel

/-- Region 3 with one shard to drain, of the extent of `blocks`; `errs` are sector errors; its reserve table starts at 0. -/
def cutting (errs : Tab (Tab Nat)) : State :=
  let m := blocks 0 { cut := { shards := [(0, 0)] } } [(kCUT_STATE, 1)]
  running { m with regions := m.regions.map (fun x => (x.1, { x.2 with stack := { x.2.stack with errs := errs, codes := [(0, 0), (1, 0)] } })) }

def drainedAll : State := running { nums := [(kCUT_STATE, 1)] }

/-- A pool request of an older generation of its region. -/
def poolAged : State := asked { readAsked with gen := 255, frame := frame opPOOL, owner := .pool 5 } [poolReq 1]

theorem witness_PoolDrainsAndReplies_late : (∀ x ∈ poolCommands, ∀ k ∈ x.1, poolLate (pooled k).mod 7 = false) ∧ poolLate (running {}).mod 7 = false ∧ poolLate poolAged.mod 7 = true
    ∧ (let s := cutting []; ({ s with mod := s.mod.setNum kMODULE_STATE 1 } : State).mod.mstate ≠ 2 ∧ s.mod.mstate = 2)
    ∧ (let s := running { regions := region3 { cut := { shards := [(0, 0)] } } }; nextShard s.mod 3 = some (0, 0) ∧ s.mod.mstate = 2 ∧ s.mod.extent? 3 0 = none) := by decide +kernel

theorem witness_PoolDrainsAndReplies :
    (∀ x ∈ poolCommands, ∀ k ∈ x.1, (poolOf (pooled k).mod 7).map Prod.snd = some (poolReq k)) ∧ poolOf (running {}).mod 7 = none
    ∧ (noReply.pstatus = 0 ∧ { noReply with pstatus := 2 }.pstatus ≠ 0) ∧ nextShard (running {}).mod 3 = none
    ∧ (let s := cutting []; nextShard s.mod 3 = some (0, 0) ∧ (s.mod.extent? 3 0).isSome = true ∧ s.mod.num kCUT_STATE = 1 ∧ (s.mod.rg 3).cut.drain = none
        ∧ (s.mod.rg 3).cut.failed = false ∧ ∀ e ∈ s.mod.extents 3, needsWriteBack s.mod 3 e = false ∧ ∀ b, b < min 4096 (e.blocks - 0) → (s.mod.hdr 3 e (0 + b)).pending = false)
    ∧ drainEnded (running {}).mod = false ∧ drainEnded drainedAll.mod = true := by decide +kernel

theorem witness_PoolDrainsAndReplies_shard :
    (∀ e ∈ (cutting []).mod.extents 3, (shardBody 5000000 3 e 0 2 (quiet (cutting []))).2.isSome = true)
    ∧ (∀ e ∈ (cutting []).mod.extents 3, (shardBody 5000000 3 e 0 2 (quiet (cutting [(0, [(0, 1), (1, 1)])]))).2 = none)
    ∧ (poolSend 5000000 3 1 0 0 ((cutting []).mod.snapNum kPOOL_NODE) (zeros 32) (cutting []).mod).2 = true := by decide +kernel

def cutPending : State := running { nums := [(kSNAP_POLICY, 1), (kCUT_AT, 9)] }

def restoring (st : Nat) (bad : List (Nat × Nat)) : State := running { nums := [(kRESTORE_STATUS, st)], cuts := { passed := true, bad := bad } }

theorem witness_CutsAndRestores :
    (running {}).mod.snapNum kSNAP_POLICY = 0
    ∧ (cutPending.mod.snapNum kSNAP_POLICY ≠ 0 ∧ 0 ≤ cutPending.mod.stepClosed ∧ cutPending.mod.stepClosed < 1 ∧ cutPending.mod.num kCUT_AT ≠ 0 ∧ cutPending.mod.num kCUT_AT < 10
        ∧ (cutPending.mod.num kCUT_AT = 0 ∨ 9 ≤ cutPending.mod.num kCUT_AT))
    ∧ ((accepted.mod.work 3).flights ≠ [] ∧ 1 < 2)
    ∧ (∀ r, r < 16 → ((running {}).mod.work r).flights = [])
    ∧ (poolSend 5000000 16 7 0 0 ((running {}).mod.snapNum kPOOL_NODE) (poolHeader 3 0 0 0 ((running {}).mod.blob kRESTORE_KEY)) ((((quiet (running {})).setNum kRESTORE_STATUS 1).setBlob kRESTORE_BAD []).modCuts
        (fun c => { c with pool := c.pool.filter (fun p => p.kind ≠ 7), mode := (running {}).mod.num kRESTORE_MODE, restore := [], data := [], next := 0, passed := false, bad := [], resync := [], toSkip := [] }))).2 = true
    ∧ ((restoring 1 [(3, 0)]).mod.num kRESTORE_STATUS = 1 ∧ (restoring 1 [(3, 0)]).mod.cuts.passed = true ∧ (restoring 1 [(3, 0)]).mod.cuts.bad ≠ [])
    ∧ ((restoring 1 []).mod.num kRESTORE_STATUS = 1 ∧ (restoring 1 []).mod.cuts.passed = true ∧ (restoring 1 []).mod.cuts.bad = [])
    ∧ ((restoring 2 []).mod.num kRESTORE_STATUS = 2 ∧ (restoring 2 []).mod.cuts.passed = true)
    ∧ ((running {}).mod.num kRESTORE_STATUS ≠ 1 ∧ (running {}).mod.cuts.passed = false) := by decide +kernel

/-- Region 3 with a tier table at 0x400 of one entry in a state, with KEY (R145). -/
def tiered (st : Byte) (key : List Byte) (t : Tier) : State :=
  let cells : List Host.Cell := [(0x406, 4), (0x447, st * 32)] ++ (List.range 16).map (fun i => (0x448 + i, key.getD i 0))
  running { nums := [(kTIER_CFG + 3, 0x400)], regions := region3 { tier := t, stack := { codes := [(4, 0)], data := cells } } }

/-- The first 16 bytes of SHAKE256 of no bytes (FIPS 202). -/
def noDigest : List Byte := [0x46, 0xB9, 0xDD, 0x2B, 0x0B, 0xA8, 0x8D, 0x13, 0x23, 0x3B, 0x3F, 0xEB, 0x74, 0x3E, 0xEB, 0x24]

theorem test_digest : (shake256 32 []).take 16 = noDigest := by decide +kernel

/-- A restore left entry 0 of region 3 to fetch the object of its present parts first. -/
theorem witness_TierCommands_fix : (let f : TierFix := { old := noDigest, acts := [1] }
      let s := tiered 1 (zeros 16) { recalls := [{ entry := 0, full := true }], fixes := [(0, f)] }
      Tab.find? (s.mod.rg 3).tier.fixes 0 = some f ∧ f.old ≠ [] ∧ recallKey s.mod 3 0 = noDigest)
    ∧ (let f : TierFix := { acts := [1] }
      let s := tiered 1 noDigest { recalls := [{ entry := 0, full := true }], fixes := [(0, f)] }
      Tab.find? (s.mod.rg 3).tier.fixes 0 = some f ∧ f.old = [] ∧ recallKey s.mod 3 0 = noDigest)
    ∧ Tab.find? ((tiered 1 noDigest {}).mod.rg 3).tier.fixes 0 = none ∧ recallKey (tiered 1 (zeros 16) {}).mod 3 0 ≠ noDigest := by decide +kernel

theorem witness_TierCommands :
    (let s := tiered 1 noDigest { recalls := [{ entry := 0, full := true }] };
      (∃ x, (s.mod.rg 3).tier.recalls.find? (fun y => y.entry == 0) = some x ∧ x.full = true ∧ (shake256 32 x.data).take 16 = (s.mod.tierEnt 3 0).key)
        ∧ noDigest ≠ ((tiered 1 (zeros 16) {}).mod.tierEnt 3 0).key)
    ∧ (let s := tiered 1 noDigest { recalls := [{ entry := 0, full := true }] }
      let m := (quiet s).modTier 3 (fun y => { y with recalls := y.recalls.filter (fun x => x.entry ≠ 0) })
      (placeObject s.time 3 8 (frameAt m 3 (s.mod.tierEnt 3 0)) (coldSlots (s.mod.tierEnt 3 0)) [] m).2 = true)
    ∧ (let t : Tier := { deadlines := [(0, 5000000)] };
      (Tab.find? ((tiered 0 [] t).mod.rg 3).tier.deadlines 0 = some 5000000 ∧ ((tiered 0 [] t).mod.tierEnt 3 0).state < 2
        ∧ (∀ x ∈ ((tiered 0 [] t).mod.work 3).flights, x.d.cls ≠ 5) ∧ ((tiered 2 [] t).mod.tierEnt 3 0).state = 2 ∧ ((tiered 4 [] t).mod.tierEnt 3 0).state = 4
        ∧ ((tiered 5 [] t).mod.tierEnt 3 0).state = 5))
    ∧ ((running {}).mod.num (kTIER_CFG + 3) = 0 ∧ ((tiered 2 [] {}).mod.tierEnt 3 0).state ≠ 3)
    ∧ (let s := tiered 3 [] {}
      let m := setTier s.time 3 0 { s.mod.tierEnt 3 0 with state := 4 } (quiet s)
      s.mod.num (kTIER_CFG + 3) ≠ 0 ∧ (s.mod.tierEnt 3 0).state = 3
        ∧ (storedObject s.time 3 8 (frameAt m 3 (s.mod.tierEnt 3 0)) (coldSlots (s.mod.tierEnt 3 0)) m).2.isSome = true
        ∧ (poolPut s.time 3 4 0 (m.tierHdr 3).pool (zeros 16) [] m).2 = true) := by
  refine ⟨⟨⟨_, rfl, rfl, by decide +kernel⟩, by decide +kernel⟩, by decide +kernel, by decide +kernel, by decide +kernel, by decide +kernel⟩

/-- The entry of `tiered` with one block, so that its object has slots, in a frame at 0x4000 whose metadata sector cannot be
read. -/
def unwritable : State :=
  let s := tiered 1 noDigest { recalls := [{ entry := 0, full := true }] }
  { s with mod := s.mod.modStack 3 (fun k => { k with data := Tab.set 0 (Tab.set 0 k.data 0x445 0x80) 0x401 0x40, errs := [(metaSector 64, [(0, 1), (1, 1)])] }) }

/-- What writing its object finds. -/
def placedIn (s : State) : Bool :=
  let m := (quiet s).modTier 3 (fun y => { y with recalls := y.recalls.filter (fun x => x.entry ≠ 0) })
  (placeObject s.time 3 8 (frameAt m 3 (s.mod.tierEnt 3 0)) (coldSlots (s.mod.tierEnt 3 0)) [] m).2

theorem witness_TierCommands_unwritable : (unwritable.mod.tierEnt 3 0).key = noDigest ∧ placedIn unwritable = false :=
  ⟨by decide +kernel, placeObject_first_fails (by decide +kernel) (by decide +kernel)⟩

def linked (p : Nat) (x : PortSt) : State := running { nums := [(kPORT_STATE + p, 2)], ports := [(p, x)] }

def unacked (k : Nat) : PortSt := { unacked := [(8, frame 5, 4000000), (9, frame 5, 4000000)], replayed := [(8, k)], ackDue := true, ackAt := 5000000, recvSeq := 4095 }

theorem witness_LinksDeliverInOrder :
    (87 < 96 ∧ Up (linked 87 (unacked 0)) ∧ (linked 87 (unacked 0)).mod.linked 87 = true
      ∧ ((linked 87 (unacked 0)).mod.port 87).unacked = [(8, frame 5, 4000000)] ++ (9, frame 5, 4000000) :: [] ∧ ∀ u ∈ [(8, frame 5, 4000000)], u.1 ≠ 9)
    ∧ ((running {}).mod.linked 88 = false ∧ ∀ u ∈ ((linked 87 (unacked 0)).mod.port 87).unacked, u.1 ≠ 10)
    ∧ (((linked 87 (unacked 0)).mod.port 87).unacked = (8, frame 5, 4000000) :: [(9, frame 5, 4000000)] ∧ ((linked 87 (unacked 3)).mod.port 87).replays < 4
        ∧ 4 ≤ ((linked 87 (unacked 4)).mod.port 87).replays)
    ∧ (3 < 4 ∧ ((linked 87 {}).mod.port 87).waiting = [])
    ∧ ((linked 87 (unacked 0)).mod.protectsPort 87 = false ∧ (frame 5).enc = false ∧ (frame 5).auth = false)
    ∧ (((linked 87 (unacked 0)).mod.port 87).nakSent = false
        ∧ 2048 < (((linked 87 (unacked 0)).mod.port 87).recvSeq + 4096 - (6142 : Nat) % 4096) % 4096)
    ∧ ((linked 87 (unacked 0)).mod.port 87).ackDue = true := by decide +kernel

def portIn (p st : Nat) (x : PortSt) : State := running { nums := [(kPORT_STATE + p, st)], ports := [(p, x)] }

theorem witness_PortStates :
    (95 < 96 ∧ (linked 95 {}).mod.up 95 = true ∧ ((linked 95 {}).mod.port 95).unacked = [] ∧ ((linked 95 {}).mod.port 95).waiting = [] ∧ (running {}).mod.portState 95 = 0)
    ∧ ((portIn 0 1 {}).mod.portState 0 = 1 ∧ wiredRight (portIn 0 1 {}).mod 0 1 0 = true ∧ wiredRight (portIn 0 1 {}).mod 0 2 0 = false ∧ (portIn 0 1 {}).mod.protectsPort 0 = false ∧ 0 < 88 ∧ (portIn 0 1 {}).mod.protectsEdge = false
        ∧ ((portIn 0 1 { attempts := 1 }).mod.port 0).attempts < 2 ∧ 2 ≤ ((portIn 0 1 { attempts := 2 }).mod.port 0).attempts)
    ∧ (87 < 88 ∧ (linked 87 {}).mod.dieInReset (portDie 87) = false ∧ (linked 87 {}).mod.portState 87 ≠ 3 ∧ (linked 87 {}).mod.portState 87 ≠ 4)
    ∧ (let s := running { nums := [(kPORT_STATE + 94, 2), (kPORT_STATE + 95, 2)] }; 88 ≤ 95 ∧ s.mod.dieInReset 0 = false ∧ ∀ q ∈ disabledWith 95, s.mod.portState q = 2)
    ∧ ((portIn 87 4 {}).mod.dieInReset (portDie 87) = false ∧ (portIn 87 4 {}).mod.portState 87 = 4)
    ∧ ((portIn 87 3 {}).mod.portState 87 = 3 ∧ ((portIn 87 3 {}).mod.port 87).unacked = [] ∧ ((portIn 87 3 {}).mod.port 87).waiting = [] ∧ ((portIn 87 3 {}).mod.port 87).enableAfter = false
        ∧ FirstOf (portIn 87 3 {}).mod 11 4 srcDrone) := by decide +kernel

/-- Interface 3 up in a role, UDP port 4000. -/
def edged (role : Nat) (x : EdgeSt) : State :=
  running { nums := [(kEDGE_ROLE + 3, role), (kPORT_STATE + 94, 2), (kPORT_STATE + 95, 2), (kKG_UDP_PORT, 4000), (kHOST_NODE, 8)], edges := [(3, x)] }

theorem witness_EdgeInterfaces :
    (3 < 4 ∧ (edged 1 {}).mod.edgeUp 3 = true ∧ (edged 1 {}).mod.edgeRole 3 ≠ 0 ∧ 0 ≠ (edged 1 {}).mod.num kKG_UDP_PORT)
    ∧ (4000 = (edged 1 {}).mod.num kKG_UDP_PORT ∧ (edged 1 {}).mod.protectsEdge = false ∧ (frame 5).enc = false ∧ (frame 5).auth = false ∧ (edged 1 {}).mod.edgeRole 3 ≠ 2)
    ∧ (∀ d, ((((edged 1 { reasm := [{ node := 8, msg := 1, first := 0, segs := 2, parts := [], dead := d }] }).mod.edge 3).reasm.find? (fun a => a.isOf 8 1)).map (fun a => a.dead)) = some d)
    ∧ (((edged 1 { smooth := [(8, zeros 64)] }).mod.edge 3).smooth = (8, zeros 64) :: [] ∧ (chOfBytes (zeros 64)).flags.testBit 1 = false)
    ∧ ((edged 1 {}).mod.edge 3).smooth = [] ∧ ((running { drone := { plcaId := 0xFF } }).mod.drone.plcaId = 0xFF ∧ (running { drone := { plcaId := 0 } }).mod.drone.plcaId ≠ 0xFF) := by decide +kernel

/-- A bridge with one ring of 16 entries (LOG2SIZE 4), HEAD 0xFFFFF, and a completion doorbell in flight. -/
def bridging (x : RingSt) : State := running { nums := [(kMODULE_ROLE, 1), (kHOST_NODE, 8)], bridge := { rings := [(255, { x with log2 := 4, head := 0xFFFFF })], doorbellBusy := [8191] } }

theorem witness_DoorbellsAreSafeToRepeat : 255 < 256 ∧ Up (bridging {}) ∧ (bridging {}).mod.num kMODULE_ROLE = 1 ∧ (bridging {}).mod.dieInReset 0 = false
    ∧ (let x := (bridging {}).mod.ring 255; 2 ^ x.log2 < (16 % 2 ^ 20 + 2 ^ 20 - x.head % 2 ^ 20) % 2 ^ 20 ∧ (15 % 2 ^ 20 + 2 ^ 20 - x.head % 2 ^ 20) % 2 ^ 20 ≤ 2 ^ x.log2) := by
  decide +kernel

def readyRing (kind : Nat) : State := bridging { enable := true, kind := kind, tail := 0 }

/-- A ready management ring in region 3 whose entry reads 4 bytes at register address 0 of node 0: OP 0x0B, WIDTH 4 (R275). -/
def mgmtRing : State :=
  let s := bridging { enable := true, kind := 1, tail := 0, base := 3 * 2 ^ 37 }
  { s with mod := { s.mod with regions := region3 { stack := { codes := [(7, 0)], data := [(0x780, 0x0B), (0x784, 4)] } } } }

theorem witness_RingsForwardTheirEntries :
    ringReady (running {}).mod 255 = false ∧ ((readyRing 1).mod.ring 255).kind ≠ 0
    ∧ (ringReady (readyRing 0).mod 255 = true ∧ ((readyRing 0).mod.ring 255).kind = 0
        ∧ (let x := (readyRing 0).mod.ring 255; (memRead 5000000 (spaceRegion x.entryAt) 5 (spaceOff x.entryAt) 64 (quiet (readyRing 0))).2.1 = 0))
    ∧ ((bridging { inFlight := some 3 }).mod.ring 255).inFlight = some 3 ∧ (running {}).mod.num kMODULE_ROLE ≠ 1 ∧ (bridging {}).mod.num kMODULE_ROLE = 1
    ∧ (7 < 8 ∧ 15 < 16 ∧ 63 < 64 ∧ 2 ^ 25 - 1 < 2 ^ 25 ∧ doorbellNo 7 15 63 ∈ (bridging {}).mod.bridge.doorbellBusy ∧ doorbellNo 0 15 63 ∉ (bridging {}).mod.bridge.doorbellBusy
        ∧ (bridging {}).mod.newTag 17 = some 261120 ∧ (bridging {}).mod.node = (bridging {}).mod.node / 8 * 8 + 0 ∧ (bridging {}).mod.node < 32768)
    ∧ (let x := mgmtRing.mod.ring 255
      let a := memRead mgmtRing.time (spaceRegion x.entryAt) 5 (spaceOff x.entryAt) 64 (quiet mgmtRing)
      ringReady mgmtRing.mod 255 = true ∧ x.kind = 1 ∧ a.2.1 = 0 ∧ (mgmtOf a.2.2).op = opREGRD ∧ (mgmtOf a.2.2).tnode = mgmtRing.mod.node ∧ (mgmtOf a.2.2).tnode ≠ (running { nums := [(kNODE_ID, 3)] }).mod.node
        ∧ (mgmtFrame (a.1.modRing 255 (fun x => { x with inFlight := some x.head })) (mgmtOf a.2.2) []).isSome = true)
    ∧ (let s := edged 2 { hostRx := [frame opREGWR], hostDups := [(7, 8, 2, 0)] }
      let f := { frame opREGWR with srcNode := 8 }
      s.mod.edgeRole 3 = 2 ∧ (frame opREGWR).sender ≠ s.mod.num kHOST_NODE ∧ f.sender = s.mod.num kHOST_NODE ∧ f.srcNode = s.mod.num kHOST_NODE
        ∧ (let a := { frame opDICT with rsp := true, addr := 8 * 2 ^ 41 }; a.sender = s.mod.num kHOST_NODE ∧ a.srcNode = s.mod.node) ∧ addrNode f.addr = s.mod.node
        ∧ { f with addr := 2 ^ 41 }.dest ≠ s.mod.node ∧ f.rsp = false ∧ hostOp f.op = true ∧ hostOp opACCUM = false ∧ f.retry = false
        ∧ (recordedOp f = true ∧ recordedOp (frame opREGRD) = false ∧ hostRoom s.mod 3 = true) ∧ ((edged 2 { hostHeld := [f] }).mod.edge 3).hostHeld ≠ [] ∧ f.op = opREGWR ∧ hostRecord s.mod 3 { f with retry := true } = some 2
        ∧ (s.mod.edge 3).hostDups[0]? = some (7, 8, 2, 0) ∧ (s.mod.edge 3).hostHeld = []) := by decide +kernel

/-! ### Chanter, updates, upkeep, power -/

def chanting (fstate : Nat) (c : Chanter) : State := running { nums := [(kCHANTER_FSTATE, fstate), (kLH_RATE_MBPS, 16), (kEXCH_POLICY, 2)], chanter := c }

/-- Region 3 with an exchange table at 0x200 that gives its blocks the global indices 0 and 1 (R203), OUTER_RND 9 in header 0, and held position 1. -/
def exchanging (nums : Tab Nat) (c : Chanter) : State :=
  let cells : List Host.Cell := [(0x106, 8), (0x141, 0x10), (0x149, 0x80), (0x14D, 2), (0x20C, 1), (0x102C, 9)]
  running (takeXch 3 (takeShard 3
    { nums := [(kSHARD_CFG + 3, 0x100), (kXCH_CFG + 3, 0x200), (kXBUF_BYTES + 3, 4096)] ++ nums, chanter := c,
      regions := region3 { xch := { heldPos := [1] }, stack := { codes := [(1, 0), (2, 0), (16, 0)], data := cells } },
      blobs := [(kHOME_TABLE, [1, 0] ++ zeros 22 ++ [2, 0, 0, 0, 0, 0, 0, 0]),
                (kSITE_LAYOUT, [1, 0] ++ zeros 14 ++ [2, 0, 0, 0, 1, 0, 0, 0, 5, 0])] }))

/-- A STATE fragment of block 0 of region 3. -/
def stateMsg : ChMsg := { noChMsg with type := 3, codec := 0xF, dstRegion := 3, gstride := 1, count := 1, len := 1024, body := zeros 1024 }

theorem witness_MessagesAndStreams :
    (∀ p ∈ messageCommands, { noChMsg with type := p.1 }.type = p.1 ∧ { noChMsg with type := 0 }.type ≠ p.1)
    ∧ (NotWaiting (chanting 1 {}) 8 noChMsg ∧ (chanting 1 {}).mod.num kCHANTER_FSTATE ≠ 0 ∧ (chanting 0 {}).mod.num kCHANTER_FSTATE = 0 ∧ (chanting 0 {}).mod.mstate = 2 ∧ (up {}).mod.mstate ≠ 2
        ∧ noChMsg.len = 0 ∧ noChMsg.body = [] ∧ stateMsg.len ≠ 0)
    ∧ msgBlocks (running {}).mod noChMsg = none ∧ (msgBlocks (exchanging [] {}).mod stateMsg).isSome = true
    ∧ (let k := msgKey 8 stateMsg
        let m := (exchanging [] { recvs := [(k, { node := 8, type := 3, region := 3, cum := 1 })] }).mod
        (msgBlocks m stateMsg).isSome = true ∧ (m.recv k).handled stateMsg.seq = true ∧ (m.recv k).handled 1 = false ∧ (m.recv k).fresh < 31)
    ∧ (∀ e ∈ (exchanging [] {}).mod.extents 3, 7 < ((exchanging [] {}).mod.hdr 3 e 0).outerRnd - noChMsg.origin)
    ∧ (nextFrag (chanting 0 { streams := [(5, { node := 8, frags := [{ msg := noChMsg }] })] }).mod 5).isSome = true
    ∧ (rtoFrag (chanting 0 { streams := [(5, { node := 8, frags := [{ msg := noChMsg, sentAt := some 0, sends := 1 }] })] }).mod 5 0).isSome = true
    ∧ (63 < 64 ∧ shareOf (chanting 0 { share := [(63, 15)] }).mod 63 < (chanting 0 { share := [(63, 15)] }).mod.num kLH_RATE_MBPS)
    ∧ (ackOwed (chanting 0 { recvs := [(msgKey 8 stateMsg, { node := 8, stream := 5, fresh := 1 })] }).mod 8 5).isSome = true
    ∧ (Tab.find? (chanting 0 { heard := [(8, 0)] }).mod.chanter.heard 8 = some 0 ∧ Tab.find? (chanting 0 { heard := [(8, 0)] }).mod.chanter.held 8 = none)
    ∧ (Tab.find? (chanting 0 { held := [(8, 0)] }).mod.chanter.held 8).isSome = true
    ∧ ((chanting 0 {}).mod.chSends = true ∧ (chanting 1 {}).mod.chSends = false ∧ heldSince (chanting 0 { held := [(8, 9)] }).mod 8 = some 9)
    ∧ (8 ∈ (exchanging [] {}).mod.siteNodes 2 ∨ (exchanging [] {}).mod.siteOf 8 = 0) := by decide +kernel

def roundOpen : Module := (exchanging [(kROUND, 5), (kQUORUM, 64), (kEXCH_POLICY, 2)] { due := true, holdUntil := some 6000000, deadline := some 6000000 }).mod

theorem witness_RoundsEnd :
    roundOpen.chanter.deadline = some 6000000 ∧ openRound (running {}).mod = none ∧ (running {}).mod.num kEXCH_POLICY = 0
    ∧ (openRound (exchanging [(kROUND, 5), (kEXCH_POLICY, 2)] { due := true }).mod = some 5 ∧ (exchanging [(kROUND, 5), (kEXCH_POLICY, 2)] { due := true }).mod.roundNum kQUORUM
        ≤ quorumNow (exchanging [(kROUND, 5), (kEXCH_POLICY, 2)] { due := true }).mod)
    ∧ (roundOpen.num kCHANTER_FSTATE = 0 ∧ roundOpen.num kEXCH_POLICY ≠ 1 ∧ quorumNow roundOpen < roundOpen.roundNum kQUORUM ∧ roundOpen.chanter.due = true
        ∧ roundOpen.chanter.holdUntil = some 6000000 ∧ openRound roundOpen = some 5 ∧ roundOpen.env.droneUp = true)
    ∧ (roundOpen.mstate = 2 ∧ (roundOpen.blocksOf 3)[1]?.isSome = true ∧ 1 ∈ (roundOpen.rg 3).xch.heldPos ∧ roundOpen.num kEXCH_POLICY ≠ 0
        ∧ (∀ e ∈ roundOpen.extents 3, (roundOpen.hdr 3 e 1).isOpen = false ∧ homeNode roundOpen (roundOpen.gidx 3 e 1) = some 5
            ∧ (roundOpen.hdr 3 e 1).adoptRnd = Tab.get 0 roundOpen.chanter.outer 5)
        ∧ heldSince roundOpen 5 = none ∧ deltaRoom roundOpen 3 (payloadLen (roundOpen.rg 3).xch.codec (roundOpen.rg 3).xch.k) = true)
    ∧ 0 ∉ (roundOpen.rg 3).xch.heldPos ∧ (chanting 1 {}).mod.num kCHANTER_FSTATE ≠ 0 := by decide +kernel

theorem witness_AlignmentIsLostAndFound :
    (let s := running { nums := [(kALIGN_OK, 1)] }; Up s ∧ s.mod.num kALIGN_OK = 1 ∧ FirstOf s.mod 4 1 srcChanter) ∧ (running {}).mod.num kALIGN_OK = 0
    ∧ (let s := running { nums := [(kTIME_ALIGN, 1), (kTIME_REF, 8)] }; s.mod.mstate = 2 ∧ s.mod.roundNum kTIME_ALIGN = 1 ∧ s.mod.roundNum kTIME_REF ≠ s.mod.node)
    ∧ ((up {}).mod.mstate ≠ 2 ∧ (running {}).mod.roundNum kTIME_ALIGN ≠ 1 ∧ (running {}).mod.roundNum kTIME_REF = (running {}).mod.node) := by decide +kernel

/-- A TIMING frame of node 8, the reference, with the time of its last one. -/
def timingFrame (t : Nat) : Frame := { request opTIMING 0 (leBytes 8 t) with mac := zeros 16, srcNode := 8 }

def aligning : State :=
  running { nums := [(kTIME_ALIGN, 1), (kTIME_REF, 8)], chanter := { exchange := some 3 }, security := { timingSeen := [(8, leBytes 8 1000)] } }

theorem witness_AlignmentIsLostAndFound_confirmed : (∀ t ∈ [999, 1002], let f := timingFrame t
      badRequest opTIMING f = false ∧ 8 ≤ f.body.length ∧ f.mac.length = 16 ∧ addrNode f.addr = aligning.mod.node ∧ f.srcNode = aligning.mod.roundNum kTIME_REF
        ∧ Tab.find? aligning.mod.security.timingSeen f.srcNode = some (leBytes 8 1000))
    ∧ (leNat (leBytes 8 1000) ≤ priorTx (timingFrame 999) + 1 ∧ priorTx (timingFrame 999) ≤ leNat (leBytes 8 1000) + 1)
    ∧ ¬(leNat (leBytes 8 1000) ≤ priorTx (timingFrame 1002) + 1 ∧ priorTx (timingFrame 1002) ≤ leNat (leBytes 8 1000) + 1) ∧ aligning.mod.chanter.exchange = some 3 := by decide +kernel

/-- An update descriptor of both blocks of extent 0 in step 0, or with STEP given; its program stores W as it is (R166, R182). -/
def updDesc (step : Nat) : Desc := desc (5 <<< 60) 0 (BitVec.ofNat 64 (2 ^ 60)) (BitVec.ofNat 64 (2 * 2 ^ 16)) (BitVec.ofNat 64 step) (BitVec.ofNat 64 0xC000)

def updFlight (step : Nat) : Flight := { dispatchedOf (updDesc step) with prog := leBytes 8 1 ++ leBytes 8 (2 ^ 58 + 17 * 2 ^ 48 + 2 ^ 29) }

/-- Region 3 with an update in flight, the norm record at 0xA000 in state 1, commits, and SHADOW_COUNT. -/
def updating (step : Nat) (cs : List Commit) (shadow : Nat) : State :=
  let cells : List Host.Cell := [(0x106, 8), (0x141, 0x10), (0x146, 1), (0x149, 0x80), (0x14D, 2), (0xA01C, 1)]
  running (takeShard 3
    { nums := [(kSHARD_CFG + 3, 0x100), (kNORM_BASE + 3, 0xA000), (kSHADOW_COUNT + 3, shadow)],
      regions := region3 (flying (updFlight step) { train := { commits := cs }, stack := { codes := [(1, 0), (0xA0, 0)], data := cells } }) })

def skipCommit : Commit := { kind := 5, flight := 1, step := 1 }

theorem updating_ready (step shadow : Nat) (cs : List Commit) : Ready (updating step cs shadow) 3 0 (updFlight step) :=
  ⟨by decide, rfl, rfl, rfl, rfl, fun h => absurd (show (64 : Nat) = 0 from h) (by decide)⟩

/-- An adoption that the helper left from an older generation. -/
def agedCommit : Commit := { kind := 2, chGen := 255 }

/-- `updating` with the norm record in a slot of a reserved code. -/
def normLost : State := let s := updating 0 [] 1; { s with mod := s.mod.modStack 3 (fun k => { k with codes := [(1, 0), (0xA0, 9)] }) }

theorem witness_BlocksAreCommitted_unread :
    (Ready normLost 3 0 (updFlight 0) ∧ (readRecord 5000000 3 3 (normLost.mod.num (kNORM_BASE + 3)) 32 (quiet normLost)).2 = false)
    ∧ (let s := updating 0 [agedCommit] 1; s.mod.commit? 3 0 = some agedCommit ∧ (s.mod.extent? 3 0).isSome = true ∧ s.mod.num kCHANTER_FSTATE = 0 ∧ agedCommit.flight = 0
        ∧ agedCommit.chGen ≠ s.mod.num kCHANTER_GEN)
    ∧ ((readTier 0 3 0 (tiered 2 [] {}).mod).2 = true ∧ (readTier 0 3 0 ((tiered 2 [] {}).mod.modStack 3 (fun k => { k with codes := [(4, 9)] }))).2 = false) :=
  ⟨⟨⟨by decide, rfl, rfl, rfl, rfl, fun h => absurd (show (64 : Nat) = 0 from h) (by decide)⟩, by decide +kernel⟩, by decide +kernel, by decide +kernel⟩

theorem witness_BlocksAreCommitted :
    (Ready (updating 0 [] 0) 3 0 (updFlight 0) ∧ (updFlight 0).d.cls = 5 ∧ (readRecord 5000000 3 3 ((updating 0 [] 0).mod.num (kNORM_BASE + 3)) 32 (quiet (updating 0 [] 0))).2 = true
      ∧ updStatus (readRecord 5000000 3 3 ((updating 0 [] 0).mod.num (kNORM_BASE + 3)) 32 (quiet (updating 0 [] 0))).1 3 (updFlight 0) = 2)
    ∧ (Ready (updating 0 [] 1) 3 0 (updFlight 0) ∧ (readRecord 5000000 3 3 ((updating 0 [] 1).mod.num (kNORM_BASE + 3)) 32 (quiet (updating 0 [] 1))).2 = true
      ∧ updStatus (readRecord 5000000 3 3 ((updating 0 [] 1).mod.num (kNORM_BASE + 3)) 32 (quiet (updating 0 [] 1))).1 3 (updFlight 0) = 0)
    ∧ ((updating 0 [] 1).mod.commit? 3 0 = none)
    ∧ (let s := updating 0 [skipCommit] 1; s.mod.inReset 3 = false ∧ s.mod.commit? 3 0 = some skipCommit ∧ (s.mod.extent? 3 skipCommit.ext).isSome = true ∧ skipCommit.lanes = true
        ∧ skipCommit.step ≤ 4 ∧ ∀ e ∈ s.mod.extents 3, mayStart s.mod 3 e skipCommit = .go ∧ commitId s.mod 3 skipCommit ≤ recordedId (s.mod.hdr 3 e 0) 5)
    ∧ (let s := updating 3 [skipCommit] 1; ∀ e ∈ s.mod.extents 3, mayStart s.mod 3 e skipCommit = .go ∧ recordedId (s.mod.hdr 3 e 0) 5 < commitId s.mod 3 skipCommit
        ∧ freeHalf s.mod 3 = some 0 ∧ (make 5000000 3 e { skipCommit with half := some 0, step := 4, since := 5000000 }
          (noteWait 5000000 skipCommit (readPart 5000000 3 skipCommit.req e 0 pHDR s.mod).1)).2 = .ok [] [] none
        ∧ (readPart 5000000 3 skipCommit.req e 0 pHDR s.mod).2.isSome = true)
    ∧ (let e : Extent := { idx := 0, form := 2, wfmt := 0, expect := 0, base := 0, blocks := 1, acc := 0 }
      let c := { skipCommit with step := 5 }
      4 < c.step ∧ tierGo (tiered 4 [] {}).mod 3 e c = .wait 1 ∧ tierGo (tiered 2 [] {}).mod 3 e c = .go)
    ∧ (let s := updating 0 [{ skipCommit with id := 1 }, { skipCommit with id := 2 }] 1; ∀ e ∈ s.mod.extents 3, mayStart s.mod 3 e { skipCommit with id := 2 } = .wait 1)
    ∧ (skipCommit.flight ≠ 0 ∧ (updating 0 [] 1).mod.copies 3 = false ∧ storesWc (updating 0 [] 1).mod 3 skipCommit = false)
    ∧ (let c := { skipCommit with step := 5 }; (updating 0 [c] 1).mod.commit? 3 0 = some c ∧ c.step = 5) := by
  refine ⟨⟨updating_ready _ _ _, ?_⟩, ⟨updating_ready _ _ _, ?_⟩, ?_⟩ <;> decide +kernel

def allPassed (n : Nat) : State := { running (grouped {}) with mod := { (running (grouped {})).mod with norm := (List.range n).map (fun r => (r, 0)) } }

def closing (g : Train) : State := running { nums := [(kNORM_SIG + 3, 254), (kCLOSE_SIG + 3, 254)], regions := region3 { train := g } }

theorem witness_FencesAndCloses :
    (15 < 16 ∧ Tab.find? (allPassed 15).mod.norm 15 = none)
    ∧ (let s := { allPassed 16 with mod := { (allPassed 16).mod with nums := (kNORM_GROUP, 5) :: (allPassed 16).mod.nums } };
      (∀ r, r < 16 → (Tab.find? s.mod.norm r).isSome = true) ∧ s.mod.members (s.mod.num kNORM_GROUP) = (0, 3) :: [])
    ∧ (((closing { passed := true }).mod.rg 3).train.passed = true ∧ (closing {}).mod.num (kNORM_SIG + 3) < 255 ∧ ((closing {}).mod.rg 3).train.passed = false)
    ∧ closable (closing {}).mod 3 = none
    ∧ (closable (closing { closing := [(7, 0)] }).mod 3 = some (7, 0) ∧ (closing {}).mod.num kEXCH_POLICY = 0 ∧ (closing {}).mod.num kSNAP_POLICY = 0 ∧ 3 ∉ (closing {}).mod.cuts.toTake
        ∧ (closing {}).mod.num (kCLOSE_SIG + 3) < 255) := by decide +kernel

def stacked (k : Stack) (p : Power) : State := running { nums := [(kSCRUB_HOURS, 1), (kPLL_STOP, 1), (kSLEEP_DEEPEST, 4)], regions := region3 { stack := k, power := p } }

/-- All clusters of region 3 in C3 since the beginning of module time. -/
def asleep (k : Stack) : State :=
  running { nums := [(kPLL_STOP, 1), (kSLEEP_DEEPEST, 4)], regions := region3 { stack := k, clusters := (List.range 16).map (fun c => (c, { sleep := 3 })) } }

theorem witness_UpkeepKeepsMemory :
    (402653183 < 402653184 ∧ (running {}).mod.num kSCRUB_HOURS = 0)
    ∧ ((stacked {} {}).mod.num kSCRUB_HOURS ≠ 0 ∧ ((stacked {} {}).mod.rg 3).stack.selfRefresh = false
        ∧ (let k : Stack := { codes := [(2, 0)], errs := [(16, [(35, 1)])] }; 16 ∈ (k.seen 3 2).slotSectors 2 ∧ Tab.find? k.errs 16 = some [(35, 1)] ∧ k.decode 3 16 = (1, 35, 1) ∧ 24 ∉ (k.seen 3 2).slotSectors 2
          ∧ metaSlot 2 = false ∧ (k.decode 3 (metaSector 2)).1 < 2)
        ∧ (let k : Stack := { errs := [(metaSector 2, [(0, 1), (1, 1)])] }; metaSlot 2 = false ∧ 2 ≤ (k.decode 3 (metaSector 2)).1))
    ∧ (100663295 < 512 * 16 * 12288 ∧ 100663295 ∉ ((stacked {} {}).mod.rg 3).stack.candidates)
    ∧ (let k : Stack := { candidates := [100663295] }; 100663295 ∈ k.candidates ∧ spareFor k (bankOf 100663295) = some 0 ∧ k.soft.length < 2048)
    ∧ (spareFor { spareBad := [(bankOf 0, 0)] } (bankOf 0) = some 1 ∧ spareFor { candidates := [0], soft := (List.range 8).map (fun i => (i, i)) } (bankOf 0) = none)
    ∧ (((stacked {} {}).mod.rg 3).stack.softFlash = ((stacked {} {}).mod.rg 3).stack.soft ∧ ((stacked { soft := [(0, 0)] } {}).mod.rg 3).stack.softFlash ≠ ((stacked { soft := [(0, 0)] } {}).mod.rg 3).stack.soft
        ∧ (stacked {} {}).mod.worn (wearSoft 0) = false ∧ (stacked {} {}).mod.worn (wearSoft 1) = false)
    ∧ (((stacked {} { dramMilliC := 85001 }).mod.rg 3).stack.hotWindow = false ∧ (85000 : Int) < ((stacked {} { dramMilliC := 85001 }).mod.rg 3).power.dramMilliC
        ∧ ((stacked { hotWindow := true, coolSince := some 0 } {}).mod.rg 3).stack.hotWindow = true ∧ ((stacked { hotWindow := true, coolSince := some 0 } {}).mod.rg 3).stack.coolSince = some 0)
    ∧ selfRefreshReady (asleep {}).mod 3 = true := by decide +kernel

/-- Cluster 0 of region 3 waits for its start. -/
def starting (ramp : List (Nat × Nat)) : Module := (running { regions := region3 { clusters := [(0, { sleep := 4, waiting := some 0 })], power := { ramp := ramp } } }).mod

theorem witness_ClustersSleepAndWake :
    (let m := (stacked {} {}).mod;
      m.nextEvent 5000000 3 0 = noEvent ∧ 2 ≤ (sleepTarget m 5000000 3 0).1 ∧ m.clusterBusy 3 0 = false
        ∧ (inFlight (dispatchedOf (vectorDesc 0))).mod.clusterBusy 3 0 = true)
    ∧ ((running { regions := region3 { clusters := [(0, { lastHold := true })] } }).mod.cl 3 0).lastHold = true ∧ ((running {}).mod.work 3).keep.testBit 15 = true
    ∧ ((starting []).bellows.failing = false ∧ ((starting []).rg 3).power.pllOff = false ∧ nextStart (starting [(1, 9000000)]) 5000000 3 = some 0
        ∧ (((starting [(1, 9000000)]).modPower 3 (fun p => { p with ramp := p.ramp.filter (fun x => decide (5000000 < x.2)) })).rg 3).power.ramp.length < 2)
    ∧ (15 < 16 ∧ ((running { regions := region3 { clusters := [(15, { waking := some 6000000 })] } }).mod.cl 3 15).waking = some 6000000)
    ∧ (pllMayStop (asleep { selfRefresh := true }).mod 5000000 3 = true ∧ pllMayStop (asleep {}).mod 5000000 3 = false)
    ∧ (((stacked {} { pllOff := true, pllWake := some 6000000 }).mod.rg 3).power.pllOff = true ∧ ((stacked {} { pllOff := true, pllWake := some 6000000 }).mod.rg 3).power.pllWake = some 6000000)
    ∧ ((stacked {} { pllOff := true }).mod.rg 3).power.pllWake = none := by decide +kernel

def metering (mode : Nat) (b : Bellows) : State := running { nums := [(kCTRL_MODE, mode)], bellows := b }

theorem witness_PowerAndHeatAreLimited :
    (implausible (running {}).mod [{ mv := 100000, ma := 100000 }]).isSome = true ∧ implausible (running {}).mod [] = none
    ∧ (Tab.find? (running {}).mod.bellows.gains 3 = none ∧ (metering 0 { failing := true }).mod.bellows.failing = true)
    ∧ ((metering 0 { badPeriods := 20 }).mod.num kCTRL_MODE = 0 ∧ 20 ≤ (metering 0 { badPeriods := 20 }).mod.bellows.badPeriods ∧ FirstOf (metering 0 {}).mod 7 2 srcBellows
        ∧ (metering 0 { badPeriods := 19 }).mod.bellows.badPeriods < 20)
    ∧ ((metering 1 { goodPeriods := 200 }).mod.num kCTRL_MODE = 1 ∧ 200 ≤ (metering 1 { goodPeriods := 200 }).mod.bellows.goodPeriods ∧ FirstOf (metering 1 {}).mod 7 3 srcBellows)
    ∧ ((metering 2 { goodPeriods := 2000 }).mod.num kCTRL_MODE = 2 ∧ 2000 ≤ (metering 2 { goodPeriods := 2000 }).mod.bellows.goodPeriods
        ∧ (metering 2 { goodPeriods := 1999 }).mod.bellows.goodPeriods < 2000)
    ∧ (((stacked {} { stretch := true }).mod.rg 3).power.stretch = true ∧ ((stacked {} {}).mod.rg 3).power.stretch = false)
    ∧ (let s := running { nums := [(kLOGIC_THROTTLE_C, 0x42BE0000), (kDRAM_THROTTLE_C, 0x42B40000)] }
      milliGe 95000 (s.mod.num kLOGIC_THROTTLE_C) = true ∧ milliGe (91999 + 3000) (s.mod.num kLOGIC_THROTTLE_C) = false 
        ∧ (let p : Power := { fpoint := 6, vpoint := 6 }; p.fpoint < 7 ∧ 0 < p.fpoint ∧ p.vpoint = p.fpoint)
        ∧ (let m := (running { regions := region3 { power := { fpoint := 3, vpoint := 2 } } }).mod
          (m.rg 3).power.vpoint < (m.rg 3).power.fpoint ∧ vfMv m 3 (m.rg 3).power.vpoint ≤ ({ mv := 65535, ma := 0 } : RailReading).mv)
        ∧ milliGe 90000 (s.mod.num kDRAM_THROTTLE_C) = true ∧ milliGe 89999 (s.mod.num kDRAM_THROTTLE_C) = false ∧ milliGe (88000 + 2000) (s.mod.num kDRAM_THROTTLE_C) = true
        ∧ milliGe (87999 + 2000) (s.mod.num kDRAM_THROTTLE_C) = false)
    ∧ FirstOf (running {}).mod 7 5 srcBellows ∧ (40000 : Int) < 40001 ∧ hottest [105000] = 105000 ∧ hottest [102999] < 105000 := by decide +kernel

theorem witness_HostGateBoundsEveryGate : Up (running {}) ∧ (running {}).mod.test.reqs = [] := by decide

/-! ### Registers, commits, the dictionary, tests, keys -/

/-- LOCK set for region 3's group. -/
def locked3 : Module := (running { nums := [(kLOCK, 8)] }).mod

def heldOnce : State := running { heldAccess := [{ id := 4, write := false, frame := counterFrame opREGRD [], via := .mesh, until_ := 6000000, since := 5000000 }] }

theorem witness_FlagsAndRegisters :
    15 ≤ 15 % 16 ∧ (15 < 16 ∧ 3 < 4) ∧ flagRegAt 0x1FF 0x17E0 = some (.unit 15 15 7) ∧ flagRegAt 0x1FF 0x1800 = none
    ∧ ((4096 ≤ 4096) ∧ (65536 ≤ 65536) ∧ (5 ≠ 4 ∧ 5 ≠ 8) ∧ 2 % 4 ≠ 0 ∧ blockUsed 0x0FF = false)
    ∧ (0x013 < 4096 ∧ 0x2000 < 65536 ∧ accessOk (0x013 * 65536 + 0x2000) 4 = true ∧ domainInReset (resetting (.region 3)).mod (domainOf 0x013) = true
        ∧ domainSilent (resetting (.die 0)).mod (domainOf 0) = true ∧ domainSilent (resetting (.region 3)).mod (domainOf 0x013) = false
        ∧ ∀ s ∈ [running {}, sleepingRegion], domainSilent s.mod (domainOf 0x013) = false ∧ domainInReset s.mod (domainOf 0x013) = false)
    ∧ (5 < 2 ^ (8 * 4) ∧ accessWaits (quiet (running {})) (.command .fieldPort) (writeFrame (quiet (running {})) 0x013 0x2000 4 5) = false
        ∧ accessWaits (quiet sleepingRegion) (.command .fieldPort) (writeFrame (quiet sleepingRegion) 0x013 0x2000 4 5) = true)
    ∧ (bridgeBlock 0 = false ∧ canonOff 0 0x40 = none)
    ∧ (bridgeBlock 0x013 = false ∧ canonOff 0x013 0x1000 = some 0x1000 ∧ fieldItems locked3 0 0x013 0x1000 0 8 (2 ^ 64 - 1) ≠ []
        ∧ stageStatus (directFields 0 .fieldPort 0x013 0x1000 (wordMask 0 8) (wordValue 0 8 (2 ^ 64 - 1)) locked3).1 .fieldPort (groupOfBlock 0x013) (fieldItems locked3 0 0x013 0x1000 0 8 (2 ^ 64 - 1)) = 8)
    ∧ (15 < 16 ∧ 254 < 255) ∧ (heldReady heldOnce.mod 4).isSome = true ∧ heldReady heldOnce.mod 5 = none := by decide +kernel

/-- POWER_CAP_W staged by the field port, last written at this time. -/
def capStaged (v t : Nat) : State :=
  running { staging := [(21, { items := [{ dict := true, key := kPOWER_CAP_W, width := 0, value := 0, bytes := leBytes 2 v }], claim := some .fieldPort, lastWrite := t })] }

/-- A norm base that is not aligned, staged in region 3's group. -/
def badStaged : State :=
  running { staging := [(3, { items := [{ dict := true, key := kNORM_BASE + 3, width := 0, value := 0, bytes := leBytes 8 5 }], claim := some .fieldPort })] }

theorem takesModule_of {s : State} {src : Source} (h : s.mod.dieInReset 0 = false ∧ s.mod.heldAccess = []) : TakesModuleWrites s src := ⟨h.1, by simp [h.2]⟩

/-- A source's write to the module's block 0 is held. -/
def heldBefore (src : Source) : State :=
  running { heldAccess := [{ id := 0, asker := .command src, write := true, frame := { frame opREGWR with addr := 0 }, via := .mesh, until_ := 6000000, since := 5000000 }] }

theorem block0_domain : domainOf (regBlock { frame opREGWR with addr := 0 }) = 32 := by decide +kernel

theorem witness_CommitsApplyWholeOrNotAtAll_access :
    TakesModuleWrites (capStaged 2000 4000000) .fieldPort ∧ (running {}).mod.dieInReset 0 = false ∧ (resetting (.die 0)).mod.dieInReset 0 = true
    ∧ (∀ src, (heldBefore src).mod.dieInReset 0 = false ∧ ¬TakesModuleWrites (heldBefore src) src)
    ∧ accessWaits (quiet (running {})) (.command .fieldPort) (writeFrame (quiet (running {})) 0 0 8 8) = false
    ∧ accessWaits (quiet (heldBefore .fieldPort)) (.command .fieldPort) (writeFrame (quiet (heldBefore .fieldPort)) 0 0 8 8) = true :=
  ⟨takesModule_of (by decide +kernel), by decide +kernel, by decide +kernel, fun src => ⟨rfl, fun h => h.first _ (List.mem_singleton.2 rfl) rfl block0_domain⟩,
    by decide +kernel, by decide +kernel⟩

/-- A collective base staged in its group, its table in a slot of a reserved code. -/
def tableStaged : State :=
  running { staging := [(23, { items := [{ dict := true, key := kCOLL_BASE, width := 0, value := 0, bytes := leBytes 8 0x4000 }], claim := some .fieldPort })],
            regions := [(0, { stack := { codes := [(64, 9)] } })] }

theorem witness_CommitsApplyWholeOrNotAtAll_table :
    (tablesRead 0 tableStaged.mod (2 ^ 23)).2.isSome = true := by decide +kernel

theorem witness_CommitsApplyWholeOrNotAtAll :
    (21 ∈ selected (capStaged 2000 0).mod (2 ^ 21) ∧ ((capStaged 2000 0).mod.grp 21).items ≠ [] ∧ ((capStaged 2000 0).mod.grp 21).claim ≠ some (.requester 0 0))
    ∧ (maySelect badStaged.mod .fieldPort 8 ∧ (refusalOf 0 badStaged.mod 8).isSome = true ∧ (imageChecked 0 badStaged.mod 8).1 = clearErrors badStaged.mod)
    ∧ (maySelect (capStaged 2000 0).mod .fieldPort (2 ^ 21) ∧ refusalOf 0 (capStaged 2000 0).mod (2 ^ 21) = none
        ∧ (∀ x ∈ stagedOf (capStaged 2000 0).mod (2 ^ 21), x.2.dict = true → tableOf (wouldStand 0 (capStaged 2000 0).mod (2 ^ 21)) x.2.key = none ∧ x.2.key ≠ kFW_LEN)
        ∧ ((capStaged 2000 0).mod.num kLOCK).testBit 21 = false ∧ 2000 < 65536
        ∧ ((capStaged 2000 0).mod.grp 21).items = [{ dict := true, key := kPOWER_CAP_W, width := 0, value := 0, bytes := leBytes 2 2000 }])
    ∧ (21 < 29 ∧ (2 ^ 21).testBit 21 = true ∧ (capStaged 2000 4000000).time < ((capStaged 2000 4000000).mod.grp 21).lastWrite + 10000000000)
    ∧ (∀ g, g < 29 → (2 ^ 29 - 1).testBit g = true → ((running {}).mod.grp g).items = []) := by decide +kernel

theorem witness_LockedGroupsTakeNoStagedWrite_access : (running {}).mod.driver = .requester 0 0 ∧ TakesModuleWrites (running {}) (running {}).mod.driver
    ∧ TakesModuleWrites (capStaged 2000 0) (capStaged 2000 0).mod.driver :=
  ⟨by decide +kernel, takesModule_of (by decide +kernel), takesModule_of (by decide +kernel)⟩

theorem witness_LockedGroupsTakeNoStagedWrite_held : (heldBefore (.requester 0 0)).mod.driver = .requester 0 0 := by decide +kernel

theorem witness_LockedGroupsTakeNoStagedWrite :
    (∀ g, g < 29 → (2 ^ 29 - 1).testBit g = true → ((running {}).mod.grp g).items = [])
    ∧ (21 < 29 ∧ (2 ^ 21).testBit 21 = true ∧ ((capStaged 2000 0).mod.grp 21).items ≠ []) ∧ (locked3.num kLOCK).testBit 3 = true := by decide +kernel

/-- A request for an entry. -/
def entryMsg (key len offset : Nat) : DictMsg := { noDict with index := key / 256, sub := key % 256, len := len, offset := offset }

def fieldRo : State := running { nums := [(kFIELD_RO, 1)] }

theorem witness_DictionaryRequests_written :
    (∀ k ∈ [kPOWER_CAP_W, kTELEM_PERIOD_MS, kTELEM_DEST], (running {}).mod.drone.parked.length < 8 ∧ pathRefuses (running {}).mod .fieldPort k = false ∧ k ≠ kCOMMIT ∧ k ≠ kATTEST_NONCE
        ∧ k ≠ kKEX_MAILBOX ∧ (dictRow? k).any (fun row => !entryInReset (running {}).mod row k && (entryAsleep (running {}).mod row k).isNone) = true)
    ∧ (dictRow? kPOWER_CAP_W).any (fun row => row.acc == 3) = true
    ∧ (dictRow? kTELEM_PERIOD_MS).any (fun row => row.acc != 0 && row.acc != 3 && row.acc != 4 && row.numeric && valueOk row [100, 0] && !valueOk row [1]) = true
    ∧ (dictRow? kTELEM_DEST).any (fun row => row.acc != 0 && row.acc != 3 && row.acc != 4 && !row.numeric) = true
    ∧ [1, 0].length ≤ msgLimit .fieldPort := by decide +kernel

theorem witness_DictionaryRequests_parked : waitsCommit kTELEM_PERIOD_MS = false ∧ NoCommit (running {}) ∧ waitsCommit kRUN_ENTER = true ∧ ¬NoCommit (committing 1)
    ∧ (dictRow? kRUN_ENTER).any (fun row => row.acc != 0 && row.acc != 3 && row.acc != 4 && row.numeric && valueOk row [1]) = true
    ∧ (committing 1).mod.drone.fieldQ = [] ∧ (committing 1).mod.drone.bandQ = [] ∧ (committing 1).mod.env.resetAsked = none ∧ pathRefuses (committing 1).mod .fieldPort kRUN_ENTER = false := by decide +kernel

theorem witness_DictionaryRequests :
    ((running {}).mod.drone.fieldQ = [] ∧ (running {}).mod.drone.bandQ = [] ∧ (running {}).mod.env.resetAsked = none)
    ∧ (dictRow? kPOWER_CAP_W).any (fun row => row.numeric && !entryInReset (running {}).mod row kPOWER_CAP_W && (entryAsleep (running {}).mod row kPOWER_CAP_W).isNone
        && (readValue (quiet (running {})) 5000000 row kPOWER_CAP_W false).length == 2 && decide (2 ≠ (entryMsg kPOWER_CAP_W 0 0).len)) = true
    ∧ (dictRow? kHOME_TABLE).any (fun row => !row.numeric && !entryInReset (running {}).mod row kHOME_TABLE && (entryAsleep (running {}).mod row kHOME_TABLE).isNone) = true
    ∧ (dictRow? (kSHARD_CFG + 3)).any (fun row => entryInReset (resetting (.region 3)).mod row (kSHARD_CFG + 3) && (entryAsleep (resetting (.region 3)).mod row (kSHARD_CFG + 3)).isNone) = true
    ∧ (0 < 0xF00000 ∧ dictRow? 0 = none ∧ pathRefuses (running {}).mod .fieldPort 0 = false ∧ 0 ≠ kATTEST_NONCE)
    ∧ (pathRefuses fieldRo.mod .fieldPort kPOWER_CAP_W = true ∧ kPOWER_CAP_W ≠ kATTEST_NONCE)
    ∧ (dictRow? kMODULE_STATE).any (fun row => row.acc == 0 && (entryAsleep (running {}).mod row kMODULE_STATE).isNone) = true
    ∧ pathRefuses (running {}).mod .fieldPort kMODULE_STATE = false ∧ noDict.flags.testBit 2 = false ∧ fieldRo.mod.num kFIELD_RO = 1 ∧ 0xF00000 ≤ 0xF00000 := by decide +kernel

def packet (op : Byte) : FieldPkt := { noField with payload := [1, 1, op] ++ zeros 21 }

def fielded (d : Drone) (n : Nat) : State := running { drone := d, nums := [(kTELEM_PERIOD_MS, n)] }

def someReq (k w : Nat) : DictReq := { id := k, src := .fieldPort, msg := entryMsg kPOWER_CAP_W 2 0, addr := zeros 16, port := 1, wait := w }

def written : Drone := { writeRecs := [(zeros 16, 0, dictOfBytes (packet 2).payload, noDict, 0)] }

theorem witness_FieldPortServes :
    (badPacket { packet 1 with payload := zeros 23 } ∧ ¬badPacket (packet 1) ∧ (dictOfBytes (packet 1).payload).kind = 1 ∧ (dictOfBytes (packet 1).payload).op ≠ 2
      ∧ (dictOfBytes { packet 1 with payload := [1, 3] ++ zeros 22 }.payload).kind ≠ 1)
    ∧ ((fielded {} 0).mod.drone.fieldQ.length < 4 ∧ 4 ≤ (fielded { fieldQ := List.replicate 4 (someReq 0 0) } 0).mod.drone.fieldQ.length)
    ∧ (¬badPacket (packet 2) ∧ (dictOfBytes (packet 2).payload).op = 2 ∧ recordOf (fielded written 0).mod 5000000 (packet 2) (dictOfBytes (packet 2).payload) = some noDict)
    ∧ (let s := fielded { parked := [someReq 6 4] } 0; (parkedReq s.mod 6).bind (parkedUntil s.mod) = some 0
        ∧ (someReq 6 4).wait ≠ 100 ∧ parkedReq (fielded { parked := [someReq 6 100] } 0).mod 6 = some (someReq 6 100))
    ∧ ((fielded {} 0).mod.env.resetAsked = none ∧ (parkedReq (fielded {} 0).mod 6).bind (parkedUntil (fielded {} 0).mod) = none)
    ∧ ((fielded { ipOut := [.beacon 0] } 0).mod.drone.ipOut = .beacon 0 :: [] ∧ (fielded { outbox := [(zeros 16, 1, noDict)] } 0).mod.drone.ipOut = [])
    ∧ ((fielded { outbox := [(zeros 16, 1, noDict)] } 0).mod.drone.outbox = (zeros 16, 1, noDict) :: [] ∧ (fielded { telem := some (zeros 16, 1, noDict) } 0).mod.drone.outbox = []
        ∧ (fielded { telem := some (zeros 16, 1, noDict) } 0).mod.drone.telem = some (zeros 16, 1, noDict) ∧ (fielded {} 0).mod.drone.telem = none)
    ∧ (fielded {} 1).mod.num kTELEM_PERIOD_MS ≠ 0 ∧ (fielded {} 0).mod.num kTELEM_PERIOD_MS = 0 := by decide +kernel

def flashing (st : Nat) (f : Flash) : State := running { nums := [(kSTORE_STATUS, st)], flash := f }

theorem witness_FlashRecordsAndReports :
    (flashing 1 {}).mod.num kSTORE_STATUS = 1 ∧ NoCommit (flashing 1 {}) ∧ NoCommit (flashing 0 {}) ∧ (flashing 0 { wear := [(wearCfg 0, 1000000)] }).mod.worn (wearCfg 0) = true ∧ ((flashing 0 {}).mod.num kSTORE_STATUS ≠ 1 ∧ (flashing 0 {}).mod.worn (wearCfg (otherSlot (flashing 0 {}).mod)) = false
        ∧ (flashing 0 {}).mod.worn (wearCfg 0) = false ∧ (flashing 0 {}).mod.worn (wearCfg 1) = false ∧ otherSlot (flashing 0 {}).mod = 0
        ∧ otherSlot (flashing 0 { cfg0 := some (0, []) }).mod ≠ 0)
    ∧ (flashing 1 { saving := some (6000000, 1, []) }).mod.flash.saving = some (6000000, 1, [])
    ∧ ((flashing 0 { calBusy := some (6000000, [1]) }).mod.flash.calBusy = some (6000000, [1]) ∧ (flashing 0 {}).mod.env.resetPending = false ∧ (flashing 0 {}).mod.flash.calBusy = none)
    ∧ ((flashing 0 { fwBusy := some (6000000, 1, default) }).mod.flash.fwBusy = some (6000000, 1, default) ∧ (flashing 0 {}).mod.flash.fwBusy = none)
    ∧ ((zeros 31).length ≠ 32 ∧ (zeros 32).length = 32) := by
  and_intros <;> first | rfl | decide +kernel

def bist (kind mask : Nat) (run : Option Nat) : Bist := { id := 4, kind := kind, region := 3, mask := mask, deadline := 9000000, running := run }

def testing (rs : List Bist) (nums : Tab Nat) : State := running { test := { reqs := rs }, nums := nums }

/-- Every granule of data marked used. -/
def fullStack : Stack := { alloc := (List.range 6144).map (fun i => (i, 255)) }

theorem find_map (v : Nat) : ∀ (xs : List Nat) (k : Nat), k ∈ xs → Tab.find? (xs.map (fun i => (i, v))) k = some v
  | x :: xs, k, h => by
    by_cases hx : x = k
    · simp [Tab.find?, hx]
    · have h' : k ∈ xs := (List.mem_cons.1 h).resolve_left (fun e => hx e.symm)
      simpa [Tab.find?, hx] using find_map v xs k h'

theorem clearFrom_none (k : Stack) (h : ∀ g, k.allocBit g = true) : ∀ n g, k.clearFrom n g = none
  | 0, _ => rfl
  | n + 1, g => by simp [Stack.clearFrom, h g, clearFrom_none k h n]

theorem fullStack_clear : fullStack.clearFrom 49152 0 = none := by
  refine clearFrom_none _ (fun g => ?_) _ _
  by_cases hg : 49056 ≤ g
  · simp [Stack.allocBit, hg]
  · have hb : ∀ i, i < 8 → (255 : Nat).testBit i = true := by decide
    simp [Stack.allocBit, fullStack, Tab.get, find_map 255 (List.range 6144) (g / 8) (List.mem_range.2 (by omega)), hb (g % 8) (Nat.mod_lt _ (by omega))]

theorem witness_TestsRunAndEnd :
    (∀ x ∈ requestCommands 96 1 0, (if x.1 = 3 then 96 else 16) ≤ 96) ∧ (∀ x ∈ requestCommands 3 1 0, ¬(if x.1 = 3 then 96 else 16) ≤ 3)
    ∧ (8 ≤ (testing (List.replicate 8 (bist 1 1 none)) []).mod.test.reqs.length ∧ (running {}).mod.test.reqs.length < 8 ∧ disabled3.mod.fstate 3 = 3
        ∧ ¬((running {}).mod.fstate 3 = 3 ∨ (running {}).mod.fstate 3 = 4))
    ∧ (metering 0 { bucketNj := 1 }).mod.bellows.bucketNj ≠ 0
    ∧ (bistDeadline? (testing [bist 2 0 none] []).mod 4 = some 9000000 ∧ bistDeadline? (running {}).mod 4 = none)
    ∧ ((testing [bist 2 0 none] []).mod.test.reqs = [bist 2 0 none] ∧ (bist 2 0 none).id = 4 ∧ (bist 2 0 none).running = none ∧ (bist 2 0 none).kind = 2)
    ∧ (logicOn (testing [bist 1 2 (some 1)] []).mod 3 1 = some (bist 1 2 (some 1)) ∧ (bist 1 2 (some 1)).mask = 2 ^ 1 ∧ (up {}).mod.mstate ≠ 2)
    ∧ ((testing [bist 2 0 (some 5)] []).mod.underTest 3 = some 5 ∧ (testing [] []).mod.underTest 3 = none)
    ∧ (recalNext (testing [] ((kPORT_RECAL_HOURS, 1) :: (List.range 8).map (fun p => (kPORT_STATE + p, 2)))).mod = some 0 ∧ recalNext (running {}).mod = none ∧ 95 < 96)
    ∧ (regionRetrains (running { test := { dramRecal := [(3, 6000000)] } }).mod 3 = true ∧ regionRetrains (running {}).mod 3 = false) := by decide +kernel

/-- Port 0 under a key; the module is node `node`, its set's table all in site 0, LINE_ENC 2. -/
def keyed (node : Nat) (k : LineKey) (off : Bool) : State :=
  running { nums := [(kLINE_ENC, 2), (kNODE_ID, node), (kKEY_FRAMES_LOG2, 24)], security := { keys := [(0, k)], disabled := off } }

def keyMsg (node count : Nat) : KexMsg := { noKex with node := node, count := count }

theorem witness_KeysAreEstablishedAndRenewed :
    (okVia (.port 95) = true ∧ slotOf (.port 95) 0 = none) ∧ (okVia (.port 0) = true ∧ slotOf (.port 0) 0 = some 0)
    ∧ ((running {}).mod.protectsSlot 0 = false ∧ (keyed 0 {} false).mod.protectsSlot 0 = true ∧ initiates (keyed 0 {} false).mod 0 = true ∧ initiates (keyed 7 {} false).mod 0 = false
        ∧ (keyMsg 1 0).node ≠ peerNode (keyed 7 {} false).mod 0 ∧ (keyMsg 0 0).node = peerNode (keyed 7 {} false).mod 0 ∧ (keyed 7 {} true).mod.security.disabled = true
        ∧ (keyed 7 {} false).mod.security.disabled = false)
    ∧ (((keyed 0 {} false).mod.key 0).hs ≠ 2 ∧ ((keyed 0 { hs := 2 } false).mod.key 0).hs = 2)
    ∧ (((keyed 0 {} false).mod.key 0).established = false ∧ ((keyed 0 { established := true, recvOld := some 0 } false).mod.key 0).recvOld.isSome = true
        ∧ (let s := keyed 0 { established := true } false; (s.mod.key 0).established = true ∧ (s.mod.key 0).recvOld = none ∧ (keyMsg 1 0).count ≠ (s.mod.key 0).recvIdx + 1
            ∧ (keyMsg 1 1).count = (s.mod.key 0).recvIdx + 1))
    ∧ (running {}).mod.protectsEdge = false ∧ (keyed 0 {} false).mod.protectsEdge = true
    ∧ ((updateDue (keyed 0 { established := true } false).mod 0).isSome = true ∧ updateDue (keyed 0 {} false).mod 0 = none
        ∧ ((keyed 0 { retryAt := some 1 } false).mod.key 0).retryAt = some 1 ∧ ((keyed 0 {} false).mod.key 0).retryAt = none
        ∧ ((keyed 0 { oldFirst := some 1 } false).mod.key 0).oldFirst = some 1 ∧ ((keyed 0 {} false).mod.key 0).oldFirst = none)
    ∧ (let k : LineKey := { established := true, sendCounts := [(0, 2 ^ 24)] };
      k.updating = false ∧ 2 ^ (keyed 0 k false).mod.num kKEY_FRAMES_LOG2 ≤ k.sent ∧ { k with sendCounts := [] }.sent < 2 ^ (keyed 0 k false).mod.num kKEY_FRAMES_LOG2) := by decide +kernel

/-- A module in a state, its set's table all in site 0. -/
def configured (st : Nat) (nums : Tab Nat) (env : Env) : State := up { nums := (kMODULE_STATE, st) :: nums, env := env, blobs := [(kSET_TABLE, zeros 8)] }

theorem witness_RunEntryPinsAndClocks :
    (NoCommit (running {}) ∧ NoCommit (up {}) ∧ NoCommit (configured 1 [] {})) ∧ (1 < 2 ∧ (running {}).mod.mstate = 2 ∧ (up {}).mod.mstate = 0 ∧ (configured 3 [] {}).mod.mstate = 3)
    ∧ ((configured 1 [(kMODULE_ROLE, 2)] {}).mod.mstate = 1 ∧ firstFailing 1 (runChecks (configured 1 [(kMODULE_ROLE, 2)] {}).mod) = some (1, 2)
        ∧ firstFailing 1 (runChecks (up { nums := [(kMODULE_STATE, 1)] }).mod) = some (3, 2))
    ∧ (let s := configured 1 [] {}; firstFailing 1 (runChecks s.mod) = none ∧ s.mod.num kEXCH_POLICY = 0 ∧ s.mod.num kLINE_ENC = 0 ∧ FirstOf s.mod 9 2 srcDrone)
    ∧ ((configured 1 [(kREGION_FSTATE + 3, 4)] {}).mod.num kMODULE_ROLE ≠ 2 ∧ (configured 1 [(kREGION_FSTATE + 3, 4)] {}).mod.fstate 3 = 4)
    ∧ ((configured 1 [] { refLost := 17 }).mod.env.refLost.testBit 4 = true ∧ (up {}).mod.env.refLost.testBit 0 = false ∧ FirstOf (up {}).mod 8 1 srcDrone)
    ∧ (3 < 4 ∧ (up {}).mod.env.refLost.testBit (1 + 3) = false ∧ ∀ p, p < 96 → ((up {}).mod.port p).unacked = [] ∧ ((up {}).mod.port p).waiting = [])
    ∧ (List.replicate 16 true).length = 16 ∧ (held0.mod.env.resetN = false ∧ (up {}).mod.env.resetN = true) := by decide +kernel

theorem witness_EventsArePosted :
    (let m := (up { drone := { lastEvent := [((4 * 2 ^ 16 + 1) * 2 ^ 32 + 2, 4000001)] } }).mod;
      m.env.droneUp = true ∧ Tab.find? m.drone.lastEvent ((4 * 2 ^ 16 + 1) * 2 ^ 32 + 2) = some 4000001 ∧ 5000000 < 4000001 + 1000000 ∧ 4000001 + 1000000 ≤ 5000001
        ∧ Tab.find? m.drone.lastEvent ((4 * 2 ^ 16 + 1) * 2 ^ 32 + 3) = none) ∧ State.reset.mod.env.droneUp = false := by decide +kernel

/-! ### Single commands: expected values from the rules named -/

/-- The state after one step that takes this command from the queue. -/
def after (c : Instr) (s : State) : State :=
  match step { s with pending := [c] } with
  | .next t => t
  | _ => s

/-- R398, R453: a low RESET_N puts the module off; the queue is left empty. -/
theorem test_reset_low : (after .resetNLow (running {})).mod.env.resetN = false ∧ (after .resetNLow (running {})).mod.env.droneUp = false
    ∧ (after .resetNLow (running {})).pending = [] := by decide +kernel

/-- R330: 41,999 mV is a power failure of cause 1; the record is in flash 900 µs later. -/
theorem test_power_fail : (after (.powerFail 41999) (running {})).mod.env.lossCause = 1 ∧ (after (.powerFail 41999) (running {})).mod.env.lossUntil = some 5900000 := by
  decide +kernel

/-- R78: an accepted descriptor is in flight; one of a disabled queue is refused with 0x02 and counted. -/
theorem test_submit : ((after (.submitDescriptor 3 setDesc) accepting).mod.work 3).flights.length = 1
    ∧ ((after (.submitDescriptor 2 setDesc) accepting).mod.work 2).flights = [] ∧ (after (.submitDescriptor 2 setDesc) accepting).mod.lastStatus = 2 := by decide +kernel

/-- R79: the head is dispatched. -/
theorem test_dispatch : ((after (.dispatchDescriptor 3 5) accepted).mod.work 3).flights.map Flight.phase = [1] := by decide +kernel

/-- R86: SET writes the counter, and its descriptor has ended with 0x00. -/
theorem test_set : ((after (.set 3 0) (inFlight (dispatchedOf setDesc))).mod.work 3).counter 9 = 6
    ∧ ((after (.set 3 0) (inFlight (dispatchedOf setDesc))).mod.work 3).flights.map (fun x => (x.phase, x.status)) = [(2, 0)] := by decide +kernel

/-- R82, R99: a counter holds 16 bits. -/
theorem test_counter : ((after (.syncCounterWrite 15 254 0x12345) (running {})).mod.work 15).counter 254 = 0x2345 := by decide +kernel

/-- R87: a SIGNAL frame adds AUX, modulo 65,536. -/
theorem test_signal_frame : ((after (.signalFrame { request opSIGNAL 254 [] with aux := 0x1FFFF } .mesh) (running {})).mod.work 3).counter 254 = 0xFFFF := by decide +kernel

/-- R40: 1.5 × 2 = 3, exactly; R26: 0 × ∞ is a NaN with INVALID. -/
theorem test_mul : toF32 (elementOp 3 (f32 0x3FC00000) (f32 0x40000000) fvZero).1 = 0x40400000 ∧ (elementOp 3 (f32 0x3FC00000) (f32 0x40000000) fvZero).2 = 0
    ∧ (elementOp 3 (f32 0) (f32 0x7F800000) fvZero).2 = fINVALID := by decide +kernel

/-- R235, R237: what a WRITE frame stores, across two slots, a READ frame carries back. -/
theorem test_write_read : (after (.read { request opREAD 0x10FE [] with aux := 4 } .mesh) (after (.write (request opWRITE 0x10FE [1, 2, 3, 4]) .mesh) (running {}))).mod.out
    = [.frame .mesh ((request opREAD 0x10FE []).answer 0 0 [1, 2, 3, 4])] := by decide +kernel

/-- R236: a malformed frame is dropped and counted. -/
theorem test_bad_frame : (after (.write { request opWRITE 0 [1] with ver := 2 } .mesh) (running {})).mod.num kBAD_FRAME = 1 := by decide +kernel

/-- R240: returned credits stop at 768. -/
theorem test_credit : ((after (.linkCredit 87 3 5) (linked 87 { credits := [(3, 766)] })).mod.port 87).credit 3 = 768 := by decide +kernel

/-- R242: a request without a response ends 100 µs after it was sent. -/
theorem test_timeout : (after (.requestTimeout 7) (asked readAsked [])).time = 5050000 ∧ (after (.requestTimeout 7) (asked readAsked [])).mod.num kTIMEOUTS = 1 := by decide +kernel

/-- R239: a port that loses its lanes trains again. -/
theorem test_lane_loss : (after (.laneLockLoss 87) (linked 87 {})).mod.portState 87 = 1 := by decide +kernel

/-- R271: 16 entries fit a ring of 16, 17 do not. -/
theorem test_doorbell : (after (.doorbell 255 15) (bridging {})).mod.lastStatus = 0 ∧ (after (.doorbell 255 16) (bridging {})).mod.lastStatus = 2 := by decide +kernel

/-- R64: only the bits written as 1 are cleared. -/
theorem test_flags : clearFlags 15 5 = 10 := by decide

/-- R285: a write of 1 sets a lock bit. -/
theorem test_lock : (after (.lock 8) (running { nums := [(kLOCK, 1)] })).mod.num kLOCK = 9 := by decide +kernel

/-- R316: a committed cap of 2,000 W gives SHORT_TERM_W 2,333 W. -/
theorem test_cap : (after (.moduleCommit .fieldPort (2 ^ 21)) (capStaged 2000 0)).mod.num kSHORT_TERM_W = 2333 := by decide +kernel

/-- R329: a droop is counted once. -/
theorem test_droop : (after (.droopDetect 3) (after (.droopDetect 3) (running {}))).mod.num kDROOP_EVENTS = 1 := by decide +kernel

/-- R361: a cut asked for while SNAP_POLICY is 0 is refused. -/
theorem test_cut : (after (.cutAt 9) (running {})).mod.lastStatus = 8 := by decide +kernel

/-- R209, R396: a message to a disabled Chanter is dropped and counted. -/
theorem test_message : (after (.probe 8 { noChMsg with type := 6 }) (chanting 3 {})).mod.num kCHANTER_DROPPED = 1 := by decide +kernel

/-- R181: a step that may close is noted. -/
theorem test_close : (after (.stepClose 3) (closing { closing := [(7, 0)] })).mod.num (kSTEP_CLOSED + 3) = 7 := by decide +kernel

/-- R300: a packet to another port is counted. -/
theorem test_field : (after (.fieldRequestReceive { packet 1 with dstPort := 47211 }) (running {})).mod.num kFIELD_BAD = 1 := by decide +kernel

/-- R411: a test of a region that does not exist is refused. -/
theorem test_memory_test : (after (.memoryTest 16 0) (running {})).mod.lastStatus = 2 := by decide +kernel

/-- R432: a handshake on a link that no key protects is refused. -/
theorem test_init : (after (.init (.port 0) noKex) (running {})).mod.lastStatus = 2 := by decide +kernel

/-- R380: RUN_ENTER with every check passed. -/
theorem test_run : (after (.runEnter 1) (configured 1 [] {})).mod.mstate = 2 := by decide +kernel

/-- R456: IDCODE shifts out 0x09616A2D, its low bit first. -/
theorem test_idcode : (after .idcode (up {})).mod.out = [.tdo ((List.range 32).map (fun i => (0x09616A2D : Nat).testBit i))] := by decide +kernel

/-- R2: an idle block lets one tick of 80 ns pass (the model's choice, log entry 6). -/
theorem test_idle : (match step (running {}) with | .next t => t.time | _ => 0) = 5000080 := by decide +kernel

end Sys2Proof.Tests
end

section
/-! PROOFS. The scope statements: the tick of an idle block, module time, and the host's bound on the gates. -/

namespace Sys2Proof.Machine

/-! ### The tick of an idle block (R332) -/

section
variable (kind place : Nat) (m : Module) (r : Nat)

@[simp] theorem tickFault_nums : (tickFault kind place m).nums = m.nums := by
  unfold tickFault; split <;> rfl

@[simp] theorem tickFault_free : (tickFault kind place m).free = m.free := by
  unfold tickFault; split <;> rfl

@[simp] theorem stillR_modUn (q c u : Nat) (f : UnitSt → UnitSt) : (m.modUn q c u f).stillR r = m.stillR r := stillR_modCl m r q c _

/-- A physical fault strikes memory, a buffer or a tile row, never what a region works on. -/
theorem stillR_tickFault : (tickFault kind place m).stillR r = m.stillR r := by
  unfold tickFault; split <;> simp

@[simp] theorem tickEff_nums : (tickEff m).nums = m.nums := tickFault_nums _ _ _

@[simp] theorem tickEff_free : (tickEff m).free = m.free + 1 := congrArg (· + 1) (tickFault_free _ _ _)

@[simp] theorem tickEff_work : (tickEff m).work r = m.work r :=
  work_of_still ((stillR_useFree _ r).trans (stillR_tickFault _ _ _ r))

end

theorem step_idle {s : State} (h : s.pending = []) : step s = .next { s with time := s.time + 80, mod := tickEff s.mod } := by
  unfold step; rw [h]

/-! ### The forms of a meaning, and module time (R2, R333) -/

/-- The forms of an answer that leave the module started: an effect at once, an effect at a moment, and either of them held to the
parts that exist. -/
inductive Proceeds (s : State) : Host.Outcome State Fault Refusal → Prop
  | always (f : Nat → Module → Module) : Proceeds s (s.always f)
  | doesAt (d : Nat) (f : Nat → Module → Module) : Proceeds s (s.doesAt d f)
  | guarded (ok : Bool) {o : Host.Outcome State Fault Refusal} : Proceeds s o → Proceeds s (guarded ok o)

/-! The forms that are made of those. -/

theorem Proceeds.does (s : State) (f : Nat → Module → Module) : Proceeds s (s.does f) := .always _

theorem Proceeds.doesWhen (s : State) (c : Bool) (d : Nat) (f : Nat → Module → Module) : Proceeds s (s.doesWhen c d f) := .doesAt _ _

theorem Proceeds.every (s : State) (key period : Nat) (f : Nat → Module → Module) : Proceeds s (s.every key period f) := .doesAt _ _

/-- An answer of these forms is at the time of the state, or later. -/
theorem Proceeds.time_le {s t : State} {o : Host.Outcome State Fault Refusal} (h : Proceeds s o) (ht : o = .next t) : s.time ≤ t.time := by
  induction h with
  | always f =>
    obtain ⟨u, hu, -, htime⟩ := always_goes (s := s) (f := f)
    cases hu.symm.trans ht
    exact Nat.le_of_eq htime.symm
  | doesAt d f =>
    obtain ⟨u, hu, -, htime⟩ := doesAt_goes (s := s) (d := d) (f := f)
    cases hu.symm.trans ht
    exact htime
  | guarded ok _ ih => exact ih (guarded_next.mp ht).2

theorem execAttestNonce_proceeds (nonce : List Byte) (s : State) : Proceeds s (execAttestNonce nonce s) := by
  unfold execAttestNonce
  split
  · exact .doesAt _ _
  · exact .does _ _

/-- Every command but those that may start the module anew answers by one of these forms: the groups are those of the commands'
own meanings. -/
theorem exec_proceeds (c : Instr) (s : State) (h : c.startsAnew = false) : Proceeds s (exec c s) := by
  unfold exec
  cases c with
  | coldStart | lossRecordWritten | resetNRise | resetModuleCold | resetCompleted | dictRead | dictWrite | dictInfo | parkedRequestResume
    | recoveryImageCheck => cases h
  | railsStop | resetNLow | bypass | idcode | samplePreload | extest | imageLoad => exact .always _
  | powerFail | inputVoltageHigh | resetModuleWarm | resetRegion | resetDie | runEnter | alertAck | chanterDisable | fabricResponse | read
    | write | accum | gather | refetch | release | signalFrame | stage | credit | coll | regRd | regWr | dict | desc | pool | chanter
    | timing | delta | result | state | ack | resync | probe | probeReply | join | normModuleSum | normFence | poolQueryReply
    | poolPutReply | poolGetReply | poolCommitReply | manifestWrite | cutAt | restoreGo | restoreVerified | restoreApplied
    | divergenceEnter | divergenceExit | estimateOnlyExit | flagsClear | flagRegisterClear | registerWrite | moduleCommit | moduleDiscard
    | lock | fieldRequestReceive | storeSave | storeErase | storeComplete | transmitOpportunity | plcaBeacon | fieldNeighborSolicitation
    | logicTest | memoryTest | portRecal | dramRecal | rekey => exact .does _ _
  | requestTimeout | tagQuarantineEnd | fragmentSend | ackTimer | rtoExpiry | peerHeld | probeTimer | roundDeadline | quorumHoldExpiry
    | timeExchange | alignLost | poolTimeout | heldAccessComplete | telemTick | bistDeadline | portRecalTimer | calProgramDone
    | fwProgramDone | kexHoursTimer => exact .doesWhen _ _ _ _
  | fastLoop | slowLoop | estimateRefit | heartbeatTick => exact .every _ _ _ _
  | referenceClockRestored => exact .guarded _ (.always _)
  | regionDisable | ctxDisable | functionEnable | submitDescriptor | dispatchDescriptor | queueHeadWrite | resume | flush
    | syncCounterWrite | switch | switchDrained | clusterFenceWrite | clusterFenced | matrixDescriptor | mov | add | sub | mul | fma | max
    | min | abs | neg | cmpgt | select | exp2 | log2 | rcp | rsqrt | exp | siluMul | rsum | rsumsq | rmaxIdx | rminIdx | smaxStep
    | smaxNorm | conversionUnscaled | conversionCurrent | conversionDelayed | conversionFixed | move | moveCompress | fence
    | fenceComplete | signal | set | waitUntil | idleHint | launch | launchResume | yield | fabricRead | fabricWrite | fabricAccum
    | fabricGather | fabricRefetch | fabricRelease | fabricStage | fabricColl | tagAcquire | linkAck | linkNak | linkCredit
    | linkFrameReceive | laneLockLoss | trainingAttemptEnd | portDisable | neighborSolicitation | echoRequest | edgePacketReceive
    | sectionDecode | catchupDelta | innerUpdate | blockCommit | stepClose | drainShard | recallArrival | writeBack | tierFlush
    | scrubVisit | rowRepair | repairTableAppend | selfRefreshExit | pllStop | droopDetect | droopRecover | referenceClockLost
    | startAdmit | doorbell | descForward | descResponse | ringResume | completionDoorbell | mgmtEntry | hostFrameReceive | memtestGranule
    | init | reply | update | handshakeStart | portSignalDetect => exact .guarded _ (.does _ _)
  | drainEnd | drainTimeout | descriptorComplete | dramTrainingAgeDue => exact .guarded _ (.doesAt _ _)
  | regionRecoveryLate | quantumExpiry | switchComplete | waitUntilExpiry | descHoldTimeout | dupRecordExpiry | linkReplayTimeout
    | ackSendTimer | portDrainEnd | reasmTimeout | reserveStallTimeout | recallDeadlineExpiry | refreshWindowChange | selfRefreshEntry
    | pllRestart | vfStep | logicThermalTrip | dramThermalTrip | clusterReady | hostDupRecordExpiry | logicTestDone | keyUpdateTimer
    | keyRetire | dramRecalDone | keyUpdateRetry | longHaulRateRecovery => exact .guarded _ (.doesWhen _ _ _ _)
  | logicSensorRead | dramSensorRead | sleepDecision => exact .guarded _ (.every _ _ _ _)
  | attestNonce => exact execAttestNonce_proceeds _ _

/-! ### Masks of reasons -/

/-- The mask of a list has the bits that the list names. -/
theorem testBit_maskOf (l : List Nat) (i : Nat) : (maskOf l).testBit i = decide (i ∈ l) := by
  have go : ∀ w, (l.foldl setBit w).testBit i = (w.testBit i || decide (i ∈ l)) := by
    induction l with
    | nil => simp
    | cons n l ih =>
      intro w
      rw [List.foldl_cons, ih]
      simp [setBit, Nat.testBit_or, Nat.testBit_two_pow, Bool.or_assoc, eq_comm]
  simpa [maskOf] using go 0

theorem bitList_nodup (mask n : Nat) : (bitList mask n).Nodup := List.nodup_range.filter _

theorem mem_bitList {mask n i : Nat} : i ∈ bitList mask n ↔ i < n ∧ mask.testBit i = true := by simp [bitList]

/-! ### Reads after updates of Bellows and of the counters -/

@[simp] theorem Module.rg_modBel (m : Module) (f : Bellows → Bellows) (r : Nat) : (m.modBel f).rg r = m.rg r := rfl

theorem Module.num_bump (m : Module) (k n j : Nat) : (m.bump k n).num j = m.num j + if j = k then n else 0 := by
  by_cases h : j = k
  · subst h; simp [Module.bump]
  · simp [Module.bump, Module.num_setNum_ne, h]

/-! ### Reasons that accumulate (R7, R331) -/

/-- Reason 0x8 is in force exactly while the host holds the gates below 64 (R328). -/
theorem testBit_throttleNow_host (m : Module) : (throttleNow m).testBit 8 = decide (m.num kHOST_GATE < 64) := by
  simp [throttleNow, testBit_maskOf]

/-- Counting reasons leaves an entry alone that counts none. -/
theorem num_accrueReasons_ne (m : Module) {k : Nat} (hk : ∀ n, k ≠ kTHROTTLE_US + (n - 1)) : (accrueReasons m).num k = m.num k :=
  forL_keeps (fun m : Module => m.num k) _ (fun n m => m.num_setNum_ne _ (hk n)) _ m

/-- Each listing of a reason counts 1 µs in its own counter. -/
theorem num_bumpReasons {i : Nat} (hi : 2 ≤ i) (l : List Nat) (m : Module) :
    (forL l m (fun n m => m.bump (kTHROTTLE_US + (n - 1)) 1)).num (kTHROTTLE_US + (i - 1)) = m.num (kTHROTTLE_US + (i - 1)) + l.count i := by
  induction l generalizing m with
  | nil => rfl
  | cons n l ih =>
    have hn : kTHROTTLE_US + (i - 1) = kTHROTTLE_US + (n - 1) ↔ n = i := by omega
    refine (ih (m.bump (kTHROTTLE_US + (n - 1)) 1)).trans ?_
    simp only [Module.num_bump, hn, List.count_cons, beq_iff_eq]
    omega

/-- A microsecond of a reason in force adds one to its counter (R7). -/
theorem num_accrueReasons (m : Module) {i : Nat} (hi : 2 ≤ i) (hi' : i < 10) :
    (accrueReasons m).num (kTHROTTLE_US + (i - 1)) = m.num (kTHROTTLE_US + (i - 1)) + if (throttleNow m).testBit i then 1 else 0 := by
  unfold accrueReasons
  rw [num_bumpReasons hi, (bitList_nodup _ _).count]
  simp [mem_bitList, hi']

/-! ### The gates that a fast loop chooses (R320, R327) -/

section
variable (m : Module) (gated rest bounds : List Nat) (dies target : Nat)

theorem gatesAt_le (level : Nat → Nat) {r : Nat} (hr : r < 16) : (gatesAt m bounds level).getD r 0 ≤ bounds.getD r 64 := by
  have hget : (gatesAt m bounds level).getD r 0 = min (bounds.getD r 64) (level (m.num (kCAP_PRIO + r))) := by
    rw [gatesAt, List.getD_eq_getElem?_getD, List.getElem?_map, List.getElem?_range hr, Option.map_some, Option.getD_some]
  exact Nat.le_trans (Nat.le_of_eq hget) (Nat.min_le_left _ _)

/-- Whatever the target, the gates are those of some level, under the bounds. -/
theorem chooseGates_eq_gatesAt : ∃ level, (chooseGates m gated rest dies target bounds).1 = gatesAt m bounds level := by
  unfold chooseGates
  simp only []
  split
  · exact ⟨fun _ => 64, rfl⟩
  · cases hfind : (gateLevels.map (gatesAt m bounds)).find? _ with
    | none => exact ⟨fun _ => 1, rfl⟩
    | some gates =>
      obtain ⟨level, -, hlevel⟩ := List.mem_map.mp (List.mem_of_find?_eq_some hfind)
      exact ⟨level, hlevel.symm⟩

theorem chooseGates_le {r : Nat} (hr : r < 16) : (chooseGates m gated rest dies target bounds).1.getD r 0 ≤ bounds.getD r 64 := by
  obtain ⟨level, h⟩ := chooseGates_eq_gatesAt m gated rest bounds dies target
  rw [h]
  exact gatesAt_le m bounds level hr

end

/-- The gates for the next microsecond, and whether the target lowers one: all 0 in a power failure; else those chosen under the
bounds of heat, HOST_GATE and rail current (R327, R328, R330). -/
def nextGates (x : Module) (gated rest rail : List Nat) (dies target : Nat) : List Nat × Bool :=
  if x.bellows.failing then (List.replicate 16 0, false)
  else chooseGates x gated rest dies target
    ((List.range 16).map (fun r => if (x.rg r).power.hotGate then 0 else min (x.num kHOST_GATE) (rail.getD r 64)))

theorem nextGates_le_hostGate (x : Module) (gated rest rail : List Nat) (dies target : Nat) {r : Nat} (hr : r < 16) :
    (nextGates x gated rest rail dies target).1.getD r 0 ≤ x.num kHOST_GATE := by
  unfold nextGates
  split
  · have hget : (List.replicate 16 0).getD r 0 = 0 := by
      rw [List.getD_eq_getElem?_getD, List.getElem?_replicate_of_lt hr, Option.getD_some]
    exact Nat.le_trans (Nat.le_of_eq hget) (Nat.zero_le _)
  · refine Nat.le_trans (chooseGates_le x gated rest _ dies target hr) ?_
    rw [List.getD_eq_getElem?_getD, List.getElem?_map, List.getElem?_range hr, Option.map_some, Option.getD_some]
    split
    · exact Nat.zero_le _
    · exact Nat.min_le_left _ _

/-- A region's gate and its rail hold for the next microsecond. -/
def setGate (gates rail : List Nat) (r : Nat) (p : Power) : Power :=
  { p with gate := gates.getD r 0, railHeld := decide (rail.getD r 64 < 64) }

/-- Set for each region in turn, every region's gate is its own. -/
theorem gate_forN_setGate (gates rail : List Nat) (m : Module) {n r : Nat} (hr : r < n) :
    ((forN n m (fun r m => m.modPower r (setGate gates rail r))).rg r).power.gate = gates.getD r 0 := by
  induction n with
  | zero => omega
  | succ n ih =>
    have hstep : forN (n + 1) m (fun r m => m.modPower r (setGate gates rail r))
        = (forN n m (fun r m => m.modPower r (setGate gates rail r))).modPower n (setGate gates rail n) := by
      simp [forN, List.range_succ]
    rw [hstep, Module.modPower]
    by_cases h : r = n
    · rw [h, Module.rg_modR]; rfl
    · rw [Module.rg_modR_ne _ _ h]; exact ih (by omega)

/-! ### The fast loop (R318) -/

section
variable (now r : Nat) (m : Module)

theorem withheld_nums : (withheld now r m).nums = m.nums := by
  unfold withheld
  split
  · rfl
  · exact forL_keeps Module.nums _ (fun k m => by simp) _ m

theorem withheld_test : (withheld now r m).test = m.test := by
  unfold withheld
  split
  · rfl
  · exact forL_keeps Module.test _ (fun k m => by simp) _ m

@[simp] theorem noteEstimate_nums (raw : Nat) : (noteEstimate r raw m).nums = m.nums := rfl
@[simp] theorem noteEstimate_test (raw : Nat) : (noteEstimate r raw m).test = m.test := rfl

theorem accrueReasons_test : (accrueReasons m).test = m.test := forL_keeps Module.test _ (by simp) _ m

variable (issued moved : List Nat) (dieCounts inputMv : Nat)

/-- A fast loop ends by setting the next gates, on a module x in which so far, of the dictionary's numbers and the tests, the counters
of the reasons alone have changed. -/
theorem fastLoop_sets_nextGates : ∃ (x : Module) (gated rest rail next : List Nat) (dies target : Nat) (low : Bool),
    fastLoop now issued moved dieCounts inputMv m
        = (forN 16 x (fun r m => m.modPower r (setGate next rail r))).modBel (fun b => { b with capped := low })
      ∧ nextGates x gated rest rail dies target = (next, low)
      ∧ (∃ y : Module, y.nums = m.nums ∧ x.nums = (accrueReasons y).nums) ∧ x.test = m.test := by
  generalize hloop : fastLoop now issued moved dieCounts inputMv m = t
  unfold fastLoop at hloop
  extract_lets gated rest dies y gates held noted e p s bucket x target rail bounds at hloop
  have hnums : x.nums = (accrueReasons y).nums :=
    calc x.nums = noted.nums := Module.modBel_nums _ _
      _ = held.nums := forN_keeps Module.nums _ (by simp) _ _
      _ = (accrueReasons y).nums := forN_keeps Module.nums _ (withheld_nums now) _ _
  have htest : x.test = m.test :=
    calc x.test = noted.test := Module.modBel_test _ _
      _ = held.test := forN_keeps Module.test _ (by simp) _ _
      _ = (accrueReasons y).test := forN_keeps Module.test _ (withheld_test now) _ _
      _ = y.test := accrueReasons_test y
      _ = m.test := rfl
  split at hloop
  next next low hnext => exact ⟨x, gated, rest, rail, next, dies, target, low, hloop.symm, hnext, ⟨y, rfl, hnums⟩, htest⟩

/-- What FAST_LOOP makes of the gates, HOST_GATE, the counter of reason 0x8 and the tests (R328). -/
theorem fastLoop_hostGate :
    let t := fastLoop now issued moved dieCounts inputMv m
    (∀ r, r < 16 → (t.rg r).power.gate ≤ t.num kHOST_GATE) ∧ t.num kHOST_GATE = m.num kHOST_GATE
      ∧ t.num (kTHROTTLE_US + 7) = m.num (kTHROTTLE_US + 7) + (if m.num kHOST_GATE < 64 then 1 else 0) ∧ t.test = m.test := by
  obtain ⟨x, gated, rest, rail, next, dies, target, low, hloop, hnext, ⟨y, hy, hx⟩, htest⟩ :=
    fastLoop_sets_nextGates now m issued moved dieCounts inputMv
  have hnum (k : Nat) : (fastLoop now issued moved dieCounts inputMv m).num k = (accrueReasons y).num k := by
    rw [hloop, Module.num_def, Module.modBel_nums, forN_keeps Module.nums _ (by simp), hx, Module.num_def]
  have hynum (k : Nat) : y.num k = m.num k := by rw [Module.num_def, hy, Module.num_def]
  have hhost : (accrueReasons y).num kHOST_GATE = m.num kHOST_GATE :=
    (num_accrueReasons_ne y (fun n => by unfold kHOST_GATE kTHROTTLE_US; omega)).trans (hynum _)
  refine ⟨fun r hr => ?_, (hnum _).trans hhost, ?_, ?_⟩
  · rw [hnum, Module.num_def, ← hx, ← Module.num_def, hloop, Module.rg_modBel]
    calc _ = next.getD r 0 := gate_forN_setGate next rail x hr
      _ = (nextGates x gated rest rail dies target).1.getD r 0 := by rw [hnext]
      _ ≤ x.num kHOST_GATE := nextGates_le_hostGate x gated rest rail dies target hr
  · rw [hnum, num_accrueReasons y (i := 8) (by omega) (by omega), testBit_throttleNow_host]
    simp only [hynum, decide_eq_true_eq]
  · rw [hloop, Module.modBel_test, forN_keeps Module.test _ (by simp), htest]

end

/-- With no self-test requested Drone has none to serve. -/
theorem serveTests_of_none {m : Module} (now : Nat) (h : m.test.reqs = []) : serveTests now m = m := by
  unfold serveTests
  rw [h]
  split <;> rfl

theorem exec_fastLoop (issued moved : List Nat) (dieCounts inputMv : Nat) (s : State) : exec (.fastLoop issued moved dieCounts inputMv) s
    = s.every tFAST us (fun now m => serveTests now (fastLoop now issued moved dieCounts inputMv m)) := by
  rfl

end Sys2Proof.Machine

namespace Sys2Proof

open Machine Claims

/-- Settles O2: the tick is 80 ns and one free value, and the fault that it may bring reaches no number and no region's work. -/
theorem idleStepIsOneTick : Obligations.IdleStepIsOneTick :=
  fun _ h => ⟨_, step_idle h, rfl, h, tickEff_nums _, tickEff_work _, tickEff_free _⟩

/-- Settles O8, by the forms of the commands' meanings: an effect falls at the present time, or at the later of it and a moment. -/
theorem timeNeverRunsBack : Obligations.TimeNeverRunsBack :=
  fun c s _ hc ht => (exec_proceeds c s hc).time_le ht

/-- Settles O50: the next gates are chosen under bounds that HOST_GATE limits, and each reason in force counts once. -/
theorem hostGateBoundsEveryGate : Obligations.HostGateBoundsEveryGate := by
  intro issued moved dieCounts inputMv s hup hreqs
  let now := max s.time (s.mod.timer tFAST + us)
  let m := (quiet s).setTimer tFAST (now - now % us)
  have hexec : exec (.fastLoop issued moved dieCounts inputMv) s
      = .next { s with time := now, mod := serveTests now (fastLoop now issued moved dieCounts inputMv m) } :=
    (exec_fastLoop issued moved dieCounts inputMv s).trans (every_up hup)
  obtain ⟨hgate, hhost, hreason, htest⟩ := fastLoop_hostGate now m issued moved dieCounts inputMv
  rw [serveTests_of_none now ((congrArg Test.reqs htest).trans hreqs)] at hexec
  generalize fastLoop now issued moved dieCounts inputMv m = t at hexec hgate hhost hreason
  exact ⟨_, hexec, hgate, hhost, hreason⟩

end Sys2Proof
end

section
/-! PROOFS. The statements of the module's queue: a command completes exactly when its parts exist, and a step keeps a queue of such commands. -/

namespace Sys2Proof.Machine

/-! ### Answers held to the parts that exist (R8, R13, log entry 6) -/

/-- An answer that goes on, with the queue as it was, exactly when the numbered parts exist, and else names the missing part. -/
def HeldTo (ok : Bool) (s : State) (o : Host.Outcome State Fault Refusal) : Prop :=
  ∃ t, t.pending = s.pending ∧ o = guarded ok (.next t)

section
variable {s t : State} {d : Nat} {c ok : Bool} {f : Nat → Module → Module} {o : Host.Outcome State Fault Refusal}

theorem heldTo_true : HeldTo true s o ↔ ∃ t, o = .next t ∧ t.pending = s.pending := exists_congr fun _ => and_comm

theorem heldTo_false : HeldTo false s o ↔ o = .fault .noSuchPart :=
  ⟨fun ⟨_, _, h⟩ => h, fun h => ⟨s, rfl, h⟩⟩

theorem HeldTo.guarded (h : HeldTo true s o) : HeldTo ok s (guarded ok o) := by
  obtain ⟨t, hpending, rfl⟩ := h
  exact ⟨t, hpending, rfl⟩

/-- The forms `always`, `does` and `reboots` answer so by definition. -/
theorem HeldTo.next (h : t.pending = s.pending) : HeldTo true s (.next t) := ⟨t, h, rfl⟩

theorem HeldTo.doesAt : HeldTo true s (s.doesAt d f) := by
  obtain ⟨t, ht, hpending, -⟩ := doesAt_goes (s := s) (d := d) (f := f)
  exact ⟨t, hpending, ht⟩

theorem HeldTo.doesWhen : HeldTo true s (s.doesWhen c d f) := .doesAt

theorem HeldTo.every {key period : Nat} : HeldTo true s (s.every key period f) := .doesAt

theorem HeldTo.serves : HeldTo true s (s.serves d f) := heldTo_true.mpr serves_goes

end

/-! ### The meanings that choose among forms, wait on a moment of their own, or number parts in another way than `Instr.partsOk` -/

theorem execResetCompleted_heldTo (d : Domain) (s : State) : HeldTo (okDom d) s (execResetCompleted d s) := by
  unfold execResetCompleted
  refine .guarded ?_
  split
  · exact .next rfl
  · split
    · exact .doesAt
    · exact .next rfl

theorem execAttestNonce_heldTo (nonce : List Byte) (s : State) : HeldTo true s (execAttestNonce nonce s) := by
  unfold execAttestNonce
  split
  · exact .doesAt
  · exact .next rfl

theorem execParkedRequestResume_heldTo (k : Nat) (s : State) : HeldTo true s (execParkedRequestResume k s) := by
  unfold execParkedRequestResume
  exact .serves

/-- ECHO_REQUEST reaches the four edge interfaces and the field port, numbered 4. -/
theorem execEchoRequest_heldTo (e : Nat) (src dst data : List Byte) (s : State) :
    HeldTo (decide (e < 5)) s (execEchoRequest e src dst data s) := by
  have hparts : decide (e < 5) = (okE e || e == 4) := by rw [Bool.eq_iff_iff]; simp [okE]; omega
  rw [hparts]
  exact .guarded (.next rfl)

/-- Every command is held to the parts that it numbers. The groups are the forms of the commands' own meanings; the last is the commands
that number parts and take effect at once. -/
theorem exec_heldTo (c : Instr) (s : State) : HeldTo c.partsOk s (exec c s) := by
  unfold exec
  cases c with
  | resetCompleted => exact execResetCompleted_heldTo _ _
  | attestNonce => exact execAttestNonce_heldTo _ _
  | echoRequest => exact execEchoRequest_heldTo _ _ _ _ _
  | dictRead | dictWrite | dictInfo => exact .serves
  | parkedRequestResume => exact execParkedRequestResume_heldTo _ _
  | requestTimeout | tagQuarantineEnd | fragmentSend | ackTimer | rtoExpiry | peerHeld | probeTimer | roundDeadline | quorumHoldExpiry
    | timeExchange | alignLost | poolTimeout | heldAccessComplete | telemTick | bistDeadline | portRecalTimer | calProgramDone
    | fwProgramDone | kexHoursTimer => exact .doesWhen
  | fastLoop | slowLoop | estimateRefit | heartbeatTick => exact .every
  | drainEnd | drainTimeout | descriptorComplete | dramTrainingAgeDue => exact .guarded .doesAt
  | regionRecoveryLate | quantumExpiry | switchComplete | waitUntilExpiry | descHoldTimeout | dupRecordExpiry | linkReplayTimeout
    | ackSendTimer | portDrainEnd | reasmTimeout | reserveStallTimeout | recallDeadlineExpiry | refreshWindowChange | selfRefreshEntry
    | pllRestart | vfStep | logicThermalTrip | dramThermalTrip | clusterReady | hostDupRecordExpiry | logicTestDone | keyUpdateTimer
    | keyRetire | dramRecalDone | keyUpdateRetry | longHaulRateRecovery => exact .guarded .doesWhen
  | logicSensorRead | dramSensorRead | sleepDecision => exact .guarded .every
  | coldStart | lossRecordWritten | resetNRise | resetModuleCold | recoveryImageCheck | railsStop | resetNLow | bypass | idcode
    | samplePreload | extest | imageLoad | powerFail | inputVoltageHigh | resetModuleWarm | resetRegion | resetDie | runEnter | alertAck
    | chanterDisable | fabricResponse | read | write | accum | gather | refetch | release | signalFrame | stage | credit | coll | regRd
    | regWr | dict | desc | pool | chanter | timing | delta | result | state | ack | resync | probe | probeReply | join | normModuleSum
    | normFence | poolQueryReply | poolPutReply | poolGetReply | poolCommitReply | manifestWrite | cutAt | restoreGo | restoreVerified
    | restoreApplied | divergenceEnter | divergenceExit | estimateOnlyExit | flagsClear | flagRegisterClear | registerWrite
    | moduleCommit | moduleDiscard | lock | fieldRequestReceive | storeSave | storeErase | storeComplete | transmitOpportunity
    | plcaBeacon | fieldNeighborSolicitation | logicTest | memoryTest | portRecal | dramRecal | rekey => exact .next rfl
  | _ => exact .guarded (.next rfl)

/-! ### A step takes the front of the queue -/

theorem step_cons {s : State} {c : Instr} {rest : List Instr} (h : s.pending = c :: rest) :
    step s = exec c { s with pending := rest } := by
  unfold step; rw [h]

end Sys2Proof.Machine

namespace Sys2Proof

open Machine Claims

/-- Settles O4: every command is held to the parts that it numbers. -/
theorem onlyMissingPartsStop : Obligations.OnlyMissingPartsStop := by
  intro c s
  have hheld := exec_heldTo c s
  refine ⟨fun hparts => ?_, fun hparts => ?_⟩ <;> rw [hparts] at hheld
  · obtain ⟨t, ht, -⟩ := heldTo_true.mp hheld
    exact ⟨t, ht⟩
  · exact heldTo_false.mp hheld

/-- Settles O6: the command at the front numbers existing parts and leaves the queue's rest alone; with no command waiting the step is
a tick (log entry 6). -/
theorem stepKeepsQueueOk : Obligations.StepKeepsQueueOk := by
  intro s hqueue
  cases hpending : s.pending with
  | nil =>
    rw [step_idle hpending]
    exact ⟨_, rfl, hqueue, hpending⟩
  | cons c rest =>
    rw [QueueOk, hpending, List.forall_mem_cons] at hqueue
    obtain ⟨hc, hrest⟩ := hqueue
    have hheld := exec_heldTo c { s with pending := rest }
    rw [hc] at hheld
    obtain ⟨t, ht, htail⟩ := heldTo_true.mp hheld
    exact ⟨t, (step_cons hpending).trans ht, by rwa [QueueOk, htail], htail⟩

end Sys2Proof
end

section
/-! PROOFS. The statements of the compute units: vector and matrix descriptors at work. -/

namespace Sys2Proof.Machine

open Claims

/-! ### Clusters after updates -/

section
variable (g : Region) (m : Module) (r : Nat) {c k : Nat}

@[simp] theorem Region.cl_setCl (x : Cluster) : (g.setCl c x).cl c = x := Tab.get_put_self _ _ _ _

theorem Region.cl_setCl_ne (x : Cluster) (h : k ≠ c) : (g.setCl c x).cl k = g.cl k := Tab.get_put_ne _ _ _ h

@[simp] theorem Cluster.un_setUn (x : Cluster) (u : Nat) (v : UnitSt) : (x.setUn u v).un u = v := Tab.get_put_self _ _ _ _

@[simp] theorem Module.rg_modCl (f : Cluster → Cluster) : (m.modCl r c f).rg r = (m.rg r).setCl c (f ((m.rg r).cl c)) := Module.rg_modR m r _

@[simp] theorem Module.rg_modWork (f : Work → Work) : (m.modWork r f).rg r = { m.rg r with work := f (m.rg r).work } := Module.rg_modR m r _

theorem Module.rg_of_regions {a b : Module} (h : b.regions = a.regions) : b.rg r = a.rg r := by
  rw [Module.rg, h, Module.rg]

end

/-! ### Events leave the regions alone (R311) -/

section
variable (now : Nat) (m : Module)

theorem postF_regions (fatal : Bool) (cls code src : Nat) (d : List Byte) : (postF fatal now cls code src d m).regions = m.regions := by
  unfold postF
  split
  · rfl
  · simp only []
    split
    · split <;> cases fatal <;> rfl
    · cases fatal <;> rfl

theorem noteBufMalformed_regions (r c requester : Nat) (slots : List Nat) : (noteBufMalformed now r c requester slots m).regions = m.regions :=
  forL_keeps Module.regions _ (fun _ _ => postF_regions now _ _ _ _ _ _) slots m

end

/-! ### A unit's working state put back (R34, R47) -/

/-- Region g' is g with the working state v put back: the cluster's buffer, the unit's accumulator memory and its sticky flags with those
raised; no other cluster, nothing of the stack and no descriptor in flight is touched. -/
structure UnitPut (c u : Nat) (v : Vm) (g g' : Region) : Prop where
  buf : (g'.cl c).buf = v.x.buf
  rows : ((g'.cl c).un u).rows = v.un.rows
  flags : ((g'.cl c).un u).flags = v.un.flags ||| v.flags.toNat
  clusters : ∀ k, k ≠ c → g'.cl k = g.cl k
  stack : g'.stack = g.stack
  flights : g'.work.flights = g.work.flights

/-- Module b is a with the working state v put back in region r, and every other region as it was. -/
structure UnitRan (r c u : Nat) (v : Vm) (a b : Module) : Prop where
  put : UnitPut c u v (a.rg r) (b.rg r)
  others : ∀ q, q ≠ r → b.rg q = a.rg q

section
variable {c u : Nat} {v : Vm} {g g' : Region}

theorem unitPut_setCl {x : Cluster} (hbuf : x.buf = v.x.buf) (hrows : (x.un u).rows = v.un.rows)
    (hflags : (x.un u).flags = v.un.flags ||| v.flags.toNat) (hclusters : ∀ k, k ≠ c → g'.cl k = g.cl k) (hstack : g'.stack = g.stack)
    (hflights : g'.work.flights = g.work.flights) : UnitPut c u v g (g'.setCl c x) where
  buf := by rw [Region.cl_setCl, hbuf]
  rows := by rw [Region.cl_setCl, hrows]
  flags := by rw [Region.cl_setCl, hflags]
  clusters k hk := (Region.cl_setCl_ne g' x hk).trans (hclusters k hk)
  stack := hstack
  flights := hflights

theorem UnitPut.work {w : Work} (h : UnitPut c u v g g') (hw : w.flights = g'.work.flights) : UnitPut c u v g { g' with work := w } :=
  { h with flights := hw.trans h.flights }

end

section
variable {r c u : Nat} {v : Vm} {a b : Module}

/-- A working state just taken is there, and raises nothing. -/
theorem unitRan_vmOf : UnitRan r c u (vmOf a r c u) a a where
  put := { buf := rfl, rows := rfl, flags := (Nat.or_zero _).symm, clusters := fun _ _ => rfl, stack := rfl, flights := rfl }
  others := fun _ _ => rfl

theorem UnitRan.bufWaits (h : UnitRan r c u v a b) : UnitRan r c u v a (bufWaits r c b) where
  put := by
    rw [Machine.bufWaits, Module.rg_modCl]
    exact unitPut_setCl h.put.buf h.put.rows h.put.flags h.put.clusters h.put.stack h.put.flights
  others q hq := (Module.rg_modR_ne _ _ hq).trans (h.others q hq)

theorem UnitRan.of_regions {a' b' : Module} (h : UnitRan r c u v a b) (ha : a'.regions = a.regions) (hb : b'.regions = b.regions) :
    UnitRan r c u v a' b' := by
  obtain ⟨hput, hothers⟩ := h
  refine ⟨?_, fun q hq => ?_⟩
  · rw [Module.rg_of_regions r ha, Module.rg_of_regions r hb]
    exact hput
  · rw [Module.rg_of_regions q ha, Module.rg_of_regions q hb]
    exact hothers q hq

/-- What `f` notes on the unit touches neither its accumulator memory nor its flags. -/
theorem unitRan_putVm {f : UnitSt → UnitSt} (hrows : ∀ un, (f un).rows = un.rows) (hflags : ∀ un, (f un).flags = un.flags) :
    UnitRan r c u v a (putVm r c u v f a) := by
  refine UnitRan.of_regions (a := a) (b := (a.modCl r c (fun _ => v.x.setUn u (f { v.un with flags := v.un.flags ||| v.flags.toNat }))).modWork r
    (fun w => { w with gens := v.gens })) ⟨?_, fun q hq => ?_⟩ rfl rfl
  · rw [Module.rg_modWork, Module.rg_modCl]
    refine .work (unitPut_setCl rfl ?_ ?_ (fun _ _ => rfl) rfl rfl) rfl <;> rw [Cluster.un_setUn]
    · exact hrows _
    · exact hflags _
  · exact (Module.rg_modR_ne _ _ hq).trans (Module.rg_modR_ne _ _ hq)

/-! ### The end of a descriptor's work (R84) -/

/-- A flight is found under its own number. -/
theorem flight?_id {w : Work} {id : Nat} {x : Flight} (h : w.flight? id = some x) : x.id = id := by simpa using List.find?_some h

theorem flight?_modFlight {w : Work} {id : Nat} {x : Flight} {f : Flight → Flight} (hf : ∀ y, (f y).id = y.id) (h : w.flight? id = some x) :
    (w.modFlight id f).flight? id = some (f x) := by
  have hkeep : (fun y : Flight => y.id == id) ∘ (fun y => if y.id = id then f y else y) = fun y => y.id == id := by
    funext y
    show ((if y.id = id then f y else y).id == id) = _
    split <;> simp [hf]
  rw [Work.flight?, Work.modFlight, List.find?_map, hkeep, ← Work.flight?, h, Option.map_some, if_pos (flight?_id h)]

/-- A flight whose work has ended. -/
def Flight.worked (status flags aux e : Nat) (x : Flight) : Flight :=
  { x with phase := 2, status := status, flags := flags, aux := aux, endAt := max x.endAt e }

variable {id status flags aux e : Nat} {x : Flight}

theorem rg_endFlight : (endFlight r id status flags aux e b).rg r
    = { b.rg r with work := (b.rg r).work.modFlight id (Flight.worked status flags aux e) } := Module.rg_modWork _ _ _

theorem rg_endFlight_ne {q : Nat} (h : q ≠ r) : (endFlight r id status flags aux e b).rg q = b.rg q := Module.rg_modR_ne _ _ h

/-- Where the work of a flight ends with a unit's working state put back, its result waits for the completion. -/
theorem UnitRan.worked {t : State} (h : UnitRan r c u v a b) (hx : (a.work r).flight? id = some x)
    (ht : t.mod = endFlight r id status flags aux e b) : Worked t r id x status flags aux := by
  have hb : (b.rg r).work.flight? id = some x := by rw [Work.flight?, h.put.flights]; exact hx
  refine ⟨x.worked status flags aux e, ?_, rfl, rfl, rfl, rfl, rfl, Nat.le_max_left _ _⟩
  rw [ht, Module.work, rg_endFlight]
  exact flight?_modFlight (fun _ => rfl) hb

/-- The end of the work leaves the unit's working state where it was put, and the rest of the module's regions with it. -/
theorem UnitRan.endFlight (h : UnitRan r c u v a b) : let t := endFlight r id status flags aux e b
    (t.cl r c).buf = v.x.buf ∧ (t.un r c u).rows = v.un.rows ∧ (t.un r c u).flags = v.un.flags ||| v.flags.toNat
      ∧ (∀ k, k ≠ c → t.cl r k = a.cl r k) ∧ (t.rg r).stack = (a.rg r).stack ∧ ∀ q, q ≠ r → t.rg q = a.rg q := by
  obtain ⟨⟨hbuf, hrows, hflags, hclusters, hstack, -⟩, hothers⟩ := h
  refine ⟨?_, ?_, ?_, ?_, ?_, fun q hq => (rg_endFlight_ne hq).trans (hothers q hq)⟩ <;> simp only [Module.un, Module.cl, rg_endFlight]
  · exact hbuf
  · exact hrows
  · exact hflags
  · exact hclusters
  · exact hstack

end

/-! ### A descriptor that a tainted row ends before it runs (R35) -/

theorem runVector_readsTaint {t : Vec} {v : Vm} (h : t.readsTaint v.un = true) : runVector t v = (v, 1) := if_pos h

theorem runMatrix_shut {t : Mat} {v : Vm} (h : t.shut v.un = true) : runMatrix t v = (v, 1) := if_pos (Bool.and_eq_true _ _ ▸ h)

/-! ### Descriptors at work on their units (R23, R40) -/

section
variable (now r : Nat) (x : Flight) (u : Nat) (m : Module)

theorem runVectorOn_readsTaint (h : (vecOf x.d).readsTaint (m.un r x.d.cluster u) = true) :
    runVectorOn r x u m = endFlight r x.id 1 0 0 x.from_ m := by
  rw [runVectorOn, runVector_readsTaint (v := vmOf m r x.d.cluster u) h]
  exact if_pos h

theorem runMatrixOn_shut (h : (matOf x.d).shut (m.un r x.d.cluster u) = true) :
    runMatrixOn now r x u m = endFlight r x.id 1 0 0 x.from_ m := by
  rw [runMatrixOn, runMatrix_shut (v := vmOf m r x.d.cluster u) h]
  exact if_pos h

/-- A vector descriptor's work is its unit's working state put back; no dictionary entry changes, and nothing is sent. -/
theorem runVectorOn_eq : let v := runVector (vecOf x.d) (vmOf m r x.d.cluster u)
    ∃ b e, UnitRan r x.d.cluster u v.1 m b ∧ runVectorOn r x u m = endFlight r x.id v.2 v.1.flags.toNat 0 e b
      ∧ b.nums = m.nums ∧ b.blobs = m.blobs ∧ b.out = m.out := by
  intro v
  cases htaint : (vecOf x.d).readsTaint (m.un r x.d.cluster u)
  case true =>
    have hv : v = (vmOf m r x.d.cluster u, 1) := runVector_readsTaint htaint
    rw [hv]
    exact ⟨m, x.from_, unitRan_vmOf, runVectorOn_readsTaint r x u m htaint, rfl, rfl, rfl⟩
  case false =>
    let cycles := m.gated r (m.waits ((vecOf x.d).cyclesOf v.1.issued))
    let b := putVm r x.d.cluster u v.1 (fun un => { un with vectorCycles := un.vectorCycles + cycles }) m
    have hb : UnitRan r x.d.cluster u v.1 m b := unitRan_putVm (fun _ => rfl) (fun _ => rfl)
    refine ⟨(if (vecOf x.d).buffered then bufWaits r x.d.cluster else id) b, x.from_ + m.cyclesNs r cycles, ?_, ?_, ?_⟩
    · split
      · exact hb.bufWaits
      · exact hb
    · exact if_neg (by rw [htaint]; decide)
    · split <;> exact ⟨rfl, rfl, rfl⟩

/-- A matrix descriptor's work, in the regions, is its unit's working state put back. -/
theorem runMatrixOn_eq : let v := runMatrix (matOf x.d) (vmOf m r x.d.cluster u)
    ∃ b e, UnitRan r x.d.cluster u v.1 m b
      ∧ runMatrixOn now r x u m
        = endFlight r x.id v.2 v.1.flags.toNat (if (matOf x.d).epi ∧ v.2 = 0 then toF32 v.1.amax else 0) e b := by
  intro v
  cases hshut : (matOf x.d).shut (m.un r x.d.cluster u)
  case true =>
    have hv : v = (vmOf m r x.d.cluster u, 1) := runMatrix_shut hshut
    rw [hv, if_neg (fun h => Nat.one_ne_zero h.2)]
    exact ⟨m, x.from_, unitRan_vmOf, runMatrixOn_shut now r x u m hshut⟩
  case false =>
    refine ⟨_, _, ?_, if_neg (by rw [hshut]; decide)⟩
    refine (unitRan_putVm ?_ ?_).bufWaits.of_regions ?_ (noteBufMalformed_regions _ _ _ _ _ _)
    · exact fun _ => rfl
    · exact fun _ => rfl
    · split <;> rfl

end

/-! ### The commands that run a dispatched descriptor -/

section
variable {r id : Nat} {x : Flight} {s : State}

/-- Whatever the command in hand sent, a ready descriptor is the one that runs. -/
theorem runnable_of_ready (h : Ready s r id x) {kind : Desc → Bool} (hkind : kind x.d = true) : runnable (quiet s) r id kind = some x := by
  obtain ⟨-, -, hhere, hphase, hready, hgate⟩ := h
  have hgate' : (quiet s).gate r ≠ 0 := hgate
  have hhere' : ((quiet s).work r).flight? id = some x := hhere
  simp [runnable, hhere', hphase, hready, hkind, hgate']

/-- Its unit issues, and no earlier descriptor on it has to run first (R32, R49). -/
theorem issues_of_ready (h : Ready s r id x) (horder : inRowOrder s.mod r x = true) :
    ¬((quiet s).gate r = 0 ∨ (!inRowOrder (quiet s) r x) = true) :=
  not_or.mpr ⟨h.gate, by rw [show inRowOrder (quiet s) r x = true from horder]; decide⟩

theorem does_quiet {f : Nat → Module → Module} (h : Up s) : s.does f = .next (withMod s (f s.time (quiet s))) := does_up h

theorem exec_vectorCommand {p : Nat × (Nat → Nat → Instr)} (hp : p ∈ vectorCommands) :
    exec (p.2 r id) s = guarded (okR r) (s.does (fun _ m => vectorEff p.1 r id m)) := by
  simp only [vectorCommands, List.mem_cons, List.not_mem_nil, or_false] at hp
  rcases hp with rfl | rfl | rfl | rfl | rfl | rfl | rfl | rfl | rfl | rfl | rfl | rfl | rfl | rfl | rfl | rfl | rfl | rfl | rfl | rfl | rfl
    | rfl | rfl <;> rfl

theorem exec_vector_ready {p : Nat × (Nat → Nat → Instr)} (hp : p ∈ vectorCommands) (h : Ready s r id x) (hcls : x.d.cls = 2)
    (hvop : (vecOf x.d).vop = p.1) (horder : inRowOrder s.mod r x = true) :
    exec (p.2 r id) s = .next (withMod s (runVectorOn r x (x.unit.getD 0) (quiet s))) := by
  have hrun := runnable_of_ready h (kind := fun d => d.cls == 2 && (vecOf d).vop == p.1) (by simp [hcls, hvop])
  rw [exec_vectorCommand hp, okR, decide_eq_true h.region, guarded_true, does_quiet h.up]
  simp only [vectorEff, hrun, if_neg (issues_of_ready h horder)]

theorem exec_matrix_ready (h : Ready s r id x) (hcls : x.d.cls = 1) (horder : inRowOrder s.mod r x = true) :
    exec (.matrixDescriptor r id) s = .next (withMod s (runMatrixOn s.time r x (x.unit.getD 0) (quiet s))) := by
  have hrun := runnable_of_ready h (kind := fun d => d.cls == 1) (by simp [hcls])
  show execMatrixDescriptor r id s = _
  rw [execMatrixDescriptor, okR, decide_eq_true h.region, guarded_true, does_quiet h.up]
  simp only [hrun, if_neg (issues_of_ready h horder)]

end

end Sys2Proof.Machine

namespace Sys2Proof

open Machine Claims

/-- Settles O21: the descriptor's work is its unit's working state put back, and its flight waits for the completion. -/
theorem vectorDescriptorsRun : Obligations.VectorDescriptorsRun := by
  intro p hp r id x s hready hcls hvop horder
  obtain ⟨b, e, hran, heq, hnums, hblobs, hout⟩ := runVectorOn_eq r x (x.unit.getD 0) (quiet s)
  rw [flight?_id hready.here] at heq
  obtain ⟨hbuf, hrows, hflags, hclusters, hstack, hothers⟩ := hran.endFlight
  refine ⟨_, exec_vector_ready hp hready hcls hvop horder, ?_⟩
  rw [heq]
  exact ⟨⟨rfl, hnums, hblobs, hout, hothers⟩, hran.worked hready.here rfl, hbuf, hrows, hflags, hclusters, hstack⟩

/-- Settles O22: as for the vector lane; the events of malformed slots and COMP_UNEXPECTED lie outside the regions. -/
theorem matrixDescriptorRuns : Obligations.MatrixDescriptorRuns := by
  intro r id x s hready hcls horder
  obtain ⟨b, e, hran, heq⟩ := runMatrixOn_eq s.time r x (x.unit.getD 0) (quiet s)
  rw [flight?_id hready.here] at heq
  refine ⟨_, exec_matrix_ready hready hcls horder, ?_⟩
  rw [heq]
  exact ⟨hran.worked hready.here rfl, hran.endFlight⟩

end Sys2Proof
end

section
/-! PROOFS. The special values of the element-wise operations: NaN operands, exceptions, signed zeros and subnormal inputs. -/

namespace Sys2Proof.Machine

/-! ### NaN operands (R26) -/

/-- A NaN with INVALID among its flags. -/
def InvalidNan (x : FR) : Prop := x.1 = .nan ∧ x.2 &&& fINVALID = fINVALID

theorem invalidNan_invalid : InvalidNan invalidNan := ⟨rfl, rfl⟩

theorem or_and_fINVALID : ∀ f g : Flags, g &&& fINVALID = fINVALID → (f ||| g) &&& fINVALID = fINVALID := by decide

/-- Flags raised besides leave INVALID set. -/
theorem InvalidNan.or {x : FR} (h : InvalidNan x) (f : Flags) : InvalidNan (x.1, f ||| x.2) := ⟨h.1, or_and_fINVALID f x.2 h.2⟩

theorem InvalidNan.round32 {x : FR} (h : InvalidNan x) (r : Option Nat) : InvalidNan (round32 r x) := by
  obtain ⟨v, f⟩ := x
  obtain ⟨rfl, hflag⟩ := h
  exact ⟨rfl, hflag⟩

section
variable (a b c : FV)

theorem rawAdd_nan_right : rawAdd a .nan = invalidNan := by cases a <;> rfl
theorem rawMul_nan_right : rawMul a .nan = invalidNan := by cases a <;> rfl

theorem fAdd_nan_right : InvalidNan (fAdd a .nan) := by rw [fAdd, rawAdd_nan_right]; exact invalidNan_invalid.round32 none
theorem fMul_nan_right : InvalidNan (fMul a .nan) := by rw [fMul, rawMul_nan_right]; exact invalidNan_invalid.round32 none

/-- A NaN takes a fused sum, through its product or as its addend. -/
theorem fFma_nan (h : rawMul a b = invalidNan ∨ c = .nan) : InvalidNan (fFma a b c) := by
  have hsum : rawAdd (rawMul a b).1 c = invalidNan := by
    rcases h with h | rfl
    · rw [h]; rfl
    · exact rawAdd_nan_right _
  rw [fFma, hsum]
  exact (invalidNan_invalid.or _).round32 none

/-- An operation that looks for a NaN first finds it among its operands. -/
theorem invalidNan_of_anyNan {xs : List FV} (h : .nan ∈ xs) (y : FR) : InvalidNan (if anyNan xs then invalidNan else y) := by
  have hany : anyNan xs = true := List.any_eq_true.mpr ⟨_, h, rfl⟩
  rw [if_pos hany]
  exact invalidNan_invalid

theorem fSiluMul_nan_left : InvalidNan (fSiluMul .nan b) := InvalidNan.or (x := fMul .nan b) invalidNan_invalid _

theorem fSiluMul_nan_right : InvalidNan (fSiluMul a .nan) := by
  have hstep : fSiluMul a .nan = FR.then_ (fSilu a) (fun x => fMul x .nan) := by cases a <;> rfl
  rw [hstep]
  exact (fMul_nan_right _).or _

/-! The three operands of an element-wise operation. -/

/-- FMA and SILU_MUL carry the NaN through a first step; every other operation answers one at once. -/
theorem elementOp_nan_first {v : Nat} (hknown : vopKnown v = true) (hv : v ≤ 0x15) : InvalidNan (elementOp v .nan b c) := by
  have hops : v = 0x04 ∨ v = 0x15
      ∨ v ∈ [0x00, 0x01, 0x02, 0x03, 0x05, 0x06, 0x07, 0x08, 0x09, 0x0A, 0x10, 0x11, 0x12, 0x13, 0x14] := by
    simp only [vopKnown, Bool.or_eq_true, Bool.and_eq_true, decide_eq_true_eq] at hknown
    simp only [List.mem_cons, List.not_mem_nil, or_false]
    omega
  rcases hops with rfl | rfl | hops
  · exact fFma_nan .nan b c (.inl rfl)
  · exact fSiluMul_nan_left b
  · have hat : elementOp v .nan b c = invalidNan := by
      simp only [List.mem_cons, List.not_mem_nil, or_false] at hops
      rcases hops with rfl | rfl | rfl | rfl | rfl | rfl | rfl | rfl | rfl | rfl | rfl | rfl | rfl | rfl | rfl <;> rfl
    rw [hat]
    exact invalidNan_invalid

theorem elementOp_nan_second {v : Nat} (huses : vopUsesB v = true) : InvalidNan (elementOp v a .nan c) := by
  simp only [vopUsesB, List.contains_iff_mem, List.mem_cons, List.not_mem_nil, or_false] at huses
  rcases huses with rfl | rfl | rfl | rfl | rfl | rfl | rfl | rfl | rfl
  · exact fAdd_nan_right a
  · exact fAdd_nan_right a
  · exact fMul_nan_right a
  · exact fFma_nan a .nan c (.inl (rawMul_nan_right a))
  · exact invalidNan_of_anyNan (xs := [a, .nan]) (by simp) _
  · exact invalidNan_of_anyNan (xs := [a, .nan]) (by simp) _
  · exact invalidNan_of_anyNan (xs := [a, .nan]) (by simp) _
  · exact invalidNan_of_anyNan (xs := [a, .nan, c]) (by simp) _
  · exact fSiluMul_nan_right a

theorem elementOp_nan_third {v : Nat} (huses : vopUsesC v = true) (hv : v ≤ 0x15) : InvalidNan (elementOp v a b .nan) := by
  simp only [vopUsesC, List.contains_iff_mem, List.mem_cons, List.not_mem_nil, or_false] at huses
  have hops : v = 4 ∨ v = 0x0A := by omega
  rcases hops with rfl | rfl
  · exact fFma_nan a b .nan (.inr rfl)
  · exact invalidNan_of_anyNan (xs := [a, b, .nan]) (by simp) _

end

/-! ### Exceptions and zeros (R26, R40) -/

/-- log₂ and 1/√ of a negative value are invalid. -/
theorem elementOp_negative {m : Nat} (hm : m ≠ 0) (e : Int) (b c : FV) :
    elementOp 0x11 (.num true m e) b c = invalidNan ∧ elementOp 0x13 (.num true m e) b c = invalidNan :=
  ⟨(if_neg hm).trans (if_pos rfl), (if_neg hm).trans (if_pos rfl)⟩

/-- ∞ · 0 and ∞ − ∞ are invalid. -/
theorem elementOp_infinity (n n' : Bool) (e : Int) (c : FV) :
    elementOp 0x03 (.inf n) (.num n' 0 e) c = invalidNan ∧ elementOp 0x03 (.num n' 0 e) (.inf n) c = invalidNan
      ∧ elementOp 0x01 (.inf n) (.inf (!n)) c = invalidNan ∧ elementOp 0x02 (.inf n) (.inf n) c = invalidNan := by
  cases n <;> exact ⟨rfl, rfl, rfl, rfl⟩

/-- Of zeros of both signs +0 is the larger, in either order. -/
theorem elementOp_signedZeros (n : Bool) (c : FV) :
    elementOp 0x05 (.num n 0 0) (.num (!n) 0 0) c = (.num false 0 0, 0) ∧ elementOp 0x06 (.num n 0 0) (.num (!n) 0 0) c = (.num true 0 0, 0) := by
  cases n <;> exact ⟨rfl, rfl⟩

/-! ### Subnormal inputs (R53) -/

/-- The formats of floating-point elements have codes up to 7 (R19). -/
theorem fmtOf_kind {code : Nat} {f : Fmt} (hcode : code ≤ 7) (hf : fmtOf code = some f) : f.kind ≠ .int := by
  have hcodes : code = 0 ∨ code = 1 ∨ code = 2 ∨ code = 3 ∨ code = 4 ∨ code = 5 ∨ code = 6 ∨ code = 7 := by omega
  rcases hcodes with rfl | rfl | rfl | rfl | rfl | rfl | rfl | rfl <;> cases hf <;> decide

theorem decodeFmt_subnormal {f : Fmt} {w : Nat} (hkind : f.kind ≠ .int) (hexp : (w >>> f.mbits) % 2 ^ f.ebits = 0) :
    decodeFmt f w = .num (w.testBit (f.mbits + f.ebits)) 0 0 := by
  unfold decodeFmt
  split
  next hint => exact absurd hint hkind
  next => exact if_pos hexp

end Sys2Proof.Machine

namespace Sys2Proof

open Machine

/-- Settles O24: a NaN by the operand that it is, the exceptions and zeros by evaluation, the subnormal inputs by the kind of their format. -/
theorem specialValues : Obligations.SpecialValues := by
  refine ⟨fun v a b c hknown hv hnan => ?_, fun n e b c => ⟨rfl, rfl, rfl, rfl, rfl⟩, fun m e b c hm => elementOp_negative hm e b c,
    elementOp_infinity, elementOp_signedZeros, fun code f w hcode hf hexp => decodeFmt_subnormal (fmtOf_kind hcode hf) hexp⟩
  rcases hnan with rfl | ⟨huses, rfl⟩ | ⟨huses, rfl⟩
  · exact elementOp_nan_first b c hknown hv
  · exact elementOp_nan_second a c huses
  · exact elementOp_nan_third a b huses hv

end Sys2Proof
end

section
/-! PROOFS. The statement of flags and registers: sticky flags cleared, register writes by their outcome, and accesses that were held. -/

namespace Sys2Proof.Machine

open Claims

/-! ### Tables mapped value by value -/

section
variable {α : Type} (f : α → α) (t : Tab α) (k : Nat)

theorem Tab.find?_mapValues : Tab.find? (t.map (fun p => (p.1, f p.2))) k = (Tab.find? t k).map f := by
  induction t with
  | nil => rfl
  | cons p t ih =>
    obtain ⟨j, w⟩ := p
    simp only [List.map_cons, Tab.find?]
    split
    · rfl
    · exact ih

/-- A map that keeps the default acts on every key, listed or not. -/
theorem Tab.get_mapValues {d : α} (hd : f d = d) : Tab.get d (t.map (fun p => (p.1, f p.2))) k = f (Tab.get d t k) := by
  rw [Tab.get, Tab.find?_mapValues, Tab.get]
  cases Tab.find? t k with
  | none => exact hd.symm
  | some w => rfl

end

/-! ### The bits that a write clears (R64) -/

theorem clearFlags_zero (v : Nat) : clearFlags 0 v = 0 := Nat.zero_and _

theorem clearFlags_all {v : Nat} (h : 15 ≤ v % 16) (x : Nat) : clearFlags x v = 0 := by
  have hall : 15 - flagBits v = 0 := Nat.sub_eq_zero_of_le h
  rw [clearFlags, hall, Nat.and_zero]

/-- Within the four flags a bit stays set unless it is written as 1. -/
theorem testBit_clearFlags {f i : Nat} (v : Nat) (hf : f < 16) (hi : i < 4) : (clearFlags f v).testBit i = (f.testBit i && !v.testBit i) := by
  have hcompl : (15 - v % 16).testBit i = !v.testBit i := by
    have hlow : v % 16 < 2 ^ 4 := Nat.mod_lt v (by decide)
    have hsub : 15 - v % 16 = 2 ^ 4 - (v % 16 + 1) := by omega
    have hmod : (v % 16).testBit i = v.testBit i := by rw [Nat.testBit_mod_two_pow (j := 4), decide_eq_true hi, Bool.true_and]
    rw [hsub, Nat.testBit_two_pow_sub_succ hlow, decide_eq_true hi, Bool.true_and, hmod]
  rw [clearFlags, flagBits, flagBits, Nat.mod_eq_of_lt hf, Nat.testBit_and, hcompl]

/-! ### Every flag register changed at once (R65) -/

section
variable {f : Nat → Nat} (hf : f 0 = 0) (m : Module) (r c u : Nat)
include hf

theorem Module.rg_mapFlags : (m.mapFlags f).rg r = (m.rg r).mapFlags f :=
  Tab.get_mapValues (Region.mapFlags f) m.regions r (by simp [Region.mapFlags, hf])

theorem Region.cl_mapFlags (g : Region) : (g.mapFlags f).cl c = (g.cl c).mapFlags f :=
  Tab.get_mapValues (Cluster.mapFlags f) g.clusters c (by simp [Cluster.mapFlags, hf])

theorem Cluster.un_mapFlags (x : Cluster) : (x.mapFlags f).un u = { x.un u with flags := f (x.un u).flags } :=
  Tab.get_mapValues (fun y : UnitSt => { y with flags := f y.flags }) x.units u (by simp [hf])

theorem Module.cl_mapFlags : (m.mapFlags f).cl r c = (m.cl r c).mapFlags f := by
  rw [Module.cl, Module.rg_mapFlags hf, Region.cl_mapFlags hf, Module.cl]

theorem Module.un_mapFlags : (m.mapFlags f).un r c u = { m.un r c u with flags := f (m.un r c u).flags } := by
  rw [Module.un, Module.cl_mapFlags hf, Cluster.un_mapFlags hf, Module.un]

theorem Module.collFlags_mapFlags : Tab.get 0 (m.mapFlags f).fabric.collFlags r = f (Tab.get 0 m.fabric.collFlags r) :=
  Tab.get_mapValues f m.fabric.collFlags r hf

end

/-! ### FLAGS_OR (R65) -/

theorem foldl_or_zero {α : Type} {g : α → Nat} {l : List α} (h : ∀ a ∈ l, g a = 0) : l.foldl (fun n a => n ||| g a) 0 = 0 := by
  induction l with
  | nil => rfl
  | cons a l ih =>
    rw [List.foldl_cons, h a List.mem_cons_self, Nat.or_zero]
    exact ih fun b hb => h b (List.mem_cons_of_mem a hb)

/-- With every flag clear the ORs of clusters and regions are 0. -/
theorem Cluster.flagsOr_mapFlags_zero (x : Cluster) : (x.mapFlags fun _ => 0).flagsOr = 0 := by
  refine foldl_or_zero fun y hy => ?_
  obtain ⟨w, -, rfl⟩ := List.mem_map.mp hy
  rfl

theorem Region.flagsOr_mapFlags_zero (g : Region) : (g.mapFlags fun _ => 0).flagsOr = 0 := by
  refine foldl_or_zero fun y hy => ?_
  obtain ⟨w, -, rfl⟩ := List.mem_map.mp hy
  exact Cluster.flagsOr_mapFlags_zero w.2

section
variable (m : Module)

theorem num_refreshFlags_ne {k : Nat} (hor : k ≠ kFLAGS_OR) (hregions : k ≠ kFLAGS_REGIONS) : (refreshFlags m).num k = m.num k :=
  (Module.num_setNum_ne _ _ hregions).trans (Module.num_setNum_ne _ _ hor)

theorem refreshFlags_cleared : let t := refreshFlags (m.mapFlags fun _ => 0)
    t.num kFLAGS_OR = 0 ∧ t.num kFLAGS_REGIONS = 0 := by
  have hregions : (m.mapFlags fun _ => 0).regions.foldl (fun n g => n ||| g.2.flagsOr) 0 = 0 := foldl_or_zero fun g hg => by
    obtain ⟨w, -, rfl⟩ := List.mem_map.mp hg
    exact Region.flagsOr_mapFlags_zero w.2
  have hdies : (m.mapFlags fun _ => 0).fabric.collFlags.foldl (fun n d => n ||| d.2) 0 = 0 := foldl_or_zero fun d hd => by
    obtain ⟨w, -, rfl⟩ := List.mem_map.mp hd
    rfl
  have hnone : (List.range 16).filter (fun r => decide (((m.mapFlags fun _ => 0).rg r).flagsOr ≠ 0)) = [] :=
    List.filter_eq_nil_iff.mpr fun r _ => by simp [Module.rg_mapFlags, Region.flagsOr_mapFlags_zero]
  have hne : kFLAGS_OR ≠ kFLAGS_REGIONS := by decide
  simp only [refreshFlags, hregions, hdies, hnone, Module.num_setNum_ne _ _ hne, Module.num_setNum]
  decide

variable (v : Nat)

theorem flagsClear_units (r c u : Nat) : let t := flagsClear v m
    (t.un r c u).flags = clearFlags (m.un r c u).flags v ∧ (t.un r c u).rows = (m.un r c u).rows
      ∧ (t.cl r c).convFlags = clearFlags (m.cl r c).convFlags v ∧ (t.cl r c).buf = (m.cl r c).buf := by
  have hun : (flagsClear v m).un r c u = _ := Module.un_mapFlags (clearFlags_zero v) m r c u
  have hcl : (flagsClear v m).cl r c = _ := Module.cl_mapFlags (clearFlags_zero v) m r c
  simp [hun, hcl, Cluster.mapFlags]

theorem flagsClear_region (r : Nat) : let t := flagsClear v m
    (t.rg r).train.ulaneFlags = clearFlags (m.rg r).train.ulaneFlags v ∧ t.work r = m.work r ∧ (t.rg r).stack = (m.rg r).stack := by
  have hrg : (flagsClear v m).rg r = _ := Module.rg_mapFlags (clearFlags_zero v) m r
  simp [Module.work, hrg, Region.mapFlags]

theorem flagsClear_or (h : 15 ≤ v % 16) : (flagsClear v m).num kFLAGS_OR = 0 ∧ (flagsClear v m).num kFLAGS_REGIONS = 0 := by
  have hall : (fun x => clearFlags x v) = fun _ => 0 := funext (clearFlags_all h)
  rw [flagsClear, hall]
  exact refreshFlags_cleared m

/-- What FLAGS_CLEAR changes, and what it leaves. -/
theorem flagsClear_eq : let t := flagsClear v m
    (∀ r c u, (t.un r c u).flags = clearFlags (m.un r c u).flags v ∧ (t.un r c u).rows = (m.un r c u).rows
        ∧ (t.cl r c).convFlags = clearFlags (m.cl r c).convFlags v ∧ (t.cl r c).buf = (m.cl r c).buf)
      ∧ (∀ r, (t.rg r).train.ulaneFlags = clearFlags (m.rg r).train.ulaneFlags v ∧ t.work r = m.work r ∧ (t.rg r).stack = (m.rg r).stack)
      ∧ (∀ d, Tab.get 0 t.fabric.collFlags d = clearFlags (Tab.get 0 m.fabric.collFlags d) v) ∧ t.fabric.reqs = m.fabric.reqs
      ∧ (15 ≤ v % 16 → t.num kFLAGS_OR = 0 ∧ t.num kFLAGS_REGIONS = 0)
      ∧ ∀ k, k ≠ kFLAGS_OR → k ≠ kFLAGS_REGIONS → t.num k = m.num k :=
  ⟨flagsClear_units m v, flagsClear_region m v, Module.collFlags_mapFlags (f := fun x => clearFlags x v) (clearFlags_zero v) m, rfl, flagsClear_or m v,
    fun _ hor hregions => num_refreshFlags_ne _ hor hregions⟩

end

theorem exec_flagsClear (v : Nat) {s : State} (h : Up s) : exec (.flagsClear v) s = .next (withMod s ((flagsClear v (quiet s)).status 0)) := by
  show execFlagsClear v s = _
  rw [execFlagsClear, does_quiet h]

/-! ### A flag register by its address (R63, R278) -/

section
variable {r c u k : Nat}

/-- The flag registers of units and of conversion stages, at each place of their groups. -/
theorem flagRegAt_cluster (hr : r < 16) (hc : c < 16) (hu : u < 8) (hk : k < 8) :
    flagRegAt (0x100 + 16 * r + c) (0x1000 + 0x100 * u + 32 * k) = some (.unit r c u)
      ∧ flagRegAt (0x100 + 16 * r + c) (0x800 + 32 * k) = some (.conv r c) := by
  have hblock : 0x100 ≤ 0x100 + 16 * r + c ∧ 0x100 + 16 * r + c < 0x200 := by omega
  have hregion : (0x100 + 16 * r + c - 0x100) / 16 = r := by omega
  have hcluster : (0x100 + 16 * r + c) % 16 = c := by omega
  constructor <;> rw [flagRegAt, if_pos hblock, hregion, hcluster]
  · have hunit (base : Nat) : (base + 0x100 * u + 32 * k - base) / 256 = u := by omega
    rw [if_pos (by omega), hunit]
  · rw [if_neg (by omega), if_pos (by omega)]

theorem flagRegAt_updateLane (hr : r < 16) (hk : k < 8) : flagRegAt (0x010 + r) (0x400 + 32 * k) = some (.ulane r) := by
  have hcluster : ¬(0x100 ≤ 0x010 + r ∧ 0x010 + r < 0x200) := by omega
  have hregion : 0x010 ≤ 0x010 + r ∧ 0x010 + r < 0x020 := by omega
  have hgroup : 0x0400 ≤ 0x400 + 32 * k ∧ 0x400 + 32 * k < 0x0500 ∧ (0x400 + 32 * k) % 32 < 8 := by omega
  have hindex : 0x010 + r - 0x010 = r := by omega
  rw [flagRegAt, if_neg hcluster, if_pos hregion, if_pos hgroup, hindex]

variable {block off v : Nat} {s : State} (h : Up s)
include h

theorem exec_flagRegisterClear_some {x : FlagReg} (hx : flagRegAt block off = some x) : exec (.flagRegisterClear block off v) s
    = .next (withMod s (if off % 8 = 0 then (x.clear v (quiet s)).status 0 else (quiet s).status 0)) := by
  show execFlagRegisterClear block off v s = _
  rw [execFlagRegisterClear, does_quiet h, hx]

theorem exec_flagRegisterClear_none (hx : flagRegAt block off = none) :
    exec (.flagRegisterClear block off v) s = .next (withMod s ((quiet s).status 2)) := by
  show execFlagRegisterClear block off v s = _
  rw [execFlagRegisterClear, does_quiet h, hx]

end

/-! ### The frame that a register write stands for (R277) -/

theorem length_leBytes (n v : Nat) : (leBytes n v).length = n := by
  induction n generalizing v with
  | zero => rfl
  | succ n ih => rw [leBytes, List.length_cons, ih]

theorem leNat_leBytes {n v : Nat} (h : v < 2 ^ (8 * n)) : leNat (leBytes n v) = v := by
  induction n generalizing v with
  | zero => exact (Nat.lt_one_iff.mp h).symm
  | succ n ih =>
    have hrest : v / 256 < 2 ^ (8 * n) := Nat.div_lt_of_lt_mul (by rwa [Nat.mul_succ, Nat.add_comm, Nat.pow_add] at h)
    rw [leBytes, leNat, ih hrest, BitVec.toNat_ofNat]
    exact Nat.mod_add_div v 256

section
variable {b off width : Nat} (v : Nat) (m : Module)

theorem regWidth_writeFrame : regWidth (writeFrame m b off width v) = width := length_leBytes width v

theorem bits_blockAddr (hb : b < 4096) (hoff : off < 65536) : bits (b * 65536 + off) 27 16 = b := by
  rw [bits, Nat.shiftRight_eq_div_pow]
  omega

theorem regBlock_writeFrame (hb : b < 4096) (hoff : off < 65536) : regBlock (writeFrame m b off width v) = b := bits_blockAddr hb hoff

/-- An access that is too wide or too narrow, not aligned, or outside the used blocks is not well formed. -/
theorem accessOk_of_malformed (hb : b < 4096) (hoff : off < 65536) (h : (width ≠ 4 ∧ width ≠ 8) ∨ off % width ≠ 0 ∨ blockUsed b = false) :
    accessOk (b * 65536 + off) width = false := by
  have hmod : width = 4 ∨ width = 8 → (b * 65536 + off) % width = off % width := by rintro (rfl | rfl) <;> omega
  simp only [accessOk, bits_blockAddr hb hoff, Bool.and_eq_false_iff, Bool.or_eq_false_iff, beq_eq_false_iff_ne]
  by_cases hwidth : width = 4 ∨ width = 8
  · rw [hmod hwidth]
    have hsized : ¬(width ≠ 4 ∧ width ≠ 8) := by omega
    rcases h with h | h | h
    · exact absurd h hsized
    · exact .inl (.inl (.inr h))
    · exact .inr h
  · exact .inl (.inl (.inl (not_or.mp hwidth)))

/-! ### Register writes by their outcome (R278, R286) -/

/-- The ways that a write of a source within the register windows can go. -/
theorem routeAccess_write (now : Nat) (src : Source) (hb : b < 4096) (hoff : off < 65536) : let f := writeFrame m b off width v
    routeAccess now (.command src) f .mesh m
      = if accessOk (b * 65536 + off) width = false then m.status 2
        else if domainSilent m (domainOf b) = true then m
        else if domainInReset m (domainOf b) = true then m.status 9
        else if accessWaits m (.command src) f = true then holdAccess now (.command src) f .mesh m
        else answered (regWrite now src b off width (leNat (leBytes width v)) m) := by
  intro f
  have haddr : f.addr % 2 ^ 41 = b * 65536 + off := Nat.mod_eq_of_lt (show b * 65536 + off < 2 ^ 41 by omega)
  have hoffset : f.addr % 65536 = off := show (b * 65536 + off) % 65536 = off by omega
  have hlen : f.len = width := length_leBytes width v
  simp only [routeAccess, performAccess, refuseAccess, dropRung, haddr, hoffset, hlen, regBlock_writeFrame v m hb hoff, f,
    regWidth_writeFrame, Bool.not_eq_true']
  rfl

end

section
variable {src : Source} {b off width v : Nat} {s : State} (h : Up s)
include h

theorem exec_registerWrite : exec (.registerWrite src b off width v) s = .next (withMod s
    (if 4096 ≤ b ∨ 65536 ≤ off ∨ 8 < width then (quiet s).status 2
      else routeAccess s.time (.command src) (writeFrame (quiet s) b off width v) .mesh (quiet s))) := by
  show execRegisterWrite src b off width v s = _
  rw [execRegisterWrite, does_quiet h]

theorem exec_registerWrite_malformed
    (hbad : 4096 ≤ b ∨ 65536 ≤ off ∨ (width ≠ 4 ∧ width ≠ 8) ∨ off % width ≠ 0 ∨ blockUsed b = false) :
    exec (.registerWrite src b off width v) s = .next (withMod s ((quiet s).status 2)) := by
  rw [exec_registerWrite h]
  by_cases hwindow : 4096 ≤ b ∨ 65536 ≤ off ∨ 8 < width
  · rw [if_pos hwindow]
  · obtain ⟨hb, hoff, -⟩ := not_or.mp hwindow |>.imp_right not_or.mp
    rw [if_neg hwindow, routeAccess_write _ _ _ _ (Nat.lt_of_not_le hb) (Nat.lt_of_not_le hoff), if_pos]
    exact accessOk_of_malformed (Nat.lt_of_not_le hb) (Nat.lt_of_not_le hoff) ((hbad.resolve_left hb).resolve_left hoff)

variable (hb : b < 4096) (hoff : off < 65536) (hok : accessOk (b * 65536 + off) width = true)
include hb hoff hok

/-- A well formed write goes by the state of its domain. -/
theorem exec_registerWrite_ok : exec (.registerWrite src b off width v) s = .next (withMod s
    (if domainSilent s.mod (domainOf b) = true then quiet s
      else if domainInReset s.mod (domainOf b) = true then (quiet s).status 9
      else if accessWaits (quiet s) (.command src) (writeFrame (quiet s) b off width v) = true then
        holdAccess s.time (.command src) (writeFrame (quiet s) b off width v) .mesh (quiet s)
      else answered (regWrite s.time src b off width (leNat (leBytes width v)) (quiet s)))) := by
  have hwidth : width = 4 ∨ width = 8 := by
    simp only [accessOk, Bool.and_eq_true, Bool.or_eq_true, beq_iff_eq] at hok
    obtain ⟨⟨⟨hsized, -⟩, -⟩, -⟩ := hok
    exact hsized
  rw [exec_registerWrite h, if_neg (by omega), routeAccess_write _ _ _ _ hb hoff, if_neg (by simp [hok])]
  rfl

end

/-! ### Accesses that wait (R286) -/

/-- The parts of the module that waking a domain leaves alone. -/
def Module.accessParts (m : Module) := (m.heldAccess, m.blobs, m.staging, m.bridge)

section
variable (now : Nat) (m : Module)

theorem wakePll_accessParts (r : Nat) : (wakePll now r m).accessParts = m.accessParts := by
  simp only [wakePll]
  split <;> rfl

theorem requestStart_accessParts (r c prio : Nat) : (requestStart now r c prio m).accessParts = m.accessParts := by
  refine Eq.trans ?_ (wakePll_accessParts now m r)
  simp only [requestStart]
  split
  · split <;> rfl
  · rfl

theorem wakeDomain_accessParts (d : Nat) : (wakeDomain now d m).1.accessParts = m.accessParts := by
  unfold wakeDomain
  split
  · split
    · exact wakePll_accessParts now m _
    · exact requestStart_accessParts now m _ _ 3
  · rfl

theorem wakeAccess_accessParts (f : Frame) : (wakeAccess now f m).1.accessParts = m.accessParts := by
  unfold wakeAccess
  split
  · exact forL_keeps Module.accessParts _ (fun r m => wakePll_accessParts now m r) _ m
  · exact wakeDomain_accessParts now m _

theorem holdAccess_eq (asker : Asker) (f : Frame) (via : Via) : let t := holdAccess now asker f via m
    (∃ h, t.heldAccess = m.heldAccess ++ [h] ∧ h.frame = f ∧ h.asker = asker ∧ h.since = now)
      ∧ t.blobs = m.blobs ∧ t.staging = m.staging ∧ t.bridge = m.bridge := by
  have hparts := wakeAccess_accessParts now m f
  simp only [Module.accessParts, Prod.mk.injEq] at hparts
  obtain ⟨hheld, hblobs, hstaging, hbridge⟩ := hparts
  exact ⟨⟨_, congrArg (· ++ _) hheld, rfl, rfl, rfl⟩, hblobs, hstaging, hbridge⟩

end

section
variable {k : Nat} {s : State} (h : Up s)
include h

theorem exec_heldAccessComplete_some {x : HeldAccess} (hx : heldReady s.mod k = some x) :
    exec (.heldAccessComplete k) s = .next (atTime s x.until_ (fun now m =>
      performAccess now x.asker x.frame x.via ({ m with heldAccess := m.heldAccess.filter (fun y => y.id ≠ k) }.bump kREG_STALL_NS (now - x.since)))) := by
  have hquiet : heldReady { s.mod with out := [] } k = some x := hx
  show execHeldAccessComplete k s = _
  rw [execHeldAccessComplete, hx]
  refine (doesWhen_up h rfl).trans ?_
  simp only [hquiet]
  rfl

theorem exec_heldAccessComplete_none (hx : heldReady s.mod k = none) : exec (.heldAccessComplete k) s = .next (withMod s (quiet s)) := by
  show execHeldAccessComplete k s = _
  rw [execHeldAccessComplete, hx]
  refine (doesAt_up h).trans ?_
  simp [withMod, quiet]

end

/-! ### Register writes by their fields (R278, R281) -/

section
variable (now : Nat) (src : Source) {b off width v : Nat} (m : Module)

/-- An offset that no register has is counted, and neither read nor written. -/
theorem regWrite_void (hbridge : bridgeBlock b = false) (hvoid : canonOff b off = none) :
    regWrite now src b off width v m = (m.bump kREG_VOID 1, 0) ∧ regRead now b off width m = (m.bump kREG_VOID 1, 0) := by
  constructor
  · simp [regWrite, hbridge, hvoid]
  · simp [regRead, hvoid]

theorem stage_refused {g st : Nat} {xs : List Staged} (hxs : xs ≠ []) (hst : stageStatus m src g xs = st) (hne : st ≠ 0) :
    stage now src g xs m = (m, st) := by
  subst hst
  rw [stage, if_neg hxs]
  exact if_pos hne

/-- A write is its direct fields and then its staged fields. -/
theorem regWrite_some {o : Nat} (hbridge : bridgeBlock b = false) (hoff : canonOff b off = some o) :
    let a := directFields now src b (o / 8 * 8) (wordMask (o % 8) width) (wordValue (o % 8) width v) m
    let a' := stage now src (groupOfBlock b) (fieldItems m now b (o / 8 * 8) (o % 8) width v) a.1
    regWrite now src b off width v m = (a'.1, if a.2 ≠ 0 then a.2 else a'.2) := by
  simp [regWrite, hbridge, hoff]

end

/-! ### Sync counters written (R99) -/

theorem Work.counter_setCounter {k : Nat} (w : Work) (v : Nat) (hk : k < 255) : (w.setCounter k v).counter k = v % 65536 := by
  rw [Work.setCounter, if_pos hk]
  exact Tab.get_set_self 0 _ k _

theorem Work.counter_setCounter_ne {k j : Nat} (w : Work) (v : Nat) (hj : j ≠ k) : (w.setCounter k v).counter j = w.counter j := by
  rw [Work.setCounter]
  split
  · exact Tab.get_set_ne 0 _ _ hj
  · rfl

theorem restall_regions (now : Nat) (m : Module) : (restall now m).regions = m.regions := by
  refine forL_keeps Module.regions _ (fun i m => ?_) _ m
  simp only [markStalls]
  split <;> rfl

section
variable (now : Nat) (src : Source) {r w : Nat} (mask v : Nat) (m : Module)

/-- A word of the sync counters sets those two of its counters that the write covers. -/
theorem regionDirect_syncCounter (hlo : 0x2000 ≤ w) (hhi : w < 0x2400) : let k := (w - 0x2000) / 4
    let x := if mask.testBit 0 then m.modWork r (fun y => y.setCounter k v) else m
    regionDirect now r w mask v m = if mask.testBit 32 then x.modWork r (fun y => y.setCounter (k + 1) (v / 2 ^ 32)) else x := by
  have hswitch : w ≠ 0x0200 := by omega
  have hflags : w ≠ 0x0400 := by omega
  have hfence : w ≠ 0x0800 := by omega
  have hqueue : ¬(0x1000 ≤ w ∧ w < 0x1800) := by omega
  simp only [regionDirect, if_neg hswitch, if_neg hflags, if_neg hfence, if_neg hqueue, if_pos (And.intro hlo hhi)]

variable (hr : r < 16)
include hr

theorem regionBlock_of_lt : regionBlock (0x010 + r) = true := by simp [regionBlock]; omega

theorem directFields_region : directFields now src (0x010 + r) w mask v m = (restall now (regionDirect now r w mask v m), 0) := by
  have hindex : 0x010 + r - 0x010 = r := by omega
  have hblock : 0x010 + r ≠ 0 := by omega
  rw [directFields, if_neg hblock, if_pos (regionBlock_of_lt hr), hindex]

variable (hlo : 0x2000 ≤ w) (hhi : w < 0x2400)
include hlo hhi

theorem canonOff_syncCounter : canonOff (0x010 + r) w = some w := by
  have hcontrol : 0x010 + r ≠ 0 := by omega
  have hbellows : 0x010 + r ≠ 2 := by omega
  simp only [canonOff]
  rw [if_neg hcontrol, if_neg hbellows, if_pos (regionBlock_of_lt hr), if_pos]
  simp [hlo, hhi]

/-- The words of sync counters hold no staged field. -/
theorem fieldItems_syncCounter (at_ width : Nat) : fieldItems m now (0x010 + r) w at_ width v = [] := by
  have hnone : stagedFields (0x010 + r) w = [] := by
    rw [stagedFields, if_pos (regionBlock_of_lt hr), if_neg (by omega), if_neg (by omega), if_neg (by omega), if_neg (by omega)]
  rw [fieldItems, hnone]
  rfl

end

/-- A 4 B write at a sync counter's offset sets that counter alone. -/
theorem regWrite_syncCounter (now : Nat) (src : Source) {r k : Nat} (v : Nat) (m : Module) (hr : r < 16) (hk : k < 255) :
    regWrite now src (0x010 + r) (0x2000 + 4 * k) 4 v m = (restall now (m.modWork r (fun w => w.setCounter k (v % 2 ^ 32))), 0) := by
  have hbridge : bridgeBlock (0x010 + r) = false := by simp [bridgeBlock]; omega
  have hword : (0x2000 + 4 * k) / 8 * 8 = 0x2000 + 8 * (k / 2) := by omega
  have hbyte : (0x2000 + 4 * k) % 8 = 4 * (k % 2) := by omega
  have hfirst : (0x2000 + 8 * (k / 2) - 0x2000) / 4 = 2 * (k / 2) := by omega
  rw [regWrite_some now src m hbridge (canonOff_syncCounter hr (by omega) (by omega)), hword, hbyte, directFields_region now src _ _ m hr,
    fieldItems_syncCounter now v m hr (by omega) (by omega), regionDirect_syncCounter _ _ _ _ (by omega) (by omega), hfirst]
  rcases Nat.mod_two_eq_zero_or_one k with hlow | hhigh
  · have hk : 2 * (k / 2) = k := by omega
    have hfirstBit : (wordMask (4 * 0) 4).testBit 0 = true := by decide
    have hsecondBit : (wordMask (4 * 0) 4).testBit 32 = false := by decide
    have hvalue : wordValue (4 * 0) 4 v = v % 2 ^ 32 := Nat.mul_one _
    rw [hlow, hk, hfirstBit, hsecondBit, hvalue]
    rfl
  · have hk : 2 * (k / 2) + 1 = k := by omega
    have hfirstBit : (wordMask (4 * 1) 4).testBit 0 = false := by decide
    have hsecondBit : (wordMask (4 * 1) 4).testBit 32 = true := by decide
    have hvalue : wordValue (4 * 1) 4 v / 2 ^ 32 = v % 2 ^ 32 := Nat.mul_div_cancel _ (by decide)
    rw [hhigh, hk, hfirstBit, hsecondBit, hvalue]
    rfl

/-- The write sets the counter modulo 65,536; it leaves the region's other counters and the other regions alone. -/
theorem regWrite_syncCounter_reads (now : Nat) (src : Source) {r k : Nat} (v : Nat) (m : Module) (hr : r < 16) (hk : k < 255) :
    ∃ t, regWrite now src (0x010 + r) (0x2000 + 4 * k) 4 v m = (t, 0) ∧ (t.work r).counter k = v % 65536
      ∧ (∀ j, j ≠ k → (t.work r).counter j = (m.work r).counter j) ∧ ∀ q, q ≠ r → t.rg q = m.rg q := by
  have hrg (q : Nat) := Module.rg_of_regions q (restall_regions now (m.modWork r (fun w => w.setCounter k (v % 2 ^ 32))))
  have hvalue : v % 2 ^ 32 % 65536 = v % 65536 := Nat.mod_mod_of_dvd v (by decide)
  refine ⟨_, regWrite_syncCounter now src v m hr hk, ?_, fun j hj => ?_, fun q hq => (hrg q).trans (Module.rg_modR_ne _ _ hq)⟩ <;>
    rw [Module.work, hrg, Module.rg_modWork]
  · exact (Work.counter_setCounter _ _ hk).trans hvalue
  · exact Work.counter_setCounter_ne _ _ hj

end Sys2Proof.Machine

namespace Sys2Proof

open Machine Claims

/-- Settles O51: the flag registers by mapping every table; a register write by how its access goes, and by its direct and then its staged
fields; a held access by whether it is ready. -/
theorem flagsAndRegisters : Obligations.FlagsAndRegisters := by
  refine ⟨fun v s h => exec_flagsClear v h, fun v m => flagsClear_eq m v, fun f v i hf hi => testBit_clearFlags v hf hi,
    fun block off v x s h hx => exec_flagRegisterClear_some h hx, fun block off v s h hx => exec_flagRegisterClear_none h hx,
    fun r c u k hr hc hu hk => ?_, fun src b off width v s h => ?_, fun now asker f via m => holdAccess_eq now m asker f via,
    fun now src b off width v m hbridge hvoid => regWrite_void now src m hbridge hvoid, ?_,
    fun r k now src v m hr hk => regWrite_syncCounter_reads now src v m hr hk,
    fun k x s h hx => exec_heldAccessComplete_some h hx, fun k s h hx => exec_heldAccessComplete_none h hx⟩
  · obtain ⟨hunit, hconv⟩ := flagRegAt_cluster hr hc hu hk
    exact ⟨hunit, hconv, flagRegAt_updateLane hr hk⟩
  · refine ⟨fun hbad => exec_registerWrite_malformed h hbad, fun hb hoff hok hsilent => ?_, fun hb hoff hok hsilent hreset => ?_,
      fun hb hoff hv hok hsilent hreset => ⟨fun hwaits => ?_, fun hwaits => ?_⟩⟩ <;> rw [exec_registerWrite_ok h hb hoff hok]
    · rw [if_pos hsilent]
    · rw [if_neg (Bool.eq_false_iff.mp hsilent), if_pos hreset]
    · rw [if_neg (Bool.eq_false_iff.mp hsilent), if_neg (Bool.eq_false_iff.mp hreset), if_neg (Bool.eq_false_iff.mp hwaits), leNat_leBytes hv]
      rfl
    · rw [if_neg (Bool.eq_false_iff.mp hsilent), if_neg (Bool.eq_false_iff.mp hreset), if_pos hwaits]
  · intro now src b off o width v st m hbridge hoff items a hitems hst hne
    rw [regWrite_some now src m hbridge hoff, stage_refused now src a.1 hitems hst hne]

end Sys2Proof
end

section
/-! PROOFS. The statements of the update lanes' commits: update descriptors, commits under way, and the stall of the reserve. -/

namespace Sys2Proof.Machine

open Claims

theorem forN_succ {σ : Type} (n : Nat) (s : σ) (f : Nat → σ → σ) : forN (n + 1) s f = f n (forN n s f) := by
  simp [forN, List.range_succ]

@[simp] theorem Module.rg_modTrain (m : Module) (r : Nat) (f : Train → Train) : (m.modTrain r f).rg r = { m.rg r with train := f (m.rg r).train } :=
  Module.rg_modR m r _

/-! ### The queue of an update descriptor (R172, R182) -/

/-- A commit of an update descriptor as the queue takes it: with its number, and the time from which it waits. -/
def Commit.queued (id now : Nat) (c : Commit) : Commit := { c with id := id, chGen := 0, since := now }

section
variable (now r : Nat) (m : Module)

/-- A commit of the update lanes goes behind those that wait, and recalls no extent (R153). -/
theorem queueCommit_lanes {c : Commit} (hlanes : c.lanes = true) (hflight : c.flight ≠ 0) : queueCommit now r c m
    = m.modTrain r (fun t => { t with nextCommit := (m.rg r).train.nextCommit + 1,
                                      commits := t.commits ++ [c.queued (m.rg r).train.nextCommit now] }) := by
  simp only [queueCommit, hlanes, if_neg hflight, Bool.not_true, Bool.false_eq_true, and_false, if_false]
  split <;> rfl

/-- Commits of the update lanes queued one after the other: they wait in that order, and nothing else of what is read here changes. -/
theorem forN_queueCommit {c : Nat → Commit} (hlanes : ∀ i, (c i).lanes = true) (hflight : ∀ i, (c i).flight ≠ 0) (n : Nat) :
    let t := forN n m (fun i m => queueCommit now r (c i) m)
    (t.rg r).train.commits = (m.rg r).train.commits ++ (List.range n).map (fun i => (c i).queued ((m.rg r).train.nextCommit + i) now)
      ∧ (t.rg r).train.nextCommit = (m.rg r).train.nextCommit + n
      ∧ t.nums = m.nums ∧ (t.rg r).stack = (m.rg r).stack ∧ t.work r = m.work r := by
  induction n with
  | zero => simp [forN]
  | succ n ih =>
    obtain ⟨hcommits, hnext, hnums, hstack, hwork⟩ := ih
    rw [forN_succ, queueCommit_lanes now r _ (hlanes n) (hflight n)]
    refine ⟨?_, ?_, hnums, ?_, ?_⟩ <;> simp only [Module.work, Module.rg_modTrain]
    · rw [hcommits, hnext, List.range_succ, List.map_append, List.append_assoc]
      rfl
    · rw [hnext, Nat.add_assoc]
    · exact hstack
    · exact hwork

theorem stillR_readRecord (q req off len : Nat) : (readRecord now q req off len m).1.stillR r = m.stillR r := stillR_memRead m r now q req off len

end

section
variable {r id : Nat} {x : Flight} {s : State}

/-- An update descriptor that is dispatched is checked once its norm record has been read (R134, R182). -/
theorem exec_innerUpdate_ready (h : Ready s r id x) (hcls : x.d.cls = 5) :
    let a := readRecord s.time r 3 (s.mod.num (kNORM_BASE + r)) 32 (quiet s)
    let st := if a.2 = true then updStatus a.1 r x else 1
    exec (.innerUpdate r id) s = .next (withMod s (if st ≠ 0 then endNow s.time r x.id st a.1 else queueBlocks s.time r x a.1)) := by
  have hrun := runnable_of_ready h (kind := fun d => d.cls == 5) (by simp [hcls])
  show execInnerUpdate r id s = _
  rw [execInnerUpdate, okR, decide_eq_true h.region, guarded_true, does_quiet h.up]
  simp only [hrun]
  rfl

/-- The commit of block i of an update descriptor, as it is given to the queue. -/
def blockCommit (m : Module) (r : Nat) (x : Flight) (i : Nat) : Commit :=
  { flight := x.id + 1, ext := (updOf x.d).extent, blk := (updOf x.d).first + i,
    kind := if (updOf x.d).skipnf = true ∧ (m.normRec r).state = 2 then 5 else 1, idx := i }

theorem blockCommit_lanes (m : Module) (i : Nat) : (blockCommit m r x i).lanes = true := by
  simp only [Commit.lanes, blockCommit]
  split <;> rfl

/-- An update descriptor while its blocks commit; the lanes' time is over `dur` after it became ready. -/
def Flight.committing (now dur : Nat) (x : Flight) : Flight := { x with phase := 4, endAt := x.ready.getD now + dur }

/-- The module while an update descriptor's blocks commit. -/
def committing (now dur r : Nat) (x : Flight) (m : Module) : Module := (m.modFlight r x.id (Flight.committing now dur)).useFree

theorem rg_committing (now dur : Nat) (m : Module) :
    (committing now dur r x m).rg r = { m.rg r with work := (m.rg r).work.modFlight x.id (Flight.committing now dur) } :=
  Module.rg_modWork m r (fun w => w.modFlight x.id (Flight.committing now dur))

/-- A checked descriptor waits while its blocks' commits are queued. -/
theorem queueBlocks_eq (now : Nat) (m : Module) : ∃ dur, queueBlocks now r x m
    = forN (updOf x.d).count (committing now dur r x m) (fun i m' => queueCommit now r (blockCommit m r x i) m') := ⟨_, rfl⟩

/-- Each block of a checked descriptor has its commit in the queue, in order. -/
theorem queueBlocks_reads {now : Nat} {m : Module} (hx : (m.work r).flight? id = some x) : let t := queueBlocks now r x m
    t.nums = m.nums ∧ (t.rg r).stack = (m.rg r).stack ∧ (∃ y, (t.work r).flight? id = some y ∧ y.phase = 4)
      ∧ (t.rg r).train.commits = (m.rg r).train.commits
        ++ (List.range (updOf x.d).count).map (fun i => (blockCommit m r x i).queued ((m.rg r).train.nextCommit + i) now) := by
  intro t
  obtain ⟨dur, heq⟩ := queueBlocks_eq (r := r) (x := x) now m
  obtain ⟨hcommits, -, hnums, hstack, hwork⟩ := forN_queueCommit now r (committing now dur r x m)
    (blockCommit_lanes m) (fun i => Nat.succ_ne_zero _) (updOf x.d).count
  rw [← heq] at hcommits hnums hstack hwork
  rw [rg_committing] at hcommits hstack
  rw [Module.work, Module.work, rg_committing, flight?_id hx] at hwork
  refine ⟨hnums, hstack, ⟨x.committing now dur, ?_, rfl⟩, hcommits⟩
  rw [Module.work, hwork]
  exact flight?_modFlight (fun _ => rfl) hx

end

/-! ### The commits that wait (R172, R394) -/

section
variable {r k : Nat} {s : State} (hr : r < 16) (hup : Up s)
include hr hup

theorem exec_blockCommit : exec (.blockCommit r k) s
    = .next (withMod s (if s.mod.inReset r = true then quiet s else runCommit s.time r k (quiet s))) := by
  show execBlockCommit r k s = _
  rw [execBlockCommit, okR, decide_eq_true hr, guarded_true, does_quiet hup]
  rfl

theorem exec_blockCommit_none (h : s.mod.inReset r = true ∨ s.mod.commit? r k = none) :
    exec (.blockCommit r k) s = .next (withMod s (quiet s)) := by
  rw [exec_blockCommit hr hup]
  by_cases hreset : s.mod.inReset r = true
  · rw [if_pos hreset]
  · have hnone : (quiet s).commit? r k = none := h.resolve_left hreset
    rw [if_neg hreset, runCommit, hnone]

variable {c : Commit} {e : Extent} (hreset : s.mod.inReset r = false) (hc : s.mod.commit? r k = some c) (he : s.mod.extent? r c.ext = some e)
  (hfunc : c.lanes = true ∨ s.mod.num kCHANTER_FSTATE = 0)
include hreset hc he hfunc

/-- A commit whose function runs, of a region out of reset, goes by the generation that it was made in. -/
theorem exec_blockCommit_some : exec (.blockCommit r k) s = .next (withMod s
    (if c.flight = 0 ∧ c.chGen ≠ s.mod.num kCHANTER_GEN then (freeShadow s.time r c (noteWait s.time c (quiet s))).dropCommit r c.id
      else let m := advance s.time r e c (quiet s)
        if e.form = 2 ∧ c.lanes = false ∧ (m.commit? r k).isSome = true then startRecall s.time r e.base m else m)) := by
  have hc' : (quiet s).commit? r k = some c := hc
  have he' : (quiet s).extent? r c.ext = some e := he
  have hruns : ¬((quiet s).inReset r = true ∨ (!c.lanes) = true ∧ (quiet s).num kCHANTER_FSTATE ≠ 0) := by
    rintro (h | ⟨hlanes, hstate⟩)
    · exact absurd (hreset.symm.trans h) Bool.false_ne_true
    · exact hfunc.elim (fun h => by simp [h] at hlanes) hstate
  rw [exec_blockCommit hr hup, if_neg (by rw [hreset]; decide), runCommit]
  simp only [hc', he']
  rw [if_neg hruns]
  simp only [Bool.not_eq_true']
  rfl

end

/-! ### How far a commit goes (R149, R150, R172) -/

section
variable (now r : Nat) (e : Extent) (c : Commit) (m0 m : Module)

/-- The tier record of a block has been read, where its extent is tiered. -/
def TierRead : Prop := e.form ≠ 2 ∧ m = m0 ∨ e.form = 2 ∧ readTier now r e.base m0 = (m, true)

theorem advance_unread (hform : e.form = 2) (hread : readTier now r e.base m0 = (m, false)) : advance now r e c m0 = leaveUe now r c m := by
  simp [advance, hform, hread]

variable {now r e c m0 m} (hread : TierRead now r e m0 m)
include hread

theorem advance_head (hstep : c.step ≤ 4) : advance now r e c m0 = commitHead now r e c m := by
  obtain ⟨hform, rfl⟩ | ⟨hform, htier⟩ := hread
  · simp [advance, hform, hstep]
  · simp [advance, hform, htier, hstep]

/-- A commit held at step 5 or 6 goes on as its extent's tier state lets it. -/
theorem advance_tail (hstep : 4 < c.step) :
    (∀ n, tierGo m r e c = .wait n → advance now r e c m0 = m) ∧ (tierGo m r e c = .go → advance now r e c m0 = commitTail now r e c m) := by
  have hlate : ¬c.step ≤ 4 := Nat.not_le.mpr hstep
  obtain ⟨hform, rfl⟩ | ⟨hform, htier⟩ := hread
  · exact ⟨fun n h => by simp [advance, hform, hlate, h], fun h => by simp [advance, hform, hlate, h]⟩
  · exact ⟨fun n h => by simp [advance, hform, htier, hlate, h], fun h => by simp [advance, hform, htier, hlate, h]⟩

end

/-! Steps 1 to 4. -/

section
variable {now r : Nat} {e : Extent} {c : Commit} {m x y : Module} {hb : List Byte}

theorem waitAt_same : waitAt now r c c.step m = m := if_pos rfl

theorem commitHead_wait {n : Nat} (h : mayStart m r e c = .wait n) : commitHead now r e c m = waitAt now r c n m := by
  rw [commitHead, h]

variable (hgo : mayStart m r e c = .go) (hread : readPart now r c.req e c.blk pHDR m = (x, some hb))
include hgo hread

theorem commitHead_skip (hid : commitId x r c ≤ recordedId (hdrOf hb) c.kind) : commitHead now r e c m = endCommit now r c 0 true
    ((if c.lanes = true ∧ commitId x r c = (hdrOf hb).step then tierUpdated now r e c.blk (hdrOf hb).step x else x).bump kSKIPPED 1) := by
  simp only [commitHead, hgo, hread, if_pos hid]

theorem commitHead_make {half : Nat} {parts : List (Nat × List Byte)} {out : List Byte} {sums : Option (Nat × Nat)}
    (hid : recordedId (hdrOf hb) c.kind < commitId x r c) (hhalf : freeHalf x r = some half)
    (hmake : make now r e { c with half := some half, step := 4, since := now } (noteWait now c x) = (y, .ok parts out sums)) :
    let d := { c with half := some half, step := 4, since := now, parts := parts, out := out, sums := sums, codec := (y.rg r).xch.codec, k := (y.rg r).xch.k }
    commitHead now r e c m = commitTail now r e d ((writeHalf now r e d half parts y).modCommit r c.id (fun _ => d)) := by
  simp only [commitHead, hgo, hread, if_neg (Nat.not_le.mpr hid), hhalf, hmake]

end

/-! Steps 5 to 11. -/

section
variable {now r : Nat} {e : Extent} {c : Commit} {m : Module}

/-- Where no cut copies blocks, step 5 has nothing to do (R350). -/
theorem stepReserve_of_not_copies (h : m.copies r = false) : stepReserve now r e c m = (m, some true) := by
  simp [stepReserve, h]

/-- Where WC is not stored, or nothing leases it, step 6 keeps no copy (R173). -/
theorem stepRetain_none (h : storesWc m r c = false ∨ (m.hdr r e c.blk).relcount = 0) : stepRetain now r e c m = (m, .ok none) := by
  rcases h with h | h <;> simp [stepRetain, h]

theorem noteRetain_none : noteRetain now r e c none m = m := by
  unfold noteRetain
  split <;> simp_all

theorem commitTail_plain (hcopies : m.copies r = false) (hkeep : storesWc m r c = false ∨ (m.hdr r e c.blk).relcount = 0) :
    let p := commitPoint now r e c none m
    commitTail now r e c m = endCommit now r c (if p.2 = true then 0 else 1) false (afterCommit now r e c p.1) := by
  simp only [commitTail, stepReserve_of_not_copies hcopies, stepRetain_none hkeep, noteRetain_none]

/-- The header after a commit, by the kind whose id it records, and by whether a copy is retained (R160, R172, R173). -/
theorem hdrAfter_reads (k : Option Nat) (h : Hdr) : let g := hdrAfter m r c k h
    g.version = h.version + (if storesWc m r c = true then 1 else 0) ∧ g.kind = c.kind ∧ g.pending = false ∧ recordedId g c.kind = commitId m r c
      ∧ (k = none → g.relcount = h.relcount ∧ g.retained = h.retained)
      ∧ ∀ n, k = some n → g.retained = true ∧ g.retain = n ∧ g.retrel = h.relcount ∧ g.relcount = 0 := by
  simp only [hdrAfter, recordedId]
  split
  next => cases k <;> simp [b2n]
  next =>
    split
    next => cases k <;> simp [b2n]
    next => split <;> cases k <;> simp [b2n]

end

/-! ### The stall of the reserve (R175) -/

section
variable {r k : Nat} {c : Commit} {s : State}

theorem stallEnd_some {m : Module} (hc : m.commit? r k = some c) (hstep : c.step = 5) :
    stallEnd m r k = some (c.since + m.num kRESERVE_STALL_MS * 1000000) := by
  simp only [stallEnd, hc, if_pos hstep, ms]

theorem exec_reserveStallTimeout {d : Nat} (hr : r < 16) (hup : Up s) (hc : s.mod.commit? r k = some c) (hd : stallEnd s.mod r k = some d) :
    exec (.reserveStallTimeout r k) s = .next (atTime s d (fun now m => endCommit now r c 0x0A false m)) := by
  have hc' : Module.commit? { s.mod with out := [] } r k = some c := hc
  show execReserveStallTimeout r k s = _
  rw [execReserveStallTimeout, okR, decide_eq_true hr, guarded_true, hd]
  refine (doesWhen_up hup rfl).trans ?_
  simp only [hc']
  rfl

end

end Sys2Proof.Machine

namespace Sys2Proof

open Machine Claims

/-- Settles O45: a descriptor by its checks and the queue that it makes; a commit by its generation, its tier record, the step at which it
stands, and the header that it leaves; the stall by its moment. -/
theorem blocksAreCommitted : Obligations.BlocksAreCommitted := by
  refine ⟨fun r id x s hready hcls => ?_, fun r k s hr hup h => exec_blockCommit_none hr hup h,
    fun r k c e s hr hup hreset hc he hfunc hgen => ?_, fun r k c e s hr hup hreset hc he hfunc hflight hgen => ?_,
    fun now r e c m0 m hform hread => advance_unread now r e c m0 m hform hread, fun now r e c m0 m (hread : TierRead now r e m0 m) => ?_,
    fun now r e c m hcopies hkeep => commitTail_plain hcopies hkeep, fun m r c k h => hdrAfter_reads k h,
    fun r k c s hr hup hc hstep => exec_reserveStallTimeout hr hup hc (stallEnd_some hc hstep)⟩
  · intro a
    have hwork : a.1.work r = s.mod.work r := work_of_still (stillR_readRecord _ _ _ _ _ _ _)
    have htrain : (a.1.rg r).train = (s.mod.rg r).train := train_of_still (stillR_readRecord _ _ _ _ _ _ _)
    have hexec := exec_innerUpdate_ready hready hcls
    refine ⟨fun hunread => ?_, fun hread hstatus => ?_, fun hread hstatus => ?_⟩
    · simpa [a, hunread] using hexec
    · simpa [a, hread, hstatus] using hexec
    · obtain ⟨hnums, hstack, hflight, hcommits⟩ := queueBlocks_reads (r := r) (now := s.time) ((congrArg (·.flight? id) hwork).trans hready.here)
      refine ⟨_, hexec, rfl, ?_⟩
      simp only [a] at hread hstatus
      simp only [hread, hstatus]
      rw [htrain] at hcommits
      exact ⟨hnums, hstack, hflight, hcommits⟩
  · rw [exec_blockCommit_some hr hup hreset hc he hfunc, if_neg (by rintro ⟨hflight, hchGen⟩; exact hgen.elim (· hflight) hchGen)]
  · rw [exec_blockCommit_some hr hup hreset hc he hfunc, if_pos ⟨hflight, hgen⟩]
  · refine ⟨fun n hstep hstart hn => ?_, fun x hb hstep hgo hread' hid => ?_, fun x y hb half parts out sums hstep hgo hread' hid hhalf hmake => ?_,
      fun hstep => advance_tail hread hstep⟩ <;> rw [advance_head hread hstep]
    · rw [commitHead_wait hstart, ← hn, waitAt_same]
    · exact commitHead_skip hgo hread' hid
    · exact commitHead_make hgo hread' hid hhalf hmake

end Sys2Proof
end

section
/-! PROOFS. The statements of the training frames: gradients and leases. -/

namespace Sys2Proof.Machine

open Claims

/-! ### Bonded memory read and written in stored form leaves the rest of the regions alone -/

section
variable (m : Module) (r now : Nat)

/-- What an operation leaves alone is alike in the module that it answers. -/
theorem module_of_answer {α β : Type} (p : Module → β) {a : Module × α} {m t : Module} {x : α} (ha : a = (t, x)) (h : p a.1 = p m) : p t = p m := by
  rw [ha] at h
  exact h

@[simp] theorem stillR_readStored (q req slot : Nat) : (readStored now q req slot m).1.stillR r = m.stillR r := by
  unfold readStored; simp only []
  split
  · simp
  · split <;> simp

@[simp] theorem stillR_readRun (q req off n : Nat) : (readRun now q req off n m).1.stillR r = m.stillR r := by
  refine foldlPair_keeps (fun m : Module => m.stillR r) _ (fun a i => ?_) _ _
  split
  · rfl
  · split <;> exact module_of_answer (fun m => m.stillR r) ‹_› (stillR_readStored _ _ _ _ _ _)

@[simp] theorem stillR_clearCodes (q req slot n : Nat) : (clearCodes now q req slot n m).stillR r = m.stillR r := by
  refine (forN_keeps (fun m : Module => m.stillR r) _ (fun i m => ?_) _ _).trans (stillR_noteAlloc _ _ _ _ _)
  simp only []
  split <;> simp

@[simp] theorem stillR_readPart (q req : Nat) (e : Extent) (b p : Nat) : (readPart now q req e b p m).1.stillR r = m.stillR r :=
  stillR_memRead m r now q req _ _

@[simp] theorem stillR_poke (q off : Nat) (bs : List Byte) : (poke now q off bs m).stillR r = m.stillR r := stillR_memWrite m r now q 3 off bs

@[simp] theorem stillR_setTier (q i : Nat) (e : TierEnt) : (setTier now q i e m).stillR r = m.stillR r := by simp [setTier]

@[simp] theorem stillR_setHdr (q : Nat) (e : Extent) (b : Nat) (x : Hdr) : (setHdr now q e b x m).stillR r = m.stillR r := stillR_poke _ _ _ _ _ _

end

/-! ### The requests that a region has taken (R243) -/

/-- The requests that a region keeps: its duplicate records and the frames that it holds. -/
def Module.requests (m : Module) (r : Nat) := ((m.rg r).dups, (m.rg r).held)

theorem requests_of_still {a b : Module} {r : Nat} (h : b.stillR r = a.stillR r) : b.requests r = a.requests r := by
  simp only [Module.stillR, Prod.mk.injEq] at h
  obtain ⟨-, -, -, -, -, hdups, hheld, -⟩ := h
  rw [Module.requests, hdups, hheld, Module.requests]

section
variable (m : Module) (r q now : Nat)

theorem requests_modR {f : Region → Region} (h : ∀ g, ((f g).dups, (f g).held) = (g.dups, g.held)) : (m.modR q f).requests r = m.requests r := by
  by_cases hr : r = q
  · subst hr; simp only [Module.requests, Module.rg_modR]; exact h _
  · simp only [Module.requests, Module.rg_modR_ne m f hr]

@[simp] theorem requests_modTier (f : Tier → Tier) : (m.modTier q f).requests r = m.requests r := requests_modR m r q (fun _ => rfl)
@[simp] theorem requests_modTrain (f : Train → Train) : (m.modTrain q f).requests r = m.requests r := requests_modR m r q (fun _ => rfl)
@[simp] theorem requests_modCuts (f : Cuts → Cuts) : (m.modCuts f).requests r = m.requests r := rfl
@[simp] theorem requests_bump (k n : Nat) : (m.bump k n).requests r = m.requests r := rfl

@[simp] theorem requests_post (cls code src : Nat) (d : List Byte) : (post now cls code src d m).requests r = m.requests r :=
  requests_of_still (stillR_post _ _ _ _ _ _ _)
@[simp] theorem requests_issue (h : Nat) (o : Owner) (c : Nat) (f : Frame) : (issue now h o c f m).1.requests r = m.requests r :=
  requests_of_still (stillR_issue _ _ _ _ _ _ _)
@[simp] theorem requests_memRead (req off len : Nat) : (memRead now q req off len m).1.requests r = m.requests r :=
  requests_of_still (stillR_memRead _ _ _ _ _ _ _)
@[simp] theorem requests_memWrite (req off : Nat) (bs : List Byte) : (memWrite now q req off bs m).1.requests r = m.requests r :=
  requests_of_still (stillR_memWrite _ _ _ _ _ _ _)
@[simp] theorem requests_readPart (req : Nat) (e : Extent) (b p : Nat) : (readPart now q req e b p m).1.requests r = m.requests r :=
  requests_of_still (stillR_readPart _ _ _ _ _ _ _ _)
@[simp] theorem requests_setHdr (e : Extent) (b : Nat) (x : Hdr) : (setHdr now q e b x m).requests r = m.requests r :=
  requests_of_still (stillR_setHdr _ _ _ _ _ _ _)
@[simp] theorem requests_setTier (i : Nat) (e : TierEnt) : (setTier now q i e m).requests r = m.requests r :=
  requests_of_still (stillR_setTier _ _ _ _ _ _)
@[simp] theorem requests_readStored (req slot : Nat) : (readStored now q req slot m).1.requests r = m.requests r :=
  requests_of_still (stillR_readStored _ _ _ _ _ _)
@[simp] theorem requests_clearCodes (req slot n : Nat) : (clearCodes now q req slot n m).requests r = m.requests r :=
  requests_of_still (stillR_clearCodes _ _ _ _ _ _ _)
@[simp] theorem requests_readTier (i : Nat) : (readTier now q i m).1.requests r = m.requests r := requests_memRead _ _ _ _ _ _ _

/-! Requests to the pool, recalls and write-backs of tiered extents (R148–R153). -/

@[simp] theorem requests_poolSend (region kind item off node : Nat) (body : List Byte) :
    (poolSend now region kind item off node body m).1.requests r = m.requests r := by
  unfold poolSend; simp only []
  split <;> simp

@[simp] theorem requests_poolPut (region kind item node : Nat) (key obj : List Byte) :
    (poolPut now region kind item node key obj m).1.requests r = m.requests r := by
  refine foldlPair_keeps (fun m : Module => m.requests r) _ (fun a p => ?_) _ _
  split
  · rfl
  · simp

@[simp] theorem requests_poolDrop (kind region item : Nat) : (poolDrop kind region item m).requests r = m.requests r := rfl

@[simp] theorem requests_storedObject (req off n : Nat) : (storedObject now q req off n m).1.requests r = m.requests r :=
  requests_of_still (stillR_readRun _ _ _ _ _ _ _)

@[simp] theorem requests_writeBackFailed (i : Nat) : (writeBackFailed now q i m).requests r = m.requests r := by simp [writeBackFailed]

@[simp] theorem requests_startWriteBack (i : Nat) : (startWriteBack now q i m).requests r = m.requests r := by
  unfold startWriteBack; simp only []
  split
  · rfl
  · split
    next x heq =>
      have hx : x.requests r = m.requests r := module_of_answer (fun m => m.requests r) heq (by simp)
      simpa using hx
    next x obj heq =>
      have hx : x.requests r = m.requests r := module_of_answer (fun m => m.requests r) heq (by simp)
      split <;> simpa using hx

@[simp] theorem requests_claimFrame : (claimFrame now q m).1.requests r = m.requests r := by
  unfold claimFrame
  split
  · rfl
  · split
    · simp
    · split
      · simp only []
        split <;> simp
      · rfl

@[simp] theorem requests_recallGet (i frame : Nat) : (recallGet now q i frame m).1.requests r = m.requests r := by simp [recallGet]

@[simp] theorem requests_recallFailed (i : Nat) : (recallFailed now q i m).requests r = m.requests r := by simp [recallFailed, setFailed]

@[simp] theorem requests_serveFrames : (serveFrames now q m).requests r = m.requests r := by
  refine forL_keeps (fun m : Module => m.requests r) _ (fun w m => ?_) _ m
  split
  next x heq => exact module_of_answer (fun m => m.requests r) heq (by simp)
  next x f heq =>
    have hx : x.requests r = m.requests r := module_of_answer (fun m => m.requests r) heq (by simp)
    simp only []
    split <;> simpa using hx

@[simp] theorem requests_startRecall (i : Nat) : (startRecall now q i m).requests r = m.requests r := by
  unfold startRecall; simp only []
  split <;> simp

@[simp] theorem requests_claimStage (i : Nat) : (claimStage now q i m).1.requests r = m.requests r := by
  unfold claimStage; simp only []
  split
  · rfl
  · split <;> simp

@[simp] theorem requests_firstGradient (i : Nat) : (firstGradient now q i m).1.requests r = m.requests r := by
  unfold firstGradient
  split
  next x heq =>
    have hx : x.requests r = m.requests r := module_of_answer (fun m => m.requests r) heq (by simp)
    exact hx
  next x heq =>
    have hx : x.requests r = m.requests r := module_of_answer (fun m => m.requests r) heq (by simp)
    simp only []
    split <;> simpa using hx

/-! Gradients and leases (R163, R179). -/

@[simp] theorem requests_raiseLanes (f : Flags) : (raiseLanes q f m).requests r = m.requests r := requests_modTrain _ _ _ _

@[simp] theorem requests_passNorm : (passNorm q m).requests r = m.requests r := by
  unfold passNorm; simp only []
  split
  · rfl
  · exact requests_modTrain m r q (fun t => { t with passed := true })

/-- The stage that a tiered block's gradient needs. -/
theorem requests_staged (i : Nat) (c : Prop) [Decidable c] :
    (if c then firstGradient now q i m else (m, true)).1.requests r = m.requests r := by
  split
  · exact requests_firstGradient m r q now i
  · rfl

/-- The sum that a later contribution adds to. -/
theorem requests_summed (c : Prop) [Decidable c] (req off len : Nat) :
    (if c then (m, 0, []) else memRead now q req off len m).1.requests r = m.requests r := by
  split
  · rfl
  · exact requests_memRead m r q now req off len

@[simp] theorem requests_addGradient (e : Extent) (b fmt step : Nat) (bs : List Byte) :
    (addGradient now q e b fmt step bs m).1.requests r = m.requests r := by
  unfold addGradient; simp only []
  split
  · rfl
  · split
    next x heq =>
      have hx : x.requests r = m.requests r := module_of_answer (fun m => m.requests r) heq (requests_readPart _ _ _ _ _ _ _ _)
      exact hx
    next x hb heq =>
      have hx : x.requests r = m.requests r := module_of_answer (fun m => m.requests r) heq (requests_readPart _ _ _ _ _ _ _ _)
      rw [← hx]
      split
      · rfl
      · have hstaged := requests_staged x r q now e.base (e.form = 2)
        generalize (if e.form = 2 then firstGradient now q e.base x else (x, true)) = staged at hstaged ⊢
        rw [← hstaged]
        split
        · rfl
        · have hsummed := requests_summed staged.1 r q now ((hdrOf hb).astep ≠ step) 3 (accAddr staged.1 q e b) 1024
          generalize (if (hdrOf hb).astep ≠ step then (staged.1, 0, []) else memRead now q 3 (accAddr staged.1 q e b) 1024 staged.1) = summed
            at hsummed ⊢
          rw [← hsummed]
          split
          · rfl
          · simp only [apply_ite Prod.fst, apply_ite (fun m => Module.requests m r), requests_passNorm, requests_modTrain, requests_raiseLanes,
              requests_setHdr, requests_memWrite, ite_self]

end

/-! ### Leases (R179) -/

section
variable (now r : Nat) (e : Extent) (b : Nat) (m : Module) (q : Nat)

@[simp] theorem requests_wcOf (a : Nat) (stored : Bool) : (wcOf now r e a stored m).1.requests q = m.requests q := by
  unfold wcOf
  split
  · split
    · simp
    · split
      next x heq => exact module_of_answer (fun m => m.requests q) heq (requests_readStored _ _ _ _ _ _)
      next x c0 s0 heq =>
        have hx : x.requests q = m.requests q := module_of_answer (fun m => m.requests q) heq (requests_readStored _ _ _ _ _ _)
        rw [← hx]
        split
        next y heq => exact module_of_answer (fun m => m.requests q) heq (requests_readStored _ _ _ _ _ _)
        next y c1 s1 heq => exact module_of_answer (fun m => m.requests q) heq (requests_readStored _ _ _ _ _ _)
  · simp

@[simp] theorem requests_unserved (stored : Bool) : (unserved stored m).1.requests q = m.requests q := by
  unfold unserved
  split <;> rfl

theorem requests_gatherOne (i : Nat) (stored : Bool) (c : Copies) : (gatherOne now r e b i stored (m, c)).1.requests q = m.requests q := by
  unfold gatherOne; simp only []
  split
  next x heq =>
    have hx : x.requests q = m.requests q := module_of_answer (fun m => m.requests q) heq (by simp)
    simpa using hx
  next x hb heq =>
    have hx : x.requests q = m.requests q := module_of_answer (fun m => m.requests q) heq (by simp)
    rw [← hx]
    split
    next y heq =>
      have hy : y.requests q = x.requests q := module_of_answer (fun m => m.requests q) heq (by simp)
      simpa using hy
    next y w heq =>
      have hy : y.requests q = x.requests q := module_of_answer (fun m => m.requests q) heq (by simp)
      simpa using hy

theorem requests_releaseOne (ver st : Nat) : (releaseOne now r e b ver (m, st)).1.requests q = m.requests q := by
  unfold releaseOne
  split
  next x heq =>
    have hx : x.requests q = m.requests q := module_of_answer (fun m => m.requests q) heq (by simp)
    exact hx
  next x hb heq =>
    have hx : x.requests q = m.requests q := module_of_answer (fun m => m.requests q) heq (by simp)
    simp only []
    split
    · simpa using hx
    · split
      · split <;> simpa using hx
      · simpa using hx

theorem requests_noteUnserved (f : Frame) (c : Copies) : (noteUnserved f c m).requests q = m.requests q := by
  unfold noteUnserved
  split <;> rfl

end

/-! ### Frames served as they arrive (R236, R243) -/

/-- The region neither holds the frame nor has its request in hand. -/
def Unopened (m : Module) (r : Nat) (f : Frame) : Prop :=
  (f, Via.mesh) ∉ (m.rg r).held ∧ ∀ d ∈ (m.rg r).dups, d.isOf f = true → d.applying = false

section
variable {a b m : Module} {r : Nat} {f : Frame}

theorem Unopened.of_requests (h : Unopened a r f) (hb : b.requests r = a.requests r) : Unopened b r f := by
  simp only [Module.requests, Prod.mk.injEq] at hb
  obtain ⟨hdups, hheld⟩ := hb
  rw [Unopened, hdups, hheld]
  exact h

theorem takeCopiesOf_unopened (h : Unopened m r f) : takeCopiesOf r f m = (m, []) := by
  have hnone : (m.rg r).dups.find? (fun d => d.isOf f && d.applying) = none := by
    rw [List.find?_eq_none]
    intro d hd
    by_cases hof : d.isOf f = true
    · simp [h.2 d hd hof]
    · simp [hof]
  rw [takeCopiesOf, hnone]

theorem refuseOnce_unopened (now st : Nat) (h : Unopened m r f) : refuseOnce now r f st m = m := by
  rw [refuseOnce, takeCopiesOf_unopened h]
  rfl

/-- The answer's own record is that of a request that is done. -/
theorem Unopened.answerOnce (now st aux : Nat) (body : List Byte) (h : Unopened m (addrRegion f.addr) f) :
    Unopened (answerOnce now f st aux body m) (addrRegion f.addr) f := by
  rw [Machine.answerOnce, takeCopiesOf_unopened h]
  refine Unopened.of_requests ?_ (requests_of_still (stillR_respond _ _ _ _ _ _ _))
  obtain ⟨hheld, hdups⟩ := h
  rw [Unopened, Module.rg_modR]
  refine ⟨hheld, fun d hd hof => ?_⟩
  rcases List.mem_append.mp hd with hd | hd
  · exact hdups d hd hof
  · rw [List.mem_singleton.mp hd]

end

/-! What a region reads of its own tables: the dictionary's numbers, its memory, and the shard table that its commit took (R162). -/

def Module.tables (m : Module) (r : Nat) := (m.nums, (m.rg r).stack, (m.rg r).train.table)

section
variable {a b : Module} {r : Nat} (h : b.tables r = a.tables r)
include h

theorem num_of_tables (k : Nat) : b.num k = a.num k := by
  have hnums : b.nums = a.nums := congrArg Prod.fst h
  rw [Module.num, hnums, Module.num]

theorem stack_of_tables : (b.rg r).stack = (a.rg r).stack := congrArg (fun x => x.2.1) h

theorem peek_of_tables (off n : Nat) : b.peek r off n = a.peek r off n := by rw [Module.peek, stack_of_tables h, Module.peek]

theorem peekB_of_tables (off n : Nat) : b.peekB r off n = a.peekB r off n := by rw [Module.peekB, stack_of_tables h, Module.peekB]

theorem extents_of_tables : b.extents r = a.extents r := by
  have htable : (b.rg r).train.table = (a.rg r).train.table := congrArg (fun x => x.2.2) h
  rw [Module.extents, num_of_tables h, htable, Module.extents]

theorem tierEnt_of_tables (i : Nat) : b.tierEnt r i = a.tierEnt r i := by
  simp only [Module.tierEnt, tierEntAt, num_of_tables h, peek_of_tables h, peekB_of_tables h]

theorem tierHdr_of_tables : b.tierHdr r = a.tierHdr r := by simp only [Module.tierHdr, tierHdrAt, num_of_tables h, peek_of_tables h]

theorem hdr_of_tables (e : Extent) (n : Nat) : b.hdr r e n = a.hdr r e n := by
  simp only [Module.hdr, partAddr, tierEnt_of_tables h, tierHdr_of_tables h, peekB_of_tables h]

theorem blockOfHdr_of_tables (off : Nat) : blockOfHdr b r off = blockOfHdr a r off := by
  simp only [blockOfHdr, extents_of_tables h, tierEnt_of_tables h]

theorem blockOfWc_of_tables (off : Nat) : blockOfWc b r off = blockOfWc a r off := by
  simp only [blockOfWc, extents_of_tables h, tierEnt_of_tables h]

end

@[simp] theorem Module.rg_useFree (m : Module) (r : Nat) : m.useFree.rg r = m.rg r := rfl

@[simp] theorem Module.rg_modPower (m : Module) (r : Nat) (f : Power → Power) : (m.modPower r f).rg r = { m.rg r with power := f (m.rg r).power } :=
  Module.rg_modR m r _

section
variable {op : Nat} {f : Frame} {s : State}

/-- Beginning to serve a frame changes, of the region, the times of its last request and of the next one that its stack takes. -/
theorem taken_reads : (taken s op f).nums = s.mod.nums
    ∧ ∃ p, (taken s op f).rg (addrRegion f.addr) = { s.mod.rg (addrRegion f.addr) with lastServed := s.time, power := p } := by
  have hserved := Module.rg_modR (quiet s) (addrRegion f.addr) (fun g => { g with lastServed := s.time })
  simp only [taken]
  split
  · unfold pace
    split
    · exact ⟨rfl, _, hserved⟩
    · rw [Module.rg_useFree, Module.rg_modPower, hserved]
      exact ⟨rfl, _, rfl⟩
  · exact ⟨rfl, _, hserved⟩

theorem taken_tables : (taken s op f).tables (addrRegion f.addr) = s.mod.tables (addrRegion f.addr) := by
  obtain ⟨hnums, p, hrg⟩ := taken_reads (s := s) (op := op) (f := f)
  rw [Module.tables, hnums, hrg]
  rfl

theorem taken_requests : (taken s op f).requests (addrRegion f.addr) = s.mod.requests (addrRegion f.addr) := by
  obtain ⟨-, p, hrg⟩ := taken_reads (s := s) (op := op) (f := f)
  rw [Module.requests, hrg]
  rfl

variable (h : Served s op f)
include h

theorem unopened_taken : Unopened (taken s op f) (addrRegion f.addr) f := Unopened.of_requests ⟨h.notHeld, h.unopened⟩ taken_requests

theorem serve_served (dataOnly : Bool) (k : Module → Module) : serve s.time op f .mesh dataOnly k (quiet s) = k (taken s op f) := by
  have hnode : ¬addrNode f.addr ≠ (quiet s).node := not_not_intro h.here
  have hrun : (quiet s).inRun = true := decide_eq_true h.run
  have hfstate : ((quiet s).fstate (addrRegion f.addr) != 0) = false := bne_eq_false_iff_eq.mpr h.enabled
  have hrefuses : regionRefuses (quiet s) (addrRegion f.addr) dataOnly = false := by
    rw [regionRefuses, show (quiet s).inReset _ = false from h.awake, hfstate, hrun]
    rfl
  have hretrains : regionRetrains (quiet s) (addrRegion f.addr) = false := h.trained
  have hclocked : regionHolds (quiet s) (addrRegion f.addr) = false := h.clocked
  have hpaced : ¬(onStack op = true ∧ s.time < ((quiet s).rg (addrRegion f.addr)).power.paceUntil) :=
    fun ⟨hstack, hlate⟩ => Nat.not_lt.mpr (h.paced hstack) hlate
  have hnot : (f, Via.mesh) ∉ ((quiet s).rg (addrRegion f.addr)).held := h.notHeld
  have hheld : unholdFrame (addrRegion f.addr) f .mesh (quiet s) = quiet s := if_neg (by simpa using hnot)
  simp only [serve, takeFrame, h.made, Bool.false_eq_true, if_false, if_neg hnode, hrefuses, hretrains, hclocked, false_or, if_neg hpaced, hheld]
  rfl

theorem serveOnce_served {k : Module → Module} (hk : Unopened (k (taken s op f)) (addrRegion f.addr) f) :
    serveOnce s.time op f .mesh k (quiet s) = k (taken s op f) := by
  have hearlier : acceptedEarlier (quiet s) (addrRegion f.addr) f .mesh = false := by
    have hheld : (f, Via.mesh) ∉ ((quiet s).rg (addrRegion f.addr)).held := h.notHeld
    have hwaiting : (f, Via.mesh) ∉ (quiet s).fabric.collWaiting := h.notWaiting
    rw [acceptedEarlier, Bool.or_eq_false_iff]
    exact ⟨by simpa using hheld, by simpa using hwaiting⟩
  have hcopy : copyOf (quiet s) op (addrRegion f.addr) f .mesh = none := by
    unfold copyOf
    rw [hearlier, h.fresh]
    split <;> rfl
  have hroom : ¬(65536 ≤ ((taken s op f).rg (addrRegion f.addr)).dups.length
      ∧ (dupOf (taken s op f) (addrRegion f.addr) f).any DupRec.applying = false) := by
    have hdups : ((taken s op f).rg (addrRegion f.addr)).dups = (s.mod.rg (addrRegion f.addr)).dups := congrArg Prod.fst taken_requests
    rw [hdups]
    exact fun ⟨hfull, _⟩ => Nat.not_le.mpr h.room hfull
  have hheld : ((k (taken s op f)).rg (addrRegion f.addr)).held.contains (f, .mesh) = false := by simpa using hk.1
  simp only [serveOnce, hcopy, serve_served h, if_neg hroom, hheld, refuseOnce_unopened _ _ hk, Bool.false_eq_true, if_false, ite_self]

theorem exec_served {k : Nat → Module → Module} {t : Module} (hup : Up s) (hk : k s.time (taken s op f) = t) (ht : Unopened t (addrRegion f.addr) f) :
    s.does (fun now m => serveOnce now op f .mesh (k now) m) = .next (withMod s t) := by
  subst hk
  rw [does_quiet hup, serveOnce_served h ht]

end

/-! ### The training frames (R163, R179) -/

theorem firstRefusal_one (st : Nat) : (if st = 0 then (0, 0) else (st, 0)) = (st, 0) := by
  split
  next h => rw [h]
  next => rfl

theorem sliceB_full {xs : List Byte} {n : Nat} (h : xs.length = n) : sliceB xs 0 n = xs := by
  simp [sliceB, ← h]

section
variable {f : Frame} {e : Extent} {b : Nat} {s : State} (hup : Up s)

theorem framedBlocks_one {m : Module} (hb : blockOfWc m (addrRegion f.addr) (addrOff f.addr) = some (e, b)) (haux : f.aux = 1)
    (hlast : b + 1 ≤ e.blocks) : framedBlocks m f = some (e, b) := by
  simp [framedBlocks, hb, haux, hlast]

theorem len_of_made {op : Nat} (h : badRequest op f = false) : f.len = f.body.length := by
  simp only [badRequest, lenOk, Bool.or_eq_false_iff, Bool.not_eq_false', Bool.and_eq_true, beq_iff_eq] at h
  obtain ⟨-, hlen, -⟩ := h
  exact hlen

include hup

theorem exec_accum_one (h : Served s opACCUM f) (hfmt : f.fmt ≤ 1) (hbody : f.body.length = accBytes f.fmt)
    (hb : blockOfHdr s.mod (addrRegion f.addr) (addrOff f.addr) = some (e, b)) (hlast : b < e.blocks) :
    let a := addGradient s.time (addrRegion f.addr) e b f.fmt f.aux f.body (taken s opACCUM f)
    exec (.accum f .mesh) s = .next (withMod s (answerOnce s.time f a.2 0 [] a.1)) := by
  intro a
  have hb' : blockOfHdr (taken s opACCUM f) (addrRegion f.addr) (addrOff f.addr) = some (e, b) := (blockOfHdr_of_tables taken_tables _).trans hb
  have hone : f.len / accBytes f.fmt = 1 := by
    rw [len_of_made h.made, hbody]
    exact Nat.div_self (by unfold accBytes; split <;> decide)
  have hserve : (if 1 < f.fmt then answerOnce s.time f 2 0 [] (taken s opACCUM f) else serveAccum s.time f (taken s opACCUM f))
      = answerOnce s.time f a.2 0 [] a.1 := by
    rw [if_neg (Nat.not_lt.mpr hfmt)]
    simp [serveAccum, hb', hone, hlast, sliceB_full hbody, firstRefusal_one, a]
  have hopen : Unopened (answerOnce s.time f a.2 0 [] a.1) (addrRegion f.addr) f :=
    ((unopened_taken h).of_requests (requests_addGradient _ _ _ _ _ _ _ _ _)).answerOnce _ _ _ _
  show execAccum f .mesh s = _
  exact exec_served h (k := fun now m => if 1 < f.fmt then answerOnce now f 2 0 [] m else serveAccum now f m) hup hserve hopen

theorem exec_gather_one (h : Served s opGATHER f) (hb : blockOfWc s.mod (addrRegion f.addr) (addrOff f.addr) = some (e, b)) (haux : f.aux = 1)
    (hlast : b + 1 ≤ e.blocks) (hroom : (s.mod.hdr (addrRegion f.addr) e b).relcount < 65535) :
    let a := gatherOne s.time (addrRegion f.addr) e b 0 f.stored (taken s opGATHER f, {})
    exec (.gather f .mesh) s = .next (withMod s (answerOnce s.time f a.2.st a.2.aux a.2.body (noteUnserved f a.2 a.1))) := by
  intro a
  have hblocks : framedBlocks (taken s opGATHER f) f = some (e, b) :=
    framedBlocks_one ((blockOfWc_of_tables taken_tables _).trans hb) haux hlast
  have hlease : ((taken s opGATHER f).hdr (addrRegion f.addr) e b).relcount ≠ 65535 := by
    rw [hdr_of_tables taken_tables]
    exact Nat.ne_of_lt hroom
  have hserve : serveGather s.time f .mesh (taken s opGATHER f) = answerOnce s.time f a.2.st a.2.aux a.2.body (noteUnserved f a.2 a.1) := by
    simp [serveGather, hblocks, haux, hlease, a]
  have hopen : Unopened (answerOnce s.time f a.2.st a.2.aux a.2.body (noteUnserved f a.2 a.1)) (addrRegion f.addr) f :=
    ((unopened_taken h).of_requests ((requests_noteUnserved _ _ _ _).trans (requests_gatherOne _ _ _ _ _ _ _ _ _))).answerOnce _ _ _ _
  show execGather f .mesh s = _
  exact exec_served h (k := fun now m => serveGather now f .mesh m) hup hserve hopen

theorem exec_refetch_one (h : Served s opREFETCH f) (hb : blockOfWc s.mod (addrRegion f.addr) (addrOff f.addr) = some (e, b)) (haux : f.aux = 1)
    (hlast : b + 1 ≤ e.blocks) :
    let a := refetchOne s.time (addrRegion f.addr) e b 0 (leAt f.body 0 4) f.stored (taken s opREFETCH f, {})
    exec (.refetch f .mesh) s = .next (withMod s (respond s.time f a.2.st a.2.aux a.2.body (noteUnserved f a.2 a.1))) := by
  intro a
  have hblocks : framedBlocks (taken s opREFETCH f) f = some (e, b) :=
    framedBlocks_one ((blockOfWc_of_tables taken_tables _).trans hb) haux hlast
  show execRefetch f .mesh s = _
  rw [execRefetch, does_quiet hup, serve_served h]
  simp [serveRefetch, hblocks, haux, a]

theorem exec_release_one (h : Served s opRELEASE f) (hb : blockOfWc s.mod (addrRegion f.addr) (addrOff f.addr) = some (e, b)) (haux : f.aux = 1)
    (hlast : b + 1 ≤ e.blocks) :
    let a := releaseOne s.time (addrRegion f.addr) e b (leAt f.body 0 4) (taken s opRELEASE f, 0)
    exec (.release f .mesh) s = .next (withMod s (answerOnce s.time f a.2 0 [] a.1)) := by
  intro a
  have hblocks : framedBlocks (taken s opRELEASE f) f = some (e, b) :=
    framedBlocks_one ((blockOfWc_of_tables taken_tables _).trans hb) haux hlast
  have hserve : serveRelease s.time f (taken s opRELEASE f) = answerOnce s.time f a.2 0 [] a.1 := by
    simp [serveRelease, hblocks, haux, a]
  have hopen : Unopened (answerOnce s.time f a.2 0 [] a.1) (addrRegion f.addr) f :=
    ((unopened_taken h).of_requests (requests_releaseOne _ _ _ _ _ _ _ _)).answerOnce _ _ _ _
  show execRelease f .mesh s = _
  exact exec_served h (k := fun now m => serveRelease now f m) hup hserve hopen

/-- A lease is taken and given back at a working copy alone. -/
theorem exec_lease_nowhere {p : Nat × (Frame → Via → Instr)} (hp : p ∈ [(opGATHER, Instr.gather), (opRELEASE, Instr.release)]) (h : Served s p.1 f)
    (hb : blockOfWc s.mod (addrRegion f.addr) (addrOff f.addr) = none) :
    exec (p.2 f .mesh) s = .next (withMod s (answerOnce s.time f 2 0 [] (taken s p.1 f))) := by
  have hblocks : framedBlocks (taken s p.1 f) f = none := by
    rw [framedBlocks, (blockOfWc_of_tables taken_tables _).trans hb]
  have hopen := (unopened_taken h).answerOnce s.time 2 0 []
  simp only [List.mem_cons, List.not_mem_nil, or_false] at hp
  rcases hp with rfl | rfl
  · have hserve : serveGather s.time f .mesh (taken s opGATHER f) = answerOnce s.time f 2 0 [] (taken s opGATHER f) := by
      rw [serveGather, hblocks]
    exact exec_served h (k := fun now m => serveGather now f .mesh m) hup hserve hopen
  · have hserve : serveRelease s.time f (taken s opRELEASE f) = answerOnce s.time f 2 0 [] (taken s opRELEASE f) := by
      rw [serveRelease, hblocks]
    exact exec_served h (k := fun now m => serveRelease now f m) hup hserve hopen

end

/-! One block of a frame. -/

section
variable {now r : Nat} {e : Extent} {b : Nat} {m x y : Module} {hb : List Byte}

theorem addGradient_stale {fmt step : Nat} {bs : List Byte} (h : step ≠ (m.normRec r).step % 2 ^ 32) :
    addGradient now r e b fmt step bs m = (m.bump kGRAD_STALE 1, 2) := if_pos h

theorem addGradient_extra {fmt step : Nat} {bs : List Byte} (hread : readPart now r 3 e b pHDR m = (x, some hb))
    (hstep : step = (m.normRec r).step % 2 ^ 32) (hexpect : e.expect = 0) :
    addGradient now r e b fmt step bs m = (x.bump kGRAD_EXTRA 1, 2) := by
  simp only [addGradient, if_neg (not_not_intro hstep), hread, if_pos (Or.inl hexpect)]

variable (hread : readPart now r 5 e b pHDR m = (x, some hb))
include hread

theorem gatherOne_read {i : Nat} {stored : Bool} {w : List Byte} {c : Copies} (hcopy : wcOf now r e (partAddr x r e b pWC) stored x = (y, some w)) :
    gatherOne now r e b i stored (m, c) = (setHdr now r e b { hdrOf hb with relcount := (hdrOf hb).relcount + 1 } y,
      { c with vers := c.vers ++ [(hdrOf hb).version], data := c.data ++ w }) := by
  simp only [gatherOne, hread, hcopy]

theorem releaseOne_leased {ver st : Nat} (hver : ver = (hdrOf hb).version) (hleased : 0 < (hdrOf hb).relcount) :
    releaseOne now r e b ver (m, st) = (setHdr now r e b { hdrOf hb with relcount := (hdrOf hb).relcount - 1 } x, st) := by
  simp only [releaseOne, hread, if_pos (And.intro hver hleased)]

theorem releaseOne_stale {ver st : Nat} (hver : ver ≠ (hdrOf hb).version)
    (hold : (hdrOf hb).retained = false ∨ ver ≠ ((hdrOf hb).version + 2 ^ 32 - 1) % 2 ^ 32) :
    releaseOne now r e b ver (m, st) = (x.bump kRELEASE_STALE 1, st) := by
  have hcurrent : ¬(ver = (hdrOf hb).version ∧ 0 < (hdrOf hb).relcount) := fun h => hver h.1
  have hretained : ¬((hdrOf hb).retained = true ∧ ver = ((hdrOf hb).version + 2 ^ 32 - 1) % 2 ^ 32) := by
    rintro ⟨hkept, heq⟩
    exact hold.elim (fun h => Bool.false_ne_true (h.symm.trans hkept)) (· heq)
  simp only [releaseOne, hread, if_neg hcurrent, if_neg hretained]

end

end Sys2Proof.Machine

namespace Sys2Proof

open Machine Claims

/-- Settles O30: a frame of a region that serves it is applied at once, and answered; then one block by what its header says. -/
theorem trainingFramesAreServed : Obligations.TrainingFramesAreServed :=
  ⟨fun _ _ _ _ hup h hfmt hbody hb hlast => exec_accum_one hup h hfmt hbody hb hlast,
    fun _ _ _ _ _ _ _ _ => ⟨addGradient_stale, fun hstep hexpect _ _ hread => addGradient_extra hread hstep hexpect⟩,
    fun _ _ _ _ hup h hb haux hlast hroom => exec_gather_one hup h hb haux hlast hroom,
    fun _ _ _ _ _ _ _ _ _ _ _ _ hread hcopy => gatherOne_read hread hcopy,
    fun _ _ _ _ hup h hb haux hlast => exec_refetch_one hup h hb haux hlast,
    fun _ _ _ _ hup h hb haux hlast => exec_release_one hup h hb haux hlast,
    fun _ _ _ _ _ _ _ _ _ hread => ⟨releaseOne_leased hread, releaseOne_stale hread⟩,
    fun _ hp _ _ hup h hb => exec_lease_nowhere hup hp h hb⟩

end Sys2Proof
end

section
/-! PROOFS. The statement of the norm fence and of the close of a step. -/

namespace Sys2Proof.Machine

/-! ### Settings

The dictionary's entries by which training, rounds and snapshots are set up lie below CUT_AT and the counters, and above EVENT_SEQ. No
event, frame or request for memory writes one. ROUND lies among them and is not one: it counts. -/

def isSetting (k : Nat) : Bool := decide (0x200000 ≤ k ∧ k ≤ kSNAP_POLICY ∧ k ≠ kROUND)

def Module.settings (m : Module) (k : Nat) : Nat := if isSetting k = true then m.num k else 0

theorem num_of_settings {a b : Module} {k : Nat} (h : b.settings = a.settings) (hk : isSetting k = true) : b.num k = a.num k := by
  have hat := congrFun h k
  rwa [Module.settings, Module.settings, if_pos hk, if_pos hk] at hat

/-- The entries of the regions are settings. -/
theorem isSetting_of_region {k r : Nat} (hlo : 0x600000 ≤ k) (hhi : k < 0x602000) (hr : r < 16) : isSetting (k + r) = true :=
  decide_eq_true (by simp only [kSNAP_POLICY, kROUND]; omega)

/-- A counter's entries are none, whatever their index. -/
theorem not_isSetting_of_counter {k : Nat} (i : Nat) (hk : 0xA00000 ≤ k) : isSetting (k + i) = false :=
  decide_eq_false (by simp only [kSNAP_POLICY]; omega)

section
variable (m : Module) (now r : Nat)

theorem settings_setNum {k : Nat} (v : Nat) (hk : isSetting k = false) : (m.setNum k v).settings = m.settings := by
  funext j
  simp only [Module.settings]
  split
  · next hj =>
    have hne : j ≠ k := fun e => by rw [e, hk] at hj; exact Bool.noConfusion hj
    exact Module.num_setNum_ne m v hne
  · rfl

theorem settings_bump {k : Nat} (n : Nat) (hk : isSetting k = false) : (m.bump k n).settings = m.settings := settings_setNum m _ hk

/-! Events and frames leave the settings alone. -/

@[simp] theorem settings_modEnv (f : Env → Env) : (m.modEnv f).settings = m.settings := rfl
@[simp] theorem settings_modDrone (f : Drone → Drone) : (m.modDrone f).settings = m.settings := rfl
@[simp] theorem settings_modFab (f : Fabric → Fabric) : (m.modFab f).settings = m.settings := rfl
@[simp] theorem settings_modPort (p : Nat) (f : PortSt → PortSt) : (m.modPort p f).settings = m.settings := rfl
@[simp] theorem settings_modKey (k : Nat) (f : LineKey → LineKey) : (m.modKey k f).settings = m.settings := rfl
@[simp] theorem settings_modR (q : Nat) (f : Region → Region) : (m.modR q f).settings = m.settings := rfl
@[simp] theorem settings_modStack (q : Nat) (f : Stack → Stack) : (m.modStack q f).settings = m.settings := rfl
@[simp] theorem settings_modSq (i : Nat) (f : StageQ → StageQ) : (m.modSq i f).settings = m.settings := rfl
@[simp] theorem settings_emit (e : Emit) : (m.emit e).settings = m.settings := rfl

@[simp] theorem settings_record (cls code src key : Nat) (d : List Byte) : (postF.record now cls code src d m key).settings = m.settings :=
  (settings_bump (m.setNum kEVENT_SEQ _) (k := kEVENTS_SENT) 1 (by decide)).trans (settings_setNum m (k := kEVENT_SEQ) _ (by decide))

@[simp] theorem settings_postF (fatal : Bool) (cls code src : Nat) (d : List Byte) : (postF fatal now cls code src d m).settings = m.settings := by
  have hline : (if fatal = true then m.modEnv (fun e => { e with alertN := false }) else m).settings = m.settings := by split <;> rfl
  unfold postF; split
  · rfl
  · simp only []
    rw [← hline]
    split
    · split
      · exact settings_bump _ _ (by decide)
      · exact settings_record _ _ _ _ _ _ _
    · exact settings_record _ _ _ _ _ _ _

@[simp] theorem settings_post (cls code src : Nat) (d : List Byte) : (post now cls code src d m).settings = m.settings := settings_postF _ _ _ _ _ _ _

@[simp] theorem settings_sealFrame (slot iface : Nat) (f : Frame) : (sealFrame now slot iface f m).1.settings = m.settings := by
  unfold sealFrame; simp only []
  split <;> simp

@[simp] theorem settings_emitFrame (via : Via) (f : Frame) : (emitFrame now via f m).settings = m.settings := by
  unfold emitFrame; simp only []
  split <;> rfl

@[simp] theorem settings_transmitPort (p seq : Nat) (f : Frame) : (transmitPort now p seq f m).settings = m.settings := by
  unfold transmitPort emitLink; split
  · rfl
  · split <;> simp

@[simp] theorem settings_transmitEdge (e : Nat) (f : Frame) : (transmitEdge now e f m).settings = m.settings := by
  unfold transmitEdge; split
  · rfl
  · split <;> simp

@[simp] theorem settings_markSent (f : Frame) : (markSent now f m).settings = m.settings := by
  unfold markSent; simp only []
  split <;> simp

@[simp] theorem settings_sendPort (p : Nat) (f : Frame) : (sendPort now p f m).settings = m.settings := by
  unfold sendPort putOnLink; simp only []
  split <;> simp

@[simp] theorem settings_sendVia (via : Via) (f : Frame) : (sendVia now via f m).settings = m.settings := by cases via <;> simp [sendVia]

@[simp] theorem settings_send (f : Frame) : (send now f m).1.settings = m.settings := by
  unfold send; split
  · exact settings_bump _ _ (by decide)
  · split
    · split
      · rfl
      · exact settings_bump _ _ (by decide)
    · exact settings_sendVia _ _ _ _
  · exact settings_sendVia _ _ _ _

@[simp] theorem settings_sendOnly (f : Frame) : (sendOnly now f m).settings = m.settings := settings_send _ _ _

@[simp] theorem settings_issueOnly (h : Nat) (o : Owner) (c : Nat) (f : Frame) : (issueOnly now h o c f m).settings = m.settings := by
  unfold issueOnly issue; split
  · rfl
  · unfold sendTagged; simp only []
    split <;> simp

@[simp] theorem settings_setCutAt (v : Nat) : (setCutAt v m).1.settings = m.settings := by
  unfold setCutAt; split
  · rfl
  · split
    · exact settings_bump _ _ (by decide)
    · split
      · rfl
      · exact settings_setNum _ _ (by decide)

@[simp] theorem settings_advise (b : Nat) : (advise now b m).settings = m.settings := by
  unfold advise; split
  · exact (forL_keeps Module.settings _ (fun _ _ => by simp [dictWriteTo]) _ _).trans (settings_setCutAt _ _)
  · rfl

end

/-! ### What one region's own work leaves alone -/

/-- The settings, the norm values passed, the module's cut and every region but one. -/
def Module.beside (m : Module) (r : Nat) := (m.settings, m.norm, m.cuts, fun q => if q = r then none else some (m.rg q))

theorem beside_eq {a b : Module} {r : Nat} (hset : b.settings = a.settings) (hstill : b.stillM = a.stillM) (hreg : ∀ q, q ≠ r → b.rg q = a.rg q) :
    b.beside r = a.beside r := by
  have hnorm : b.norm = a.norm := congrArg (fun x => x.2.2.2.2.2.2.2.2.2.2.1) hstill
  have hcuts : b.cuts = a.cuts := congrArg (fun x => x.2.2.2.2.2.2.2.2.1) hstill
  simp only [Module.beside, Prod.mk.injEq]
  refine ⟨hset, hnorm, hcuts, funext fun q => ?_⟩
  split
  · rfl
  · next hq => rw [hreg q hq]

section
variable {a b : Module} {r : Nat} (h : b.beside r = a.beside r)
include h

theorem settings_of_beside : b.settings = a.settings := congrArg Prod.fst h

theorem norm_of_beside : b.norm = a.norm := congrArg (fun x => x.2.1) h

theorem cuts_of_beside : b.cuts = a.cuts := congrArg (fun x => x.2.2.1) h

theorem rg_of_beside {q : Nat} (hq : q ≠ r) : b.rg q = a.rg q := by
  have hat := congrFun (congrArg (fun x => x.2.2.2) h) q
  simpa [Module.beside, hq] using hat

end

section
variable (m : Module) (r now : Nat)

theorem beside_bump {k : Nat} (n : Nat) (hk : isSetting k = false) : (m.bump k n).beside r = m.beside r :=
  beside_eq (settings_bump m n hk) rfl (fun _ _ => rfl)

@[simp] theorem beside_modR (f : Region → Region) : (m.modR r f).beside r = m.beside r :=
  beside_eq rfl rfl (fun _ hq => Module.rg_modR_ne m f hq)

@[simp] theorem beside_modStack (f : Stack → Stack) : (m.modStack r f).beside r = m.beside r := beside_modR m r _
@[simp] theorem beside_modTrain (f : Train → Train) : (m.modTrain r f).beside r = m.beside r := beside_modR m r _
@[simp] theorem beside_modWork (f : Work → Work) : (m.modWork r f).beside r = m.beside r := beside_modR m r _
@[simp] theorem beside_modTest (f : Test → Test) : (m.modTest f).beside r = m.beside r := rfl
@[simp] theorem beside_modSq (i : Nat) (f : StageQ → StageQ) : (m.modSq i f).beside r = m.beside r := rfl

@[simp] theorem beside_post (cls code src : Nat) (d : List Byte) : (post now cls code src d m).beside r = m.beside r :=
  beside_eq (settings_post ..) (stillM_post ..) (fun _ _ => Module.rg_of_regions _ (regions_post ..))

@[simp] theorem beside_advise (b : Nat) : (advise now b m).beside r = m.beside r :=
  beside_eq (settings_advise ..) (stillM_advise ..) (fun _ _ => Module.rg_of_regions _ (regions_advise ..))

@[simp] theorem beside_sendOnly (f : Frame) : (sendOnly now f m).beside r = m.beside r :=
  beside_eq (settings_sendOnly ..) (stillM_sendOnly ..) (fun _ _ => Module.rg_of_regions _ (regions_send ..))

@[simp] theorem beside_sendCredit (i n : Nat) : (sendCredit now i n m).beside r = m.beside r := by
  simp only [sendCredit, beside_sendOnly]

/-! Bonded memory. -/

@[simp] theorem beside_memAdvisory_go (reason : Nat) : (memAdvisory.go now r reason m).beside r = m.beside r := by simp [memAdvisory.go]

@[simp] theorem beside_memAdvisory (reason : Nat) : (memAdvisory now r reason m).beside r = m.beside r := by
  unfold memAdvisory; split
  · split
    · rfl
    · simp
  · simp

@[simp] theorem beside_noteCe : (noteCe now r m).beside r = m.beside r := by
  have hcount := beside_bump m r (k := kCE_COUNT) 1 (by decide)
  unfold noteCe; simp only []
  split <;> simpa using hcount

@[simp] theorem beside_noteUe (req : Nat) (x : Nat × Nat) : (noteUe now r req x m).beside r = m.beside r := by
  simpa [noteUe] using beside_bump m r (k := kUE_COUNT) 1 (by decide)

@[simp] theorem beside_noteMet (req : Nat) (x : Met) : (noteMet now r req x m).beside r = m.beside r :=
  (forL_keeps (fun m : Module => m.beside r) _ (fun _ _ => by simp) _ _).trans (forL_keeps (fun m : Module => m.beside r) _ (fun _ _ => by simp) _ _)

@[simp] theorem beside_noteMalformed (req slot : Nat) : (noteMalformed now r req slot m).beside r = m.beside r := beside_post ..

@[simp] theorem beside_memRequest : (memRequest now r m).beside r = m.beside r := by
  unfold memRequest; simp only []
  split
  · simpa using beside_bump m r 2000 (by decide)
  · simp

@[simp] theorem beside_touchLine (slot : Nat) : (touchLine r slot m).beside r = m.beside r := by
  unfold touchLine; simp only []
  split
  · simpa using beside_bump m r 1 (by decide)
  · simp

@[simp] theorem beside_readSlot (req slot lo n : Nat) : (readSlot now r req slot lo n m).1.beside r = m.beside r := by
  unfold readSlot; simp only []
  split
  · simp
  · split <;> simp

@[simp] theorem beside_noteAlloc (off len : Nat) : (noteAlloc r off len m).beside r = m.beside r := by
  have hcount := beside_bump m r (k := kUNMAPPED_WRITES) 1 (by decide)
  unfold noteAlloc; simp only []
  split
  · split
    · split
      · simpa using hcount
      · exact hcount
    · exact hcount
  · rfl

@[simp] theorem beside_metaOk (req slot : Nat) : (metaOk now r req slot m).1.beside r = m.beside r := by simp [metaOk]

@[simp] theorem beside_writeStored (req slot code : Nat) (bs : List Byte) : (writeStored now r req slot code bs m).1.beside r = m.beside r := by
  unfold writeStored; simp only []
  split
  · simp
  · split
    · simp
    · simp only [beside_modStack]
      exact (beside_bump _ r _ (by decide)).trans ((beside_bump _ r _ (by decide)).trans (beside_metaOk ..))

@[simp] theorem beside_writePart (req slot lo : Nat) (bs : List Byte) : (writePart now r req slot lo bs m).1.beside r = m.beside r := by
  unfold writePart; simp only []
  split
  · simp
  · split
    · split <;> simp
    · have hread := beside_readSlot m r now req slot 0 256
      split
      next x heq => exact module_of_answer (fun m => m.beside r) heq hread
      next x old heq =>
        simp only [beside_modStack]
        exact (beside_bump x r 1 (by decide)).trans (module_of_answer (fun m => m.beside r) heq hread)

@[simp] theorem beside_poke (off : Nat) (bs : List Byte) : (poke now r off bs m).beside r = m.beside r := by
  unfold poke memWrite; split
  · rfl
  · exact (foldlPair_keeps (fun m : Module => m.beside r) _ (fun _ _ => by simp) _ _).trans (by simp)

/-! Sync counters and stall times. -/

@[simp] theorem beside_freeEntries (i n : Nat) : (freeEntries now i n m).beside r = m.beside r := by
  have hexcess (n : Nat) : (m.bump kFREE_EXCESS n).beside r = m.beside r := beside_bump m r n (by decide)
  unfold freeEntries; simp only []
  split <;> split <;> simp [hexcess]

@[simp] theorem beside_incCounter (k n : Nat) : (incCounter now r k n m).beside r = m.beside r := by
  unfold incCounter; simp only []
  split
  · simp
  · refine (forN_keeps (fun m : Module => m.beside r) _ (fun i m => ?_) _ _).trans (beside_modWork m r _)
    split
    · simp
    · rfl

@[simp] theorem beside_restall : (restall now m).beside r = m.beside r := by
  refine forL_keeps (fun m : Module => m.beside r) _ (fun i m => ?_) _ m
  unfold markStalls; simp only []
  split
  · rfl
  · simp only [beside_modSq]
    exact (beside_bump _ r _ (not_isSetting_of_counter i (by decide))).trans (beside_bump _ r _ (not_isSetting_of_counter i (by decide)))

end

/-! ### A sync counter that a region's own work raises -/

theorem Work.counter_addCounter (w : Work) (n : Nat) {k : Nat} (hk : k < 255) : (w.addCounter k n).counter k = (w.counter k + n) % 65536 := by
  rw [Work.addCounter, if_pos hk]
  exact Tab.get_set_self 0 _ k _

section
variable (m : Module) (r now : Nat)

theorem regions_sendOnly (f : Frame) : (sendOnly now f m).regions = m.regions := regions_send _ _ _

theorem regions_sendCredit (i n : Nat) : (sendCredit now i n m).regions = m.regions := by
  simp only [sendCredit, regions_sendOnly]

theorem regions_freeEntries (i n : Nat) : (freeEntries now i n m).regions = m.regions := by
  unfold freeEntries; simp only []
  split <;> split
  · rfl
  · rfl
  · exact regions_sendCredit ..
  · exact regions_sendCredit ..

theorem regions_incCounter (k n : Nat) : (incCounter now r k n m).regions = (m.modWork r (fun w => w.addCounter k n)).regions := by
  unfold incCounter; simp only []
  split
  · rfl
  · refine forN_keeps Module.regions _ (fun i m => ?_) _ _
    split
    · exact regions_freeEntries _ _ _ _
    · rfl

/-- What is raised in the region is the counter alone. -/
theorem rg_counted (k : Nat) : (restall now (incCounter now r k 1 m)).rg r = { m.rg r with work := (m.rg r).work.addCounter k 1 } := by
  rw [Module.rg_of_regions _ (restall_regions now _), Module.rg_of_regions _ (regions_incCounter m r now k 1), Module.rg_modWork]

theorem beside_counted (k : Nat) : (restall now (incCounter now r k 1 m)).beside r = m.beside r :=
  (beside_restall _ _ _).trans (beside_incCounter _ _ _ _ _)

end

/-! ### The norm fence (R165) -/

/-- What the fence makes of a region g whose NORM_SIG is k: one that has passed its value starts anew and raises the counter, another
stays as it is. -/
def NormFenced (k : Nat) (g t : Region) : Prop :=
  t.train.passed = false
  ∧ (g.train.passed = true → k < 255 → t.work.counter k = (g.work.counter k + 1) % 65536 ∧ t.train.complete = 0)
  ∧ (g.train.passed = false → t.work = g.work ∧ t.stack = g.stack)

section
variable (m : Module) (r now v : Nat)

theorem fenceNorm_of_unpassed (h : (m.rg r).train.passed = false) : fenceNorm now r v m = m := by simp [fenceNorm, h]

/-- A region that has passed its value gets the results in its record, and raises its counter. -/
theorem fenceNorm_of_passed (h : (m.rg r).train.passed = true) : ∃ off bs, let p := poke now r off bs m
    fenceNorm now r v m = restall now (incCounter now r (p.num (kNORM_SIG + r)) 1
      (p.modTrain r (fun t => { t with passed := false, complete := 0, partialSum := 0 }))) := by
  rw [fenceNorm, h]
  exact ⟨_, _, rfl⟩

theorem beside_fenceNorm : (fenceNorm now r v m).beside r = m.beside r := by
  cases hpassed : (m.rg r).train.passed with
  | false => rw [fenceNorm_of_unpassed m r now v hpassed]
  | true =>
    obtain ⟨off, bs, heq⟩ := fenceNorm_of_passed m r now v hpassed
    rw [heq, beside_counted, beside_modTrain, beside_poke]

theorem normFenced_fenceNorm (hr : r < 16) : NormFenced (m.num (kNORM_SIG + r)) (m.rg r) ((fenceNorm now r v m).rg r) := by
  cases hpassed : (m.rg r).train.passed with
  | false =>
    rw [fenceNorm_of_unpassed m r now v hpassed]
    exact ⟨hpassed, fun h => Bool.noConfusion (hpassed.symm.trans h), fun _ => ⟨rfl, rfl⟩⟩
  | true =>
    obtain ⟨off, bs, heq⟩ := fenceNorm_of_passed m r now v hpassed
    have hsig : (poke now r off bs m).num (kNORM_SIG + r) = m.num (kNORM_SIG + r) :=
      num_of_settings (settings_of_beside (beside_poke m r now off bs)) (isSetting_of_region (by decide) (by decide) hr)
    have hwork : ((poke now r off bs m).rg r).work = (m.rg r).work := work_of_still (stillR_poke m r now r off bs)
    rw [heq, rg_counted, Module.rg_modTrain, hsig, hwork]
    exact ⟨rfl, fun _ hk => ⟨Work.counter_addCounter _ 1 hk, rfl⟩, fun h => Bool.noConfusion (hpassed.symm.trans h)⟩

/-- The fence goes through the regions by number: the first n have their results, the others are as they were. -/
theorem normFenced_forN {n : Nat} (hn : n ≤ 16) : let t := forN n m (fun r m => fenceNorm now r v m)
    t.settings = m.settings ∧ t.norm = m.norm ∧ (∀ q, n ≤ q → t.rg q = m.rg q) ∧ ∀ q, q < n → NormFenced (m.num (kNORM_SIG + q)) (m.rg q) (t.rg q) := by
  induction n with
  | zero => exact ⟨rfl, rfl, fun _ _ => rfl, fun q hq => absurd hq (Nat.not_lt_zero q)⟩
  | succ n ih =>
    obtain ⟨hset, hnorm, hlater, hdone⟩ := ih (by omega)
    simp only [forN_succ]
    generalize forN n m (fun r m => fenceNorm now r v m) = t at hset hnorm hlater hdone ⊢
    have hbeside := beside_fenceNorm t n now v
    refine ⟨(settings_of_beside hbeside).trans hset, (norm_of_beside hbeside).trans hnorm, fun q hq => ?_, fun q hq => ?_⟩
    · rw [rg_of_beside hbeside (by omega), hlater q (by omega)]
    · by_cases hqn : q = n
      · subst hqn
        have hnow := normFenced_fenceNorm t q now v (by omega)
        rwa [hlater q (Nat.le_refl q), num_of_settings hset (isSetting_of_region (by decide) (by decide) (by omega))] at hnow
      · rw [rg_of_beside hbeside hqn]
        exact hdone q (by omega)

end

/-! ### The module's norm sum (R165, R248) -/

section
variable {a b : Module} (h : b.tables 0 = a.tables 0)
include h

theorem groupIn_of_tables (g n off : Nat) : groupIn b g n off = groupIn a g n off := by
  induction n generalizing off with
  | zero => rfl
  | succ n ih => simp only [groupIn, peek_of_tables h, ih]

theorem members_of_tables (g : Nat) : b.members g = a.members g := by
  rw [Module.members, groupIn_of_tables h, num_of_tables h, Module.members]

end

/-- The regions' values are spent. -/
def spendNorms (m : Module) : Module := { m with norm := m.norm.filter (fun p => decide (16 ≤ p.1)) }

/-! ### The close of a step (R181) -/

/-- The close of step k is no longer to come in region r; a snapshot policy that a commit changed acts from here (R382). -/
def noteClose (r k id : Nat) (m : Module) : Module :=
  (m.modTrain r (fun t => { t with closing := t.closing.filter (fun c => c ≠ (k, id)) })).modCuts (fun c => { c with params := [] })

/-- The update-to-weight sums of step k go to their table in bonded memory, where there is one. -/
def writeSums (now r k : Nat) (m : Module) : Module :=
  let base := m.num (kUWR_BASE + r)
  if base = 0 then m else poke now r base (uwrTable (m.rg r).train k) m

/-- The update-to-weight sums of region r start anew. -/
def renewSums (r : Nat) (m : Module) : Module := m.modTrain r (fun t => { t with uwr := [], unmapped := 0, compWorking := m.num kCOMP_WORKING == 1 })

/-- A step of region r is closed, and its sums with it. -/
def closeSums (now r k id : Nat) (m : Module) : Module := renewSums r (writeSums now r k (noteClose r k id m))

/-- Where the step ends a round, the region comes to the round's boundary, the module with the last of them. -/
def closeRound (now r k : Nat) (m : Module) : Module :=
  let rs := m.num kROUND_STEPS
  if rs = 0 ∨ k % rs ≠ 0 ∨ k = 0 then m
  else
    let n := k / rs
    let others := m.owners.filter (fun q => q ≠ r)
    let m := if others.all (fun q => decide (n ≤ (m.rg q).xch.boundary)) then passBoundary now n m else m
    boundary now r n m

/-- CLOSE_SIG of region r is raised. -/
def closeSignal (now r : Nat) (m : Module) : Module := restall now (incCounter now r (m.num (kCLOSE_SIG + r)) 1 m)

section
variable (m : Module) (r now k id : Nat)

theorem closeStep_eq : closeStep now r k id m =
    closeRound now r k (closeSignal now r (takeCut now r k (beginCut now r k ((closeSums now r k id m).setNum (kSTEP_CLOSED + r) k)))) := by
  unfold closeStep closeRound closeSignal closeSums renewSums writeSums noteClose
  rfl

/-- A step that names no cut begins none. -/
theorem beginCut_of_unnamed (h : cutNamed m k = false) : beginCut now r k m = m := by simp [beginCut, h]

theorem takeCut_of_notMem (h : r ∉ m.cuts.toTake) : takeCut now r k m = m := by simp [takeCut, h]

theorem cutNamed_of_policy (hparams : m.cuts.params = []) (hpolicy : m.num kSNAP_POLICY = 0) : cutNamed m k = false := by
  simp [cutNamed, Module.snapNum, hparams, hpolicy]

/-- What a round's boundary leaves alone: the settings, the module's cut, and the region's work and training state. -/
def Module.closed (m : Module) (r : Nat) := (m.settings, m.cuts, (m.rg r).work, (m.rg r).train)

theorem closed_modXch (f : Xch → Xch) : (m.modXch r f).closed r = m.closed r := by
  simp only [Module.closed, Module.modXch, Module.rg_modR]
  rfl

theorem closed_modCh (f : Chanter → Chanter) : (m.modCh f).closed r = m.closed r := rfl

theorem closed_passBoundary (n : Nat) (h : m.num kEXCH_POLICY = 0) : (passBoundary now n m).closed r = m.closed r := by
  have hround : (m.setNum kROUND n).closed r = m.closed r :=
    congrArg (fun x => (x, m.cuts, (m.rg r).work, (m.rg r).train)) (settings_setNum m n (by decide))
  unfold passBoundary
  split
  · rfl
  · split
    · simp only [h, Nat.zero_le, true_or, if_true]
      split <;> simp only [closed_modCh, hround]
    · simp only []
      split <;> simp only [closed_modCh, hround]

theorem closed_boundary (n : Nat) (h : m.num kEXCH_POLICY = 0) : (boundary now r n m).closed r = m.closed r := by
  have hseed (m : Module) : (seedHelper r n m).closed r = m.closed r := by
    unfold seedHelper
    split <;> rfl
  have hpolicy (m : Module) : (seedHelper r n m).num kEXCH_POLICY = m.num kEXCH_POLICY := num_of_settings (congrArg Prod.fst (hseed m)) (by decide)
  have hcodec (f : Xch → Xch) : (m.modXch r f).num kEXCH_POLICY = 0 := h
  simp only [boundary, hpolicy, hcodec, or_true, if_true, closed_modXch, hseed]

theorem closed_closeRound (h : m.num kEXCH_POLICY = 0) : (closeRound now r k m).closed r = m.closed r := by
  unfold closeRound; simp only []
  split
  · rfl
  · split
    · have hpass := closed_passBoundary m r now (k / m.num kROUND_STEPS) h
      have hpolicy := (num_of_settings (congrArg Prod.fst hpass) (by decide)).trans h
      exact (closed_boundary _ _ _ _ hpolicy).trans hpass
    · exact closed_boundary _ _ _ _ h

theorem beside_writeSums : (writeSums now r k m).beside r = m.beside r := by
  unfold writeSums; simp only []
  split
  · rfl
  · exact beside_poke _ _ _ _ _

theorem stillR_writeSums : (writeSums now r k m).stillR r = m.stillR r := by
  unfold writeSums; simp only []
  split
  · rfl
  · exact stillR_poke _ _ _ _ _ _

theorem rg_modCuts (f : Cuts → Cuts) : (m.modCuts f).rg r = m.rg r := rfl

theorem rg_noteClose : (noteClose r k id m).rg r =
    { m.rg r with train := { (m.rg r).train with closing := (m.rg r).train.closing.filter (fun c => c ≠ (k, id)) } } := by
  rw [noteClose, rg_modCuts, Module.rg_modTrain]

theorem settings_closeSums : (closeSums now r k id m).settings = m.settings := by
  have hwritten := settings_of_beside (beside_writeSums (noteClose r k id m) r now k)
  exact hwritten

theorem cuts_closeSums : (closeSums now r k id m).cuts = { m.cuts with params := [] } := by
  have hwritten := cuts_of_beside (beside_writeSums (noteClose r k id m) r now k)
  exact hwritten

theorem work_closeSums : ((closeSums now r k id m).rg r).work = (m.rg r).work := by
  have hnoted : ((writeSums now r k (noteClose r k id m)).rg r).work = ((noteClose r k id m).rg r).work := work_of_still (stillR_writeSums _ _ _ _)
  rw [closeSums, renewSums, Module.rg_modTrain]
  rw [hnoted, rg_noteClose]

theorem train_closeSums : let t := ((closeSums now r k id m).rg r).train
    t.uwr = [] ∧ t.unmapped = 0 ∧ t.closing = (m.rg r).train.closing.filter (fun c => c ≠ (k, id)) := by
  have hnoted := train_of_still (stillR_writeSums (noteClose r k id m) r now k)
  rw [closeSums, renewSums, Module.rg_modTrain, hnoted, rg_noteClose]
  exact ⟨rfl, rfl, rfl⟩

/-- The signal raises the region's counter; the settings, the module's cut and the training state stay. -/
theorem closed_closeSignal : (closeSignal now r m).closed r =
    (m.settings, m.cuts, (m.rg r).work.addCounter (m.num (kCLOSE_SIG + r)) 1, (m.rg r).train) := by
  have hbeside := beside_counted m r now (m.num (kCLOSE_SIG + r))
  rw [Module.closed, closeSignal, settings_of_beside hbeside, cuts_of_beside hbeside, rg_counted]

/-- The close of a step under policy 0, in a region that takes no cut. -/
theorem closed_closeStep (hexch : m.num kEXCH_POLICY = 0) (hsnap : m.num kSNAP_POLICY = 0) (htake : r ∉ m.cuts.toTake) (hr : r < 16) :
    let x := closeSums now r k id m
    (closeStep now r k id m).closed r =
      ((x.setNum (kSTEP_CLOSED + r) k).settings, x.cuts, (x.rg r).work.addCounter (m.num (kCLOSE_SIG + r)) 1, (x.rg r).train) := by
  have hcuts := cuts_closeSums m r now k id
  have hnum {j : Nat} (hj : isSetting j = true) (hne : j ≠ kSTEP_CLOSED + r) : ((closeSums now r k id m).setNum (kSTEP_CLOSED + r) k).num j = m.num j :=
    (Module.num_setNum_ne _ k hne).trans (num_of_settings (settings_closeSums m r now k id) hj)
  have hunnamed : cutNamed ((closeSums now r k id m).setNum (kSTEP_CLOSED + r) k) k = false :=
    cutNamed_of_policy _ k (congrArg Cuts.params hcuts) ((hnum (by decide) (by simp only [kSNAP_POLICY, kSTEP_CLOSED]; omega)).trans hsnap)
  have hnone : r ∉ ((closeSums now r k id m).setNum (kSTEP_CLOSED + r) k).cuts.toTake := by
    have htoTake : (closeSums now r k id m).cuts.toTake = m.cuts.toTake := by rw [hcuts]
    rwa [← htoTake] at htake
  have hsig := hnum (isSetting_of_region (k := kCLOSE_SIG) (by decide) (by decide) hr) (by simp only [kCLOSE_SIG, kSTEP_CLOSED]; omega)
  have hpolicy := (hnum (j := kEXCH_POLICY) (by decide) (by simp only [kEXCH_POLICY, kSTEP_CLOSED]; omega)).trans hexch
  have hsignal := closed_closeSignal ((closeSums now r k id m).setNum (kSTEP_CLOSED + r) k) r now
  have hround := closed_closeRound _ r now k ((num_of_settings (congrArg Prod.fst hsignal) (by decide)).trans hpolicy)
  rw [closeStep_eq, beginCut_of_unnamed _ _ _ _ hunnamed, takeCut_of_notMem _ _ _ _ hnone, hround, hsignal, hsig]
  rfl

end

end Sys2Proof.Machine

namespace Sys2Proof

open Machine Claims

section
variable {s : State}

theorem exec_normModuleSum_absent (hup : Up s) {r : Nat} (hr : r < 16) (h : Tab.find? s.mod.norm r = none) :
    exec .normModuleSum s = .next (withMod s (quiet s)) := by
  have hmissing : ¬ (List.range 16).all (fun r => (Tab.find? (quiet s).norm r).isSome) = true := fun hall => by
    have hat := List.all_eq_true.mp hall r (List.mem_range.mpr hr)
    exact absurd hat (by rw [show (quiet s).norm = s.mod.norm from rfl, h]; exact Bool.false_ne_true)
  have hexec : exec .normModuleSum s = execNormModuleSum s := rfl
  rw [hexec, execNormModuleSum, does_quiet hup, if_neg hmissing]

/-- With every value passed the module's sum goes to the group's first member, and the values are spent. -/
theorem exec_normModuleSum_passed (hup : Up s) {to_ : Nat × Nat} {rest : List (Nat × Nat)} (h : ∀ r, r < 16 → (Tab.find? s.mod.norm r).isSome = true)
    (hgroup : s.mod.members (s.mod.num kNORM_GROUP) = to_ :: rest) :
    exec .normModuleSum s = .next (withMod s (issueOnly s.time 0 .none noCtx (collFrame (spendNorms (quiet s)) 0 to_ (s.mod.num kNORM_GROUP)
      (((spendNorms (quiet s)).normRec 0).step % 2 ^ 24) 0 0 0 0 (leBytes 4 (toF32 (normSum s.mod).1))) (spendNorms (quiet s)))) := by
  have hall : (List.range 16).all (fun r => (Tab.find? (quiet s).norm r).isSome) = true :=
    List.all_eq_true.mpr (fun r hr => h r (List.mem_range.mp hr))
  have htables : (spendNorms (quiet s)).tables 0 = s.mod.tables 0 := rfl
  have hmembers : (spendNorms (quiet s)).members ((quiet s).num kNORM_GROUP) = to_ :: rest := (members_of_tables htables _).trans hgroup
  have hexec : exec .normModuleSum s = execNormModuleSum s := rfl
  rw [hexec, execNormModuleSum, does_quiet hup, if_pos hall]
  rw [spendNorms] at hmembers
  simp only [hmembers]
  rfl

theorem ends_normFence (hup : Up s) (sum : W32) : Ends (.normFence sum) s fun t => t.time = s.time ∧ Tab.find? t.mod.norm 32 = none
    ∧ ∀ r, r < 16 → NormFenced (s.mod.num (kNORM_SIG + r)) (s.mod.rg r) (t.mod.rg r) := by
  have hexec : exec (.normFence sum) s = .next (withMod s (forN 16 { quiet s with norm := Tab.del (quiet s).norm 32 }
      (fun r m => fenceNorm s.time r ((Tab.find? (quiet s).norm 32).getD sum.toNat) m))) := by
    show execNormFence sum s = _
    rw [execNormFence, does_quiet hup]
  obtain ⟨-, hnorm, -, hdone⟩ := normFenced_forN { quiet s with norm := Tab.del (quiet s).norm 32 } s.time
    ((Tab.find? (quiet s).norm 32).getD sum.toNat) (Nat.le_refl 16)
  generalize forN 16 { quiet s with norm := Tab.del (quiet s).norm 32 } _ = t at hexec hnorm hdone
  exact ⟨withMod s t, hexec, rfl, (congrArg (fun t => Tab.find? t 32) hnorm).trans (Tab.find?_del_self _ 32), hdone⟩

variable {r : Nat} (hr : r < 16)
include hr

theorem exec_stepClose_none (hup : Up s) (h : closable s.mod r = none) : exec (.stepClose r) s = .next (withMod s (quiet s)) := by
  have hquiet : closable (quiet s) r = none := h
  show execStepClose r s = _
  rw [execStepClose, okR, decide_eq_true hr, guarded_true, does_quiet hup]
  simp only [hquiet]

theorem exec_stepClose_some (hup : Up s) {k id : Nat} (h : closable s.mod r = some (k, id)) :
    exec (.stepClose r) s = .next (withMod s (closeStep s.time r k id (quiet s))) := by
  have hquiet : closable (quiet s) r = some (k, id) := h
  show execStepClose r s = _
  rw [execStepClose, okR, decide_eq_true hr, guarded_true, does_quiet hup]
  simp only [hquiet]

theorem ends_stepClose (hup : Up s) {k id : Nat} (h : closable s.mod r = some (k, id)) (hexch : s.mod.num kEXCH_POLICY = 0)
    (hsnap : s.mod.num kSNAP_POLICY = 0) (htake : r ∉ s.mod.cuts.toTake) : Ends (.stepClose r) s fun t =>
      t.time = s.time ∧ t.mod.num (kSTEP_CLOSED + r) = k ∧ (t.mod.rg r).train.uwr = [] ∧ (t.mod.rg r).train.unmapped = 0
        ∧ (t.mod.rg r).train.closing = (s.mod.rg r).train.closing.filter (fun c => c ≠ (k, id)) ∧ t.mod.cuts = { s.mod.cuts with params := [] }
        ∧ (s.mod.num (kCLOSE_SIG + r) < 255 → (t.mod.work r).counter (s.mod.num (kCLOSE_SIG + r)) = ((s.mod.work r).counter (s.mod.num (kCLOSE_SIG + r)) + 1) % 65536)
        ∧ ∀ q, q < 16 → q ≠ r → t.mod.num (kSTEP_CLOSED + q) = s.mod.num (kSTEP_CLOSED + q) := by
  have hexec := exec_stepClose_some hr hup h
  have hclosed := closed_closeStep (quiet s) r s.time k id hexch hsnap htake hr
  generalize closeStep s.time r k id (quiet s) = t at hexec hclosed
  simp only [Module.closed, Prod.mk.injEq] at hclosed
  obtain ⟨hset, hcuts, hwork, htrain⟩ := hclosed
  obtain ⟨huwr, hunmapped, hclosing⟩ := train_closeSums (quiet s) r s.time k id
  have hnum {q : Nat} (hq : q < 16) := num_of_settings (k := kSTEP_CLOSED + q) hset (isSetting_of_region (by decide) (by decide) hq)
  refine ⟨withMod s t, hexec, rfl, (hnum hr).trans (Module.num_setNum _ _ _), (congrArg Train.uwr htrain).trans huwr, (congrArg Train.unmapped htrain).trans hunmapped,
    (congrArg Train.closing htrain).trans hclosing, hcuts.trans (cuts_closeSums _ _ _ _ _), fun hk => ?_, fun q hq hne => ?_⟩
  · show (t.rg r).work.counter _ = _
    rw [hwork, work_closeSums]
    exact Work.counter_addCounter _ 1 hk
  · have hother : (closeSums s.time r k id (quiet s)).num (kSTEP_CLOSED + q) = (quiet s).num (kSTEP_CLOSED + q) :=
      num_of_settings (settings_closeSums (quiet s) r s.time k id) (isSetting_of_region (by decide) (by decide) hq)
    exact (hnum hq).trans ((Module.num_setNum_ne _ k (by omega)).trans hother)

end

/-- Settles O46: the fence goes through the regions by number, and the work of one leaves the others, and every setting, alone. -/
theorem fencesAndCloses : Obligations.FencesAndCloses := by
  unfold Obligations.FencesAndCloses
  refine ⟨?_, ?_, ?_, ?_, ?_⟩
  · rintro s hup ⟨r, hr, h⟩
    exact exec_normModuleSum_absent hup hr h
  · intro to_ rest s hup h hgroup
    exact exec_normModuleSum_passed hup h hgroup
  · intro sum s hup
    exact ends_normFence hup sum
  · intro r s hr hup h
    exact exec_stepClose_none hr hup h
  · intro r k id s hr hup h hexch hsnap htake
    exact ends_stepClose hr hup h hexch hsnap htake

end Sys2Proof
end

section
/-! PROOFS. The statement of time alignment, with what sending leaves of the dictionary. -/

namespace Sys2Proof.Machine

open Claims

/-! ### Commands that stand for a moment (log entry 5) -/

section
variable {s : State} {c : Bool} {d : Nat} {f : Nat → Module → Module}

theorem doesWhen_atTime (h : Up s) (hc : c = true) : s.doesWhen c d f = .next (atTime s d f) := doesWhen_up h hc

theorem doesWhen_quiet (h : Up s) (hc : c = false) : s.doesWhen c d f = .next (withMod s (quiet s)) := by
  subst hc
  refine (doesAt_up h).trans ?_
  rw [if_neg Bool.false_ne_true, Nat.max_eq_left (Nat.zero_le _)]
  rfl

end

/-! ### What sending leaves of the dictionary

Events and frames write five counters and no other entry: neither another counter nor a table that names sites. -/

def sendCounters : List Nat := [kEVENT_SEQ, kEVENTS_SENT, kEVENTS_MERGED, kNO_ROUTE, kNO_KEY]

/-- The dictionary's entries but for those counters. -/
def Module.entries (m : Module) := (m.blobs, fun k => if k ∈ sendCounters then 0 else m.num k)

/-- The dictionary's entries of training and of Chanter lie between those counters. -/
theorem notMem_sendCounters {k : Nat} (hlo : 0x200000 ≤ k) (hhi : k < 0xA00000) : k ∉ sendCounters := by
  intro h
  simp only [sendCounters, List.mem_cons, List.not_mem_nil, kEVENT_SEQ, kEVENTS_SENT, kEVENTS_MERGED, kNO_ROUTE, kNO_KEY, or_false] at h
  omega

section
variable {a b : Module} (h : b.entries = a.entries)
include h

theorem num_of_entries {k : Nat} (hk : k ∉ sendCounters) : b.num k = a.num k := by
  have hat := congrFun (congrArg Prod.snd h) k
  simpa only [Module.entries, if_neg hk] using hat

theorem blob_of_entries (k : Nat) : b.blob k = a.blob k := by
  have hblobs : b.blobs = a.blobs := congrArg Prod.fst h
  rw [Module.blob, hblobs, Module.blob]

theorem siteOf_of_entries (n : Nat) : b.siteOf n = a.siteOf n := by
  simp only [Module.siteOf, Module.setByte, blob_of_entries h]

end

section
variable (m : Module) (now : Nat)

theorem entries_setNum {k : Nat} (v : Nat) (hk : k ∈ sendCounters) : (m.setNum k v).entries = m.entries := by
  refine Prod.ext rfl (funext fun j => ?_)
  simp only [Module.entries]
  split
  · rfl
  · next hj => exact Module.num_setNum_ne m v fun e => hj (e ▸ hk)

theorem entries_bump {k : Nat} (n : Nat) (hk : k ∈ sendCounters) : (m.bump k n).entries = m.entries := entries_setNum m _ hk

@[simp] theorem entries_modEnv (f : Env → Env) : (m.modEnv f).entries = m.entries := rfl
@[simp] theorem entries_modDrone (f : Drone → Drone) : (m.modDrone f).entries = m.entries := rfl
@[simp] theorem entries_modFab (f : Fabric → Fabric) : (m.modFab f).entries = m.entries := rfl
@[simp] theorem entries_modPort (p : Nat) (f : PortSt → PortSt) : (m.modPort p f).entries = m.entries := rfl
@[simp] theorem entries_modKey (k : Nat) (f : LineKey → LineKey) : (m.modKey k f).entries = m.entries := rfl
@[simp] theorem Module.num_modCh (f : Chanter → Chanter) (k : Nat) : (m.modCh f).num k = m.num k := rfl
@[simp] theorem entries_modSec (f : Security → Security) : (m.modSec f).entries = m.entries := rfl
@[simp] theorem entries_emit (e : Emit) : (m.emit e).entries = m.entries := rfl
@[simp] theorem entries_useFree : m.useFree.entries = m.entries := rfl
@[simp] theorem entries_setTimer (k t : Nat) : (m.setTimer k t).entries = m.entries := rfl

@[simp] theorem entries_record (cls code src key : Nat) (d : List Byte) : (postF.record now cls code src d m key).entries = m.entries :=
  (entries_bump (m.setNum kEVENT_SEQ _) (k := kEVENTS_SENT) 1 (by decide)).trans (entries_setNum m (k := kEVENT_SEQ) _ (by decide))

@[simp] theorem entries_post (cls code src : Nat) (d : List Byte) : (post now cls code src d m).entries = m.entries := by
  have hline : (if fatalCode cls code = true then m.modEnv (fun e => { e with alertN := false }) else m).entries = m.entries := by split <;> rfl
  unfold post postF; split
  · rfl
  · simp only []
    split
    · split
      · exact (entries_bump _ _ (by decide)).trans hline
      · exact (entries_record _ _ _ _ _ _ _).trans hline
    · exact (entries_record _ _ _ _ _ _ _).trans hline

@[simp] theorem entries_sealFrame (slot iface : Nat) (f : Frame) : (sealFrame now slot iface f m).1.entries = m.entries := by
  unfold sealFrame; simp only []; split <;> simp

@[simp] theorem entries_emitFrame (via : Via) (f : Frame) : (emitFrame now via f m).entries = m.entries := by
  unfold emitFrame; simp only []; split <;> rfl

@[simp] theorem entries_transmitPort (p seq : Nat) (f : Frame) : (transmitPort now p seq f m).entries = m.entries := by
  unfold transmitPort emitLink; split
  · rfl
  · split <;> simp

@[simp] theorem entries_transmitEdge (e : Nat) (f : Frame) : (transmitEdge now e f m).entries = m.entries := by
  unfold transmitEdge; split
  · rfl
  · split <;> simp

@[simp] theorem entries_markSent (f : Frame) : (markSent now f m).entries = m.entries := by
  unfold markSent; simp only []; split <;> simp

@[simp] theorem entries_sendPort (p : Nat) (f : Frame) : (sendPort now p f m).entries = m.entries := by
  unfold sendPort putOnLink; simp only []; split <;> simp

@[simp] theorem entries_sendVia (via : Via) (f : Frame) : (sendVia now via f m).entries = m.entries := by cases via <;> simp [sendVia]

@[simp] theorem entries_sendOnly (f : Frame) : (sendOnly now f m).entries = m.entries := by
  unfold sendOnly send; split
  · exact entries_bump m 1 (by decide)
  · split
    · split
      · rfl
      · exact entries_bump m 1 (by decide)
    · simp
  · simp

@[simp] theorem chanter_sendOnly (f : Frame) : (sendOnly now f m).chanter = m.chanter := congrArg (fun x => x.2.2.1) (stillM_sendOnly m now f)

theorem chanter_post (cls code src : Nat) (d : List Byte) : (post now cls code src d m).chanter = m.chanter :=
  congrArg (fun x => x.2.2.1) (stillM_post m now cls code src d)

end

/-- The first event of its combination is recorded (R311, R390). -/
theorem posted_post {m : Module} {cls code src : Nat} (now : Nat) (d : List Byte) (hup : m.env.droneUp = true) (hfirst : FirstOf m cls code src) :
    Posted m (post now cls code src d m) now cls code src d := by
  have hrecord (x : Module) (hseq : x.num kEVENT_SEQ = m.num kEVENT_SEQ) (key : Nat) :
      Posted m (postF.record now cls code src d x key) now cls code src d := by
    have hnum : (postF.record now cls code src d x key).num kEVENT_SEQ = (m.num kEVENT_SEQ + 1) % 2 ^ 32 := by
      show ((x.setNum kEVENT_SEQ _).bump kEVENTS_SENT 1).num kEVENT_SEQ = _
      rw [Module.num_bump, Module.num_setNum, if_neg (by decide), hseq, Nat.add_zero]
    refine ⟨hnum, ?_⟩
    rw [hnum, ← hseq]
    exact Tab.find?_put_self _ _ _
  have hseq : (if fatalCode cls code = true then m.modEnv (fun e => { e with alertN := false }) else m).num kEVENT_SEQ = m.num kEVENT_SEQ := by
    split <;> rfl
  have hdrone : (if fatalCode cls code = true then m.modEnv (fun e => { e with alertN := false }) else m).drone = m.drone := by
    split <;> rfl
  simp only [post, postF, hup, Bool.not_true, Bool.false_eq_true, if_false, hdrone, hfirst]
  exact hrecord _ hseq _

/-! ### Time alignment (R222–R224, R440) -/

section
variable {m : Module} {now : Nat}

theorem deadlineOf_unaligned (n : Nat) (h : m.num kALIGN_OK = 0) : deadlineOf m now n = now + m.num kDEADLINE_MS * 1000000 :=
  if_neg fun ⟨_, haligned⟩ => Nat.zero_ne_one (h.symm.trans haligned)

variable (m now)

@[simp] theorem entries_sendTiming (node : Nat) : (sendTiming now node m).entries = m.entries := by simp [sendTiming]

@[simp] theorem chanter_sendTiming (node : Nat) : (sendTiming now node m).chanter = m.chanter := by simp [sendTiming]

/-- Times of two frames that lie more than 1 ns apart. -/
theorem one_lt_apart (a b : Nat) : 1 < (if a ≤ b then b - a else a - b) ↔ ¬(a ≤ b + 1 ∧ b ≤ a + 1) := by split <;> omega

/-- Confirmed or not, a TIMING frame's own time is noted, and answered where it asks for an answer: that changes no entry and nothing of Chanter's. -/
def noteTiming (f : Frame) (m : Module) : Module :=
  let m := m.modSec (fun x => { x with timingSeen := Tab.put x.timingSeen f.srcNode (leBytes 8 (trailerOf f)) })
  if m.inRun ∧ Config.ptpAsks (f.body.take (f.body.length - 8)) = true then sendTiming now f.srcNode m else m

theorem noteTiming_leaves (f : Frame) : (noteTiming now f m).entries = m.entries ∧ (noteTiming now f m).chanter = m.chanter := by
  unfold noteTiming
  simp only []
  split <;> simp

variable {m now} {f : Frame} {old : List Byte}

theorem roundNum_of_entries {a b : Module} (hentries : b.entries = a.entries) (hchanter : b.chanter = a.chanter) {k : Nat} (hk : k ∉ sendCounters) :
    b.roundNum k = a.roundNum k := by
  rw [Module.roundNum, hchanter, num_of_entries hentries hk, Module.roundNum]

/-- The frame that opens an exchange with the reference, eight times per second (R223). -/
def pollReference (now : Nat) (m : Module) : Module := sendTiming now (m.roundNum kTIME_REF) (m.setTimer tALIGN now)

theorem pollReference_leaves (m : Module) (now : Nat) : (pollReference now m).entries = m.entries ∧ (pollReference now m).chanter = m.chanter :=
  ⟨entries_sendTiming _ _ _, chanter_sendTiming _ _ _⟩

/-- The exchange of these four times waits for its confirmation (R440). -/
def awaitExchange (t1 t2 t3 t4 : Nat) (m : Module) : Module :=
  let asym := asI32 (m.num (kASYM_NS + m.siteOf (m.roundNum kTIME_REF)))
  m.modCh (fun c => { c with exchange := some ((((t2 : Int) - t1) - ((t4 : Int) - t3) - asym) / 2) })

theorem awaitExchange_of_entries {a b : Module} (t1 t2 t3 t4 : Nat) (hentries : b.entries = a.entries) (hchanter : b.chanter = a.chanter) :
    let t := awaitExchange t1 t2 t3 t4 b
    t.num kALIGN_OK = a.num kALIGN_OK ∧ t.chanter.theta = a.chanter.theta
      ∧ t.chanter.exchange = some ((((t2 : Int) - t1) - ((t4 : Int) - t3) - asI32 (a.num (kASYM_NS + a.siteOf (a.roundNum kTIME_REF)))) / 2) := by
  have hsite : a.siteOf (a.roundNum kTIME_REF) < 64 := Nat.mod_lt _ (by decide)
  have hasym : b.num (kASYM_NS + a.siteOf (a.roundNum kTIME_REF)) = a.num (kASYM_NS + a.siteOf (a.roundNum kTIME_REF)) :=
    num_of_entries hentries (notMem_sendCounters (by simp only [kASYM_NS]; omega) (by simp only [kASYM_NS]; omega))
  have hround := roundNum_of_entries hentries hchanter (show kTIME_REF ∉ sendCounters by decide)
  simp only [awaitExchange, Module.num_modCh, Module.modCh_chanter, hround, siteOf_of_entries hentries, hasym, hchanter]
  exact ⟨num_of_entries hentries (by decide), trivial, trivial⟩

theorem timingTaken_near (hseen : Tab.find? m.security.timingSeen f.srcNode = some old) (hnear : leNat old ≤ priorTx f + 1 ∧ priorTx f ≤ leNat old + 1)
    (href : f.srcNode = m.roundNum kTIME_REF) : timingTaken now f m = noteTiming now f (confirmExchange now m) := by
  have hclose := mt (one_lt_apart _ _).mp (not_not_intro hnear)
  have href' : (f.srcNode == m.roundNum kTIME_REF) = true := beq_iff_eq.mpr href
  simp only [timingTaken, hseen, if_neg hclose, href', if_true]
  rfl

/-- The exchange that a later frame contradicts is discarded (R440). -/
def discardExchange (m : Module) : Module := (m.bump kTIMING_MISMATCH 1).modCh (fun c => { c with exchange := none })

theorem discardExchange_nums (m : Module) :
    (discardExchange m).num kTIMING_MISMATCH = m.num kTIMING_MISMATCH + 1 ∧ (discardExchange m).num kALIGN_OK = m.num kALIGN_OK :=
  ⟨Module.num_bump m kTIMING_MISMATCH 1 kTIMING_MISMATCH, Module.num_bump m kTIMING_MISMATCH 1 kALIGN_OK⟩

theorem timingTaken_far (hseen : Tab.find? m.security.timingSeen f.srcNode = some old) (hfar : ¬(leNat old ≤ priorTx f + 1 ∧ priorTx f ≤ leNat old + 1))
    (href : f.srcNode = m.roundNum kTIME_REF) : timingTaken now f m =
      noteTiming now f (discardExchange m) := by
  have hapart := (one_lt_apart _ _).mpr hfar
  have href' : (f.srcNode == m.roundNum kTIME_REF) = true := beq_iff_eq.mpr href
  simp only [timingTaken, hseen, if_pos hapart, href', if_true]
  rfl

end

section
variable {s : State}

theorem ends_alignLost (hup : Up s) (hok : s.mod.num kALIGN_OK = 1) (hfirst : FirstOf s.mod 4 1 srcChanter) : Ends .alignLost s fun t =>
    t.time = max s.time (s.mod.chanter.lastGood + 10000000000) ∧ t.mod.num kALIGN_OK = 0 ∧ t.mod.chanter = s.mod.chanter
      ∧ Posted s.mod t.mod t.time 4 1 srcChanter (leBytes 2 (s.mod.roundNum kTIME_REF)) := by
  have hexec : exec .alignLost s = execAlignLost s := rfl
  have hposted := posted_post (m := (quiet s).setNum kALIGN_OK 0) (max s.time (s.mod.chanter.lastGood + 10 * sec))
    (leBytes 2 (s.mod.roundNum kTIME_REF)) hup hfirst
  have hseq : ((quiet s).setNum kALIGN_OK 0).num kEVENT_SEQ = s.mod.num kEVENT_SEQ := Module.num_setNum_ne _ _ (by decide)
  rw [Posted, hseq] at hposted
  refine ⟨_, hexec.trans (doesWhen_atTime hup (decide_eq_true hok)), rfl, ?_, chanter_post _ _ _ _ _ _, hposted⟩
  exact (num_of_entries (entries_post _ _ _ _ _ _) (by decide)).trans (Module.num_setNum _ _ _)

theorem exec_timeExchange_on (hup : Up s) (t1 t2 t3 t4 : Nat) (hrun : s.mod.mstate = 2) (hon : s.mod.roundNum kTIME_ALIGN = 1)
    (href : s.mod.roundNum kTIME_REF ≠ s.mod.node) : exec (.timeExchange t1 t2 t3 t4) s =
      .next (atTime s (s.mod.timer tALIGN + 125 * ms) (fun now m => awaitExchange t1 t2 t3 t4 (pollReference now m))) := by
  have hcond : (s.mod.inRun && decide (s.mod.roundNum kTIME_ALIGN = 1 ∧ s.mod.roundNum kTIME_REF ≠ s.mod.node)) = true :=
    Bool.and_eq_true_iff.mpr ⟨decide_eq_true hrun, decide_eq_true ⟨hon, href⟩⟩
  show execTimeExchange t1 t2 t3 t4 s = _
  exact doesWhen_atTime hup hcond

theorem ends_timeExchange (hup : Up s) (t1 t2 t3 t4 : Nat) (hrun : s.mod.mstate = 2) (hon : s.mod.roundNum kTIME_ALIGN = 1)
    (href : s.mod.roundNum kTIME_REF ≠ s.mod.node) : Ends (.timeExchange t1 t2 t3 t4) s fun t =>
      t.time = max s.time (s.mod.timer tALIGN + 125000000) ∧ t.mod.num kALIGN_OK = s.mod.num kALIGN_OK ∧ t.mod.chanter.theta = s.mod.chanter.theta
        ∧ t.mod.chanter.exchange = some ((((t2 : Int) - t1) - ((t4 : Int) - t3) - asI32 (s.mod.num (kASYM_NS + s.mod.siteOf (s.mod.roundNum kTIME_REF)))) / 2) := by
  obtain ⟨hentries, hchanter⟩ := pollReference_leaves (quiet s) (max s.time (s.mod.timer tALIGN + 125 * ms))
  exact ⟨_, exec_timeExchange_on hup t1 t2 t3 t4 hrun hon href, rfl, awaitExchange_of_entries t1 t2 t3 t4 hentries hchanter⟩

theorem exec_timeExchange_off (hup : Up s) (t1 t2 t3 t4 : Nat)
    (hoff : s.mod.mstate ≠ 2 ∨ s.mod.roundNum kTIME_ALIGN ≠ 1 ∨ s.mod.roundNum kTIME_REF = s.mod.node) :
    exec (.timeExchange t1 t2 t3 t4) s = .next (withMod s (quiet s)) := by
  have hcond : (s.mod.inRun && decide (s.mod.roundNum kTIME_ALIGN = 1 ∧ s.mod.roundNum kTIME_REF ≠ s.mod.node)) = false := by
    rw [Module.inRun, ← Bool.decide_and]
    exact decide_eq_false fun ⟨hrun, hon, href⟩ => hoff.elim (· hrun) fun h => h.elim (· hon) href
  show execTimeExchange t1 t2 t3 t4 s = _
  exact doesWhen_quiet hup hcond

variable {f : Frame} {old : List Byte}

/-- A TIMING frame that is well made, and for this node, by the mesh. -/
theorem exec_timing (hup : Up s) (hmade : badRequest opTIMING f = false) (hbody : 8 ≤ f.body.length) (hmac : f.mac.length = 16)
    (hhere : addrNode f.addr = s.mod.node) : exec (.timing f .mesh) s = .next (withMod s (timingTaken s.time f (quiet s))) := by
  have hnode : ¬addrNode f.addr ≠ (quiet s).node := not_not_intro hhere
  have hgood : ¬(badRequest opTIMING f = true ∨ f.body.length < 8 ∨ f.mac.length ≠ 16) := by
    simp [hmade, hbody, hmac]
  show execTiming f .mesh s = _
  rw [execTiming, does_quiet hup]
  exact congrArg (fun m => Host.Outcome.next (withMod s m)) ((if_neg hgood).trans (if_neg hnode))

theorem confirmExchange_some {m : Module} {th : Int} (now : Nat) (h : m.chanter.exchange = some th) : let t := confirmExchange now m
    t.num kALIGN_OK = 1 ∧ t.chanter.lastGood = now ∧ t.chanter.exchange = none
      ∧ t.chanter.theta = (m.chanter.theta ++ [(th, now)]).drop (m.chanter.theta.length + 1 - 8)
      ∧ t.num kALIGN_ERR_NS = min (spreadOf t.chanter.theta) 0xFFFFFFFF := by
  simp only [confirmExchange, h, List.length_append, List.length_singleton]
  exact ⟨(Module.num_setNum_ne _ _ (by decide)).trans (Module.num_setNum _ _ _), rfl, rfl, rfl, Module.num_setNum _ _ _⟩

end

end Sys2Proof.Machine

namespace Sys2Proof

open Machine Claims

/-- Settles O44: what a TIMING frame confirms or contradicts is noted first, and the answer that the frame may ask for changes no entry of it. -/
theorem alignmentIsLostAndFound : Obligations.AlignmentIsLostAndFound := by
  unfold Obligations.AlignmentIsLostAndFound
  refine ⟨fun _ => ends_alignLost, fun _ n _ => deadlineOf_unaligned n, fun t1 t2 t3 t4 _ hup => ends_timeExchange hup t1 t2 t3 t4,
    fun t1 t2 t3 t4 _ hup => exec_timeExchange_off hup t1 t2 t3 t4, ?_⟩
  intro f old s hup hmade hbody hmac hhere href hseen
  have hexec := exec_timing hup hmade hbody hmac hhere
  refine ⟨fun th hnear hth => ?_, fun hfar => ?_⟩
  · rw [timingTaken_near (m := quiet s) hseen hnear href] at hexec
    obtain ⟨hentries, hchanter⟩ := noteTiming_leaves (confirmExchange s.time (quiet s)) s.time f
    obtain ⟨hok, hgood, hnone, htheta, herr⟩ := confirmExchange_some (m := quiet s) s.time hth
    refine ⟨_, hexec, rfl, (num_of_entries hentries (by decide)).trans hok, ?_⟩
    simp only [withMod, hchanter, num_of_entries hentries (show kALIGN_ERR_NS ∉ sendCounters by decide)]
    exact ⟨hgood, hnone, htheta, herr⟩
  · rw [timingTaken_far (m := quiet s) hseen hfar href] at hexec
    obtain ⟨hentries, hchanter⟩ := noteTiming_leaves (discardExchange (quiet s)) s.time f
    obtain ⟨hmismatch, hok⟩ := discardExchange_nums (quiet s)
    refine ⟨_, hexec, (num_of_entries hentries (by decide)).trans hmismatch, ?_⟩
    simp only [withMod, hchanter]
    exact ⟨rfl, rfl, (num_of_entries hentries (by decide)).trans hok⟩

end Sys2Proof
end

section
/-! PROOFS. The statement of the ends of rounds: deadlines, the quorum hold, catch-up deltas and JOIN. -/

namespace Sys2Proof.Machine

open Claims

/-! ### Merging (R216) -/

section
variable {m : Module} (now : Nat)

theorem mergeIfReady_of_closed (h : openRound m = none) : mergeIfReady now m = m := by simp only [mergeIfReady, h]

theorem mergeIfReady_of_policy (h : m.num kEXCH_POLICY = 0) : mergeIfReady now m = m := by
  unfold mergeIfReady
  split
  · rfl
  · exact if_pos (.inr h)

theorem mergeIfReady_of_few (hpolicy : m.num kEXCH_POLICY ≠ 1) (h : quorumNow m < m.roundNum kQUORUM) : mergeIfReady now m = m := by
  unfold mergeIfReady
  split
  · rfl
  · next n _ =>
    have hfew : ¬(m.chanter.due = true ∧ m.roundNum kQUORUM ≤ quorumNow m) := fun ⟨_, hquorum⟩ => Nat.not_lt.mpr hquorum h
    rw [if_neg hpolicy, if_neg hfew]
    exact ite_self m

theorem mergeIfReady_of_quorum {n : Nat} (hopen : openRound m = some n) (hstate : m.num kCHANTER_FSTATE = 0) (hoff : m.num kEXCH_POLICY ≠ 0)
    (hpolicy : m.num kEXCH_POLICY ≠ 1) (hdue : m.chanter.due = true) (hquorum : m.roundNum kQUORUM ≤ quorumNow m) :
    mergeIfReady now m = mergeRound now n m := by
  have hon : ¬(m.num kCHANTER_FSTATE ≠ 0 ∨ m.num kEXCH_POLICY = 0) := fun h => h.elim (· hstate) hoff
  simp only [mergeIfReady, hopen, if_neg hon, if_neg hpolicy, if_pos (And.intro hdue hquorum)]

end

section
variable {s : State}

theorem exec_roundDeadline {d : Nat} (hup : Up s) (h : s.mod.chanter.deadline = some d) :
    exec .roundDeadline s = .next (atTime s d (fun now m => passDeadline now m)) := by
  show execRoundDeadline s = _
  rw [execRoundDeadline, h]
  exact doesWhen_atTime hup rfl

theorem exec_quorumHoldExpiry {n h : Nat} (hup : Up s) (hdue : s.mod.chanter.due = true) (hhold : s.mod.chanter.holdUntil = some h)
    (hstate : s.mod.num kCHANTER_FSTATE = 0) (hopen : openRound s.mod = some n) :
    exec .quorumHoldExpiry s =
      .next (atTime s h (fun now m => mergeRound now n (m.bump kQUORUM_MISS (if quorumNow s.mod < s.mod.roundNum kQUORUM then 1 else 0)))) := by
  have hcond : (s.mod.chanter.due && s.mod.chanter.holdUntil.isSome && s.mod.num kCHANTER_FSTATE == 0 && (openRound s.mod).isSome) = true := by
    simp [hdue, hhold, hstate, hopen]
  have hquiet : openRound (quiet s) = some n := hopen
  have hquorum : decide (quorumNow (quiet s) < (quiet s).roundNum kQUORUM) = decide (quorumNow s.mod < s.mod.roundNum kQUORUM) := rfl
  show execQuorumHoldExpiry s = _
  refine (doesWhen_atTime hup hcond).trans ?_
  simp only [atTime, hquiet, hhold, Option.getD_some, hquorum, b2n, decide_eq_true_eq]

/-! ### Catch-up deltas (R226) -/

variable {m : Module} {r pos b : Nat} {e : Extent}

/-- A held block that is closed, whose home is there and not ahead of it, with room for a delta: it forms one. -/
theorem catchUp_forms {now n : Nat} (hblock : (m.blocksOf r)[pos]? = some (e, b)) (hheld : pos ∈ (m.rg r).xch.heldPos) (hclosed : (m.hdr r e b).isOpen = false)
    (hhome : homeNode m (m.gidx r e b) = some n) (hthere : heldSince m n = none) (hadopted : (m.hdr r e b).adoptRnd = Tab.get 0 m.chanter.outer n)
    (hstate : m.num kCHANTER_FSTATE = 0) (hpolicy : m.num kEXCH_POLICY ≠ 0)
    (hroom : deltaRoom m r (payloadLen (m.rg r).xch.codec (m.rg r).xch.k) = true) :
    catchUp now r pos m = runAll now r (queueCommit now r
      { ext := e.idx, blk := b, kind := 4, round := (m.hdr r e b).adoptRnd + 1, origin := (m.hdr r e b).deltaRnd, flags := 8 } m) := by
  simp only [catchUp, hblock, hhome]
  refine if_neg ?_
  simp [hheld, hclosed, hthere, hadopted, hstate, hpolicy, hroom]

theorem catchUp_skips {now : Nat} (h : (m.blocksOf r)[pos]? = none ∨ pos ∉ (m.rg r).xch.heldPos) : catchUp now r pos m = m := by
  unfold catchUp
  split
  · rfl
  · next hblock =>
    have hheld : pos ∉ (m.rg r).xch.heldPos := h.resolve_left (by rw [hblock]; exact Option.some_ne_none _)
    exact if_pos (.inl (by simpa using hheld))

theorem exec_catchupDelta (hr : r < 16) (hup : Up s) :
    exec (.catchupDelta r pos) s = .next (withMod s (if s.mod.mstate = 2 then catchUp s.time r pos (quiet s) else quiet s)) := by
  show execCatchupDelta r pos s = _
  rw [execCatchupDelta, okR, decide_eq_true hr, guarded_true, does_quiet hup]
  have hrun : ((quiet s).inRun = true) = (s.mod.mstate = 2) := decide_eq_true_eq
  simp only [hrun]

/-! ### JOIN (R227) -/

theorem exec_join (hup : Up s) (v : Nat) : exec (.join v) s = .next (withMod s ((joinWrite s.time v (quiet s)).1.status (joinWrite s.time v (quiet s)).2)) := by
  show execJoin v s = _
  exact does_quiet hup

/-- What frames and the number of the next message leave alone, a message leaves alone. -/
theorem sendMsg_keeps {β : Type} (p : Module → β) (now node : Nat) (x : ChMsg) (m : Module) (hsend : ∀ f m, p (sendOnly now f m) = p m)
    (hnumber : ∀ n, p (m.modCh (fun c => { c with msgNo := n })) = p m) : p (sendMsg now node x m) = p m := by
  unfold sendMsg
  split
  · rfl
  · exact (forN_keeps p _ (fun _ _ => hsend _ _) _ _).trans (hnumber _)

@[simp] theorem regions_sendMsg (now node : Nat) (x : ChMsg) (m : Module) : (sendMsg now node x m).regions = m.regions :=
  sendMsg_keeps Module.regions now node x m (fun f m => regions_sendOnly m now f) (fun _ => rfl)

theorem regions_askResync (now r : Nat) (xs : List (Extent × Nat)) (m : Module) : (askResync now r xs m).regions = m.regions :=
  forL_regions m _ (fun _ m => forL_regions m _ (fun _ _ => regions_sendMsg _ _ _ _) _) _

theorem joinWrite_unready {now v : Nat} (hv : v ≤ 1) (h : m.mstate ≠ 2 ∨ m.num kCHANTER_FSTATE ≠ 0) : joinWrite now v m = (m, 8) := by
  have hnot : (!m.inRun) = true ∨ m.num kCHANTER_FSTATE ≠ 0 := h.imp_left (by simp [Module.inRun])
  rw [joinWrite, if_neg (Nat.not_lt.mpr hv), if_pos hnot]

section
variable (hrun : m.mstate = 2) (hstate : m.num kCHANTER_FSTATE = 0)
include hrun hstate

theorem not_unready_to_join : ¬((!m.inRun) = true ∨ m.num kCHANTER_FSTATE ≠ 0) := by simp [Module.inRun, hrun, hstate]

theorem joinWrite_idle {now : Nat} : joinWrite now 0 m = (m, 0) := by
  rw [joinWrite, if_neg (by decide), if_neg (not_unready_to_join hrun hstate), if_pos (.inl rfl)]

/-- JOIN as 1 asks for the blocks that are homed elsewhere, and asking writes no memory. -/
theorem joinWrite_asks {now : Nat} : (joinWrite now 1 m).2 = 0 ∧ (joinWrite now 1 m).1.regions = m.regions := by
  rw [joinWrite, if_neg (by decide), if_neg (not_unready_to_join hrun hstate)]
  split
  · exact ⟨rfl, rfl⟩
  · refine ⟨rfl, forL_regions m _ (fun r m => ?_) _⟩
    split
    · rfl
    · exact regions_askResync _ _ _ _

end

end

end Sys2Proof.Machine

namespace Sys2Proof

open Machine Claims

/-- Settles O43: by what a merge, a catch-up delta and JOIN wait for; JOIN's requests are messages, which leave the regions alone. -/
theorem roundsEnd : Obligations.RoundsEnd := by
  unfold Obligations.RoundsEnd
  refine ⟨fun d s hup h => exec_roundDeadline hup h, fun now n m => ⟨mergeIfReady_of_closed now, mergeIfReady_of_quorum now, mergeIfReady_of_policy now,
    mergeIfReady_of_few now⟩, fun n h s hup => exec_quorumHoldExpiry hup, ?_, ?_, ?_⟩
  · intro r pos b n e s hr hup hrun hblock hheld hclosed hhome hthere hadopted hstate hpolicy hroom
    rw [exec_catchupDelta hr hup, if_pos hrun]
    exact congrArg (fun m => Host.Outcome.next (withMod s m)) (catchUp_forms (m := quiet s) hblock hheld hclosed hhome hthere hadopted hstate hpolicy hroom)
  · intro r pos s hr hup h
    rw [exec_catchupDelta hr hup]
    split
    · next hrun => rw [catchUp_skips (m := quiet s) (h.resolve_left (not_not_intro hrun))]
    · rfl
  · intro v s hup
    rw [exec_join hup]
    refine ⟨fun hv => ?_, fun hv hnot => ?_, fun hv hrun hstate => ?_, fun hv hrun hstate => ?_⟩
    · rw [joinWrite, if_pos hv]
    · rw [joinWrite_unready (m := quiet s) hv hnot]
    · rw [hv, joinWrite_idle (m := quiet s) hrun hstate]
    · subst hv
      obtain ⟨hstatus, hregions⟩ := joinWrite_asks (m := quiet s) (now := s.time) hrun hstate
      exact ⟨_, exec_join hup 1, rfl, hstatus, hregions⟩

end Sys2Proof
end

section
/-! PROOFS. The statement of Chanter's messages and streams: what messages do as they arrive, and the timers by which Chanter sends. -/

namespace Sys2Proof.Machine

open Claims

/-! ### A message arrives (R209, R213, R396) -/

theorem forN_fixed {σ : Type} {f : Nat → σ → σ} {s : σ} {n : Nat} (h : ∀ i, i < n → f i s = s) : forN n s f = s := by
  induction n with
  | zero => rfl
  | succ n ih => rw [forN_succ, ih fun i hi => h i (Nat.lt_succ_of_lt hi), h n (Nat.lt_succ_self n)]

section
variable {m : Module} {src : Nat} {x : ChMsg}

theorem unready_of_notWaiting (h : ∀ e, e < 5 → (src, x) ∉ (m.edge e).ready) : unready src x m = m :=
  forN_fixed fun e he => if_neg (by simpa using h e he)

section
variable {now type : Nat} {k : Module → Module} (h : unready src x m = m)
include h

theorem onMessage_disabled (hstate : m.num kCHANTER_FSTATE ≠ 0) : onMessage now type src x k m = m.bump kCHANTER_DROPPED 1 := by
  rw [onMessage, h]
  exact if_pos hstate

theorem onMessage_outside_run (hstate : m.num kCHANTER_FSTATE = 0) (hrun : m.mstate ≠ 2) : onMessage now type src x k m = m := by
  rw [onMessage, h]
  exact (if_neg (not_not_intro hstate)).trans (if_pos (by simp [Module.inRun, hrun]))

variable (hstate : m.num kCHANTER_FSTATE = 0) (hrun : m.mstate = 2)
include hstate hrun

theorem onMessage_run : onMessage now type src x k m =
    if x.type ≠ type ∨ (4 ≤ type ∧ (x.len ≠ 0 ∨ x.body ≠ [])) then m.bump kFRAGS_BAD 1 else k (nodeUp now src (hear now src type x.outer m)) := by
  rw [onMessage, h]
  exact (if_neg (not_not_intro hstate)).trans (if_neg (by simp [Module.inRun, hrun]))

theorem onMessage_bad (hbad : x.type ≠ type ∨ (4 ≤ type ∧ (x.len ≠ 0 ∨ x.body ≠ []))) : onMessage now type src x k m = m.bump kFRAGS_BAD 1 :=
  (onMessage_run h hstate hrun).trans (if_pos hbad)

theorem onMessage_good (htype : x.type = type) (hbare : 4 ≤ type → x.len = 0 ∧ x.body = []) :
    onMessage now type src x k m = k (nodeUp now src (hear now src type x.outer m)) := by
  refine (onMessage_run h hstate hrun).trans (if_neg ?_)
  rintro (hne | ⟨hlong, hfull⟩)
  · exact hne htype
  · obtain ⟨hlen, hbody⟩ := hbare hlong
    exact hfull.elim (· hlen) (· hbody)

end

theorem exec_messageCommand {p : Nat × (Nat → ChMsg → Instr) × (Nat → Nat → ChMsg → Module → Module)} (hp : p ∈ messageCommands) (s : State) :
    exec (p.2.1 src x) s = s.does (fun now m => onMessage now p.1 src x (p.2.2 now src x) m) := by
  simp only [messageCommands, List.mem_cons, List.not_mem_nil, or_false] at hp
  rcases hp with rfl | rfl | rfl | rfl | rfl | rfl | rfl <;> rfl

end

/-- A message tells its node's OUTER, and that the node is there, unless it is a RESYNC or a PROBE (R213). -/
theorem hear_tells (now src ty outer : Nat) (m : Module) : Tab.get 0 (hear now src ty outer m).chanter.outer src = outer
    ∧ (ty ≠ 5 → ty ≠ 6 → Tab.find? (hear now src ty outer m).chanter.heard src = some now)
    ∧ ((ty = 5 ∨ ty = 6) → (hear now src ty outer m).chanter.heard = m.chanter.heard) := by
  have hheard : (hear now src ty outer m).chanter.heard = if ty = 5 ∨ ty = 6 then m.chanter.heard else Tab.put m.chanter.heard src now := rfl
  rw [hheard]
  refine ⟨Tab.get_put_self _ _ _ _, fun h5 h6 => ?_, fun h => if_pos h⟩
  rw [if_neg (not_or.mpr ⟨h5, h6⟩)]
  exact Tab.find?_put_self _ _ _

theorem nodeUp_held (now src : Nat) (m : Module) : Tab.find? (nodeUp now src m).chanter.held src = none := by
  unfold nodeUp
  split
  · assumption
  · exact Tab.find?_del_self _ _

/-! ### Fragments (R210, R211, R215) -/

section
variable {m : Module}

@[simp] theorem Module.recv_modRecv (m : Module) (key : Nat) (f : RecvSt → RecvSt) : (m.modRecv key f).recv key = f (m.recv key) := Tab.get_put_self _ _ _ _

theorem onFragment_unread {now src : Nat} {x : ChMsg} {k : List (Nat × Extent × Nat) → Module → Module} (h : msgBlocks m x = none) :
    onFragment now src x k m = m.bump kFRAGS_BAD 1 := by simp only [onFragment, h]

/-- The record of a stream takes its name from the message. -/
def nameStream (src : Nat) (x : ChMsg) (m : Module) : Module :=
  m.modRecv (msgKey src x) (fun y => { y with node := src, stream := x.stream, type := x.type, round := x.round, region := x.dstRegion })

/-- A copy is counted, and the acknowledgement of its stream is owed from now, if it was not. -/
def oweAck (now key : Nat) (m : Module) : Module :=
  (m.bump kFRAGS_DUP 1).modRecv key (fun y => { y with fresh := max 1 y.fresh, since := if y.fresh = 0 then now else y.since })

theorem oweAck_reads (now key : Nat) (m : Module) : (oweAck now key m).num kFRAGS_DUP = m.num kFRAGS_DUP + 1 ∧ 1 ≤ ((oweAck now key m).recv key).fresh
    ∧ ((oweAck now key m).recv key).stream = (m.recv key).stream := by
  rw [oweAck, Module.recv_modRecv]
  exact ⟨Module.num_bump m kFRAGS_DUP 1 kFRAGS_DUP, Nat.le_max_left _ _, rfl⟩

/-- A copy of a fragment that has been handled is counted, and its acknowledgement is owed again (R211). -/
theorem onFragment_handled {now src : Nat} {x : ChMsg} {k : List (Nat × Extent × Nat) → Module → Module} {bs : List (Nat × Extent × Nat)}
    (h : msgBlocks m x = some bs) (hdone : (m.recv (msgKey src x)).handled x.seq = true) : let t := onFragment now src x k m
    t.num kFRAGS_DUP = m.num kFRAGS_DUP + 1 ∧ 1 ≤ (t.recv (msgKey src x)).fresh ∧ (t.recv (msgKey src x)).stream = x.stream ∧ t.regions = m.regions := by
  have hagain : onFragment now src x k m = oweAck now (msgKey src x) (nameStream src x m) := by
    simp only [onFragment, h]
    exact if_pos (by rw [Module.recv_modRecv]; exact hdone)
  obtain ⟨hdup, hfresh, hstream⟩ := oweAck_reads now (msgKey src x) (nameStream src x m)
  rw [hagain]
  exact ⟨hdup, hfresh, hstream.trans (congrArg RecvSt.stream (Module.recv_modRecv m (msgKey src x) _)), rfl⟩

/-- A stale delta, by S_MAX, by the eight weights, or by policy 2, is counted and merges nothing (R215). -/
theorem mergeBlock_stale {now g b i : Nat} {x : ChMsg} {e : Extent} {ok : Bool} (h : let st := (m.hdr x.dstRegion e b).outerRnd - x.origin
    m.roundNum kS_MAX < st ∨ 7 < st ∨ (m.num kEXCH_POLICY = 2 ∧ 0 < st)) : mergeBlock now x g e b i (m, ok) = (m.bump kSTALE_DROP 1, ok) := if_pos h

end

theorem RecvSt.handled_iff (x : RecvSt) (seq : Nat) : x.handled seq = true ↔ seq < x.cum ∨ seq ∈ x.seen := by simp [RecvSt.handled]

/-- CUM passes over fragments only as they have arrived. -/
theorem advanceCum_keeps {n cum seq : Nat} {seen : List Nat} (h : seq < cum ∨ seq ∈ seen) :
    seq < (advanceCum n cum seen).1 ∨ seq ∈ (advanceCum n cum seen).2 := by
  induction n generalizing cum seen with
  | zero => exact h
  | succ n ih =>
    rw [advanceCum]
    split
    · refine ih ?_
      by_cases hcum : seq ≤ cum
      · exact .inl (Nat.lt_succ_of_le hcum)
      · exact .inr (List.mem_filter.mpr ⟨h.resolve_left (by omega), decide_eq_true (by omega)⟩)
    · exact h

/-- What is known of a stream once one of its fragments has been handled. -/
def RecvSt.note (now seq : Nat) (x : RecvSt) : RecvSt :=
  if x.handled seq then x
  else
    let (cum, seen) := advanceCum (x.seen.length + 1) x.cum (seq :: x.seen)
    { x with cum := cum, seen := seen, fresh := x.fresh + 1, since := if x.fresh = 0 then now else x.since }

theorem fragDone_eq (now key seq : Nat) (m : Module) : fragDone now key seq m =
    if 32 ≤ ((m.recv key).note now seq).fresh ∧ m.chSends then sendAck now key (m.modRecv key (RecvSt.note now seq)) else m.modRecv key (RecvSt.note now seq) := by
  rw [← Module.recv_modRecv m key (RecvSt.note now seq)]
  rfl

section
variable {now key seq : Nat} {m : Module}

theorem recv_fragDone (h : ((m.recv key).note now seq).fresh < 32) : (fragDone now key seq m).recv key = (m.recv key).note now seq := by
  rw [fragDone_eq, if_neg fun ⟨hmany, _⟩ => Nat.not_le.mpr h hmany, Module.recv_modRecv]

theorem RecvSt.note_handled {x : RecvSt} (h : x.handled seq = true) : x.note now seq = x := if_pos h

theorem RecvSt.note_new {x : RecvSt} (h : x.handled seq = false) : (x.note now seq).handled seq = true ∧ (x.note now seq).fresh = x.fresh + 1 := by
  rw [RecvSt.note, if_neg (by rw [h]; exact Bool.false_ne_true)]
  exact ⟨(RecvSt.handled_iff _ _).mpr (advanceCum_keeps (.inr List.mem_cons_self)), rfl⟩

end

theorem fragDone_handled {now key seq : Nat} {m : Module} (h : (m.recv key).handled seq = true) (hfresh : (m.recv key).fresh < 32) :
    (fragDone now key seq m).recv key = m.recv key := by
  have hsame := RecvSt.note_handled (now := now) h
  rw [recv_fragDone (by rwa [hsame]), hsame]

theorem fragDone_new {now key seq : Nat} {m : Module} (h : (m.recv key).handled seq = false) (hfresh : (m.recv key).fresh < 31) :
    ((fragDone now key seq m).recv key).handled seq = true ∧ ((fragDone now key seq m).recv key).fresh = (m.recv key).fresh + 1 := by
  obtain ⟨hhandled, hcount⟩ := RecvSt.note_new (now := now) h
  rw [recv_fragDone (by omega)]
  exact ⟨hhandled, hcount⟩

/-! ### What a message leaves alone -/

/-- Chanter's state but for the number of its next message. -/
def Chanter.unnumbered (c : Chanter) : Chanter := { c with msgNo := 0 }

section
variable (now node : Nat) (x : ChMsg) (m : Module)

theorem unnumbered_sendMsg : (sendMsg now node x m).chanter.unnumbered = m.chanter.unnumbered :=
  sendMsg_keeps (fun m => m.chanter.unnumbered) now node x m (fun f m => congrArg Chanter.unnumbered (chanter_sendOnly m now f)) (fun _ => rfl)

theorem entries_sendMsg : (sendMsg now node x m).entries = m.entries :=
  sendMsg_keeps Module.entries now node x m (fun f m => entries_sendOnly m now f) (fun _ => rfl)

theorem recv_sendMsg (key : Nat) : (sendMsg now node x m).recv key = m.recv key := by
  have hrecvs : (sendMsg now node x m).chanter.recvs = m.chanter.recvs := (congrArg Chanter.recvs (unnumbered_sendMsg now node x m) :)
  rw [Module.recv, hrecvs, Module.recv]

end

/-! ### Sending (R199, R212, R213) -/

theorem chSends_iff (m : Module) : m.chSends = true ↔ (m.num kEXCH_POLICY ≠ 0 ∧ m.num kCHANTER_FSTATE = 0 ∧ m.dieInReset 0 = false) := by
  simp [Module.chSends, and_assoc]

theorem sendMsg_silent {now node : Nat} {x : ChMsg} {m : Module} (h : m.chSends = false) : sendMsg now node x m = m := by simp [sendMsg, h]

theorem sendAck_fresh (now key : Nat) (m : Module) : ((sendAck now key m).recv key).fresh = 0 := by
  rw [sendAck, recv_sendMsg, Module.recv_modRecv]

section
variable (now stream rto : Nat) (st : StreamSt) (f : Frag) (m : Module)

/-- The stream with a fragment of it on the wire. -/
def StreamSt.sent (now rto : Nat) (f : Frag) (st : StreamSt) : StreamSt :=
  { st with frags := st.frags.map (fun g => if g.msg.seq = f.msg.seq then { g with sentAt := some now, rto := rto, sends := g.sends + 1 } else g) }

/-- A fragment is noted as sent, and then leaves as a message. -/
theorem sendFrag_eq : ∃ msg x, sendFrag now stream st f rto m = sendMsg now st.node msg x ∧ x.regions = m.regions
    ∧ x.num kLH_RATE_MBPS = m.num kLH_RATE_MBPS ∧ x.chanter.share = m.chanter.share
    ∧ x.chanter.sendNext = now + rateNs f.msg.body.length (m.num kLH_RATE_MBPS)
    ∧ x.chanter.streams = Tab.put m.chanter.streams stream (st.sent now rto f) := by
  have hnum : (m.bump (if f.sends = 0 then kFRAGS_SENT else kFRAGS_RESENT) 1).num kLH_RATE_MBPS = m.num kLH_RATE_MBPS :=
    Module.num_setNum_ne _ _ (by split <;> decide)
  have hbody : (if f.sends = 0 then f.msg else { f.msg with flags := setBit f.msg.flags 2 }).body = f.msg.body := by split <;> rfl
  refine ⟨_, _, rfl, rfl, hnum, rfl, ?_, rfl⟩
  simp only [Module.modCh_chanter]
  rw [hnum, hbody]

theorem sendFrag_reads : let t := sendFrag now stream st f rto m
    t.regions = m.regions ∧ t.num kLH_RATE_MBPS = m.num kLH_RATE_MBPS ∧ t.chanter.share = m.chanter.share
      ∧ t.chanter.sendNext = now + rateNs f.msg.body.length (m.num kLH_RATE_MBPS)
      ∧ t.chanter.streams = Tab.put m.chanter.streams stream (st.sent now rto f) := by
  obtain ⟨msg, x, heq, hregions, hrate, hshare, hnext, hstreams⟩ := sendFrag_eq now stream rto st f m
  have hchanter := unnumbered_sendMsg now st.node msg x
  rw [heq]
  exact ⟨(regions_sendMsg _ _ _ _).trans hregions, (num_of_entries (entries_sendMsg _ _ _ _) (by decide)).trans hrate, (congrArg Chanter.share hchanter).trans hshare,
    (congrArg Chanter.sendNext hchanter).trans hnext, (congrArg Chanter.streams hchanter).trans hstreams⟩

end

theorem rtoFrag_some {m : Module} {stream seq d : Nat} {st : StreamSt} {f : Frag} (h : rtoFrag m stream seq = some (st, f, d)) :
    ∃ t, f.sentAt = some t ∧ d = max (t + f.rto) (paceAt m st.node f.msg) := by
  unfold rtoFrag at h
  split at h
  · exact absurd h (Option.some_ne_none _).symm
  · split at h
    · exact absurd h (Option.some_ne_none _).symm
    · split at h
      · next t hsent =>
        split at h
        · simp only [Option.some.injEq, Prod.mk.injEq] at h
          obtain ⟨rfl, rfl, rfl⟩ := h
          exact ⟨t, hsent, rfl⟩
        · exact absurd h (Option.some_ne_none _).symm
      · exact absurd h (Option.some_ne_none _).symm

section
variable {s : State}

theorem exec_fragmentSend {stream : Nat} {st : StreamSt} {f : Frag} (hup : Up s) (h : nextFrag s.mod stream = some (st, f)) :
    exec (.fragmentSend stream) s = .next (atTime s (paceAt s.mod st.node f.msg)
      (fun now m => sendFrag now stream st f (if f.sends = 0 then firstRto m st.node else min 2000000000 (2 * f.rto)) m)) := by
  have hquiet : nextFrag (quiet s) stream = some (st, f) := h
  show execFragmentSend stream s = _
  rw [execFragmentSend, h]
  refine (doesWhen_atTime hup rfl).trans ?_
  simp only [atTime, hquiet]
  rfl

/-- The share of a node's site halves as its fragment is sent again (R213). -/
def halveShare (now site : Nat) (m : Module) : Module :=
  m.modCh (fun c => { c with share := Tab.put c.share site (shareOf m site / 2), shareAt := Tab.put c.shareAt site now })

theorem exec_rtoExpiry {stream seq d : Nat} {st : StreamSt} {f : Frag} (hup : Up s) (h : rtoFrag s.mod stream seq = some (st, f, d)) :
    exec (.rtoExpiry stream seq) s = .next (atTime s d
      (fun now m => halveShare now (m.siteOf st.node) (sendFrag now stream st f (min 2000000000 (2 * f.rto)) m))) := by
  have hquiet : rtoFrag (quiet s) stream seq = some (st, f, d) := h
  show execRtoExpiry stream seq s = _
  rw [execRtoExpiry, h]
  refine (doesWhen_atTime hup rfl).trans ?_
  simp only [atTime, hquiet]
  rfl

theorem exec_longHaulRateRecovery {site : Nat} (hsite : site < 64) (hup : Up s) (h : shareOf s.mod site < s.mod.num kLH_RATE_MBPS) :
    exec (.longHaulRateRecovery site) s = .next (atTime s (Tab.get 0 s.mod.chanter.shareAt site + siteSrtt s.mod site) (fun now m => m.modCh (fun c =>
      { c with share := Tab.put c.share site (min (s.mod.num kLH_RATE_MBPS) (shareOf s.mod site + s.mod.num kLH_RATE_MBPS / 16)), shareAt := Tab.put c.shareAt site now }))) := by
  show execLongHaulRateRecovery site s = _
  rw [execLongHaulRateRecovery, decide_eq_true hsite, guarded_true]
  exact doesWhen_atTime hup (decide_eq_true h)

/-! ### Acknowledgements and probes (R211, R213) -/

theorem exec_ackTimer_silent (hup : Up s) (node stream : Nat) (h : s.mod.chSends = false) : exec (.ackTimer node stream) s = .next (withMod s (quiet s)) := by
  show execAckTimer node stream s = _
  exact doesWhen_quiet hup (by rw [h, Bool.and_false])

theorem exec_probeTimer_silent (hup : Up s) (node : Nat) (h : s.mod.chSends = false) : exec (.probeTimer node) s = .next (withMod s (quiet s)) := by
  show execProbeTimer node s = _
  exact doesWhen_quiet hup (by rw [h, Bool.and_false])

theorem exec_ackTimer_owed {node stream key : Nat} {y : RecvSt} (hup : Up s) (h : s.mod.chSends = true) (howed : ackOwed s.mod node stream = some (key, y)) :
    exec (.ackTimer node stream) s = .next (atTime s (y.since + s.mod.num kACK_MS * 1000000) (fun now m => sendAck now key m)) := by
  have hquiet : ackOwed (quiet s) node stream = some (key, y) := howed
  show execAckTimer node stream s = _
  rw [execAckTimer, howed]
  refine (doesWhen_atTime hup h).trans ?_
  simp only [atTime, hquiet]
  rfl

theorem exec_probeTimer_held {node h : Nat} (hup : Up s) (hsends : s.mod.chSends = true) (hheld : heldSince s.mod node = some h) :
    exec (.probeTimer node) s = .next (atTime s (max h (Tab.get 0 s.mod.chanter.probed node) + s.mod.num kPROBE_MS * 1000000) (fun now m =>
      sendMsg now node { noMsg with type := 6, w2 := now % 2 ^ 64 } (m.modCh (fun c => { c with probed := Tab.put c.probed node now })))) := by
  show execProbeTimer node s = _
  rw [execProbeTimer, hheld]
  exact doesWhen_atTime hup hsends

/-! ### Silent peers (R213, R432) -/

theorem heldSince_of_held {m : Module} {node t : Nat} (h : Tab.find? m.chanter.held node = some t) : heldSince m node = some t := by
  simp only [heldSince, h]

theorem heldSince_isSome {m : Module} {node : Nat} (h : Tab.find? m.chanter.held node = none) : (heldSince m node).isSome = true ↔ m.keyless node = true := by
  simp only [heldSince, h]
  cases m.keyless node <;> simp

theorem two_le_peerState {m : Module} {site node : Nat} (hmem : node ∈ m.siteNodes site) (hheld : (heldSince m node).isSome = true) : 2 ≤ peerState m site := by
  have hsome : ((m.siteNodes site).filter (fun n => (heldSince m n).isSome)).length ≠ 0 :=
    Nat.ne_of_gt (List.length_pos_of_mem (List.mem_filter.mpr ⟨hmem, hheld⟩))
  rw [peerState, if_neg (List.ne_nil_of_mem hmem), if_neg hsome]
  split <;> decide

theorem ends_peerHeld {node t0 : Nat} (hup : Up s) (hheard : Tab.find? s.mod.chanter.heard node = some t0) (hheld : Tab.find? s.mod.chanter.held node = none) :
    Ends (.peerHeld node) s fun t =>
      t.time = max s.time (t0 + s.mod.num kDEAD_MS * 1000000) ∧ Tab.find? t.mod.chanter.held node = some (max s.time (t0 + s.mod.num kDEAD_MS * 1000000))
        ∧ t.mod.regions = s.mod.regions ∧ ∀ site, site < 64 → node ∈ s.mod.siteNodes site → 2 ≤ peerState t.mod site := by
  have hexec : exec (.peerHeld node) s = .next (atTime s (t0 + s.mod.num kDEAD_MS * 1000000) (fun now m =>
      m.modCh (fun c => { c with held := Tab.put c.held node now, probed := Tab.put c.probed node now }))) := by
    show execPeerHeld node s = _
    rw [execPeerHeld, hheard, hheld]
    exact doesWhen_atTime hup rfl
  have hput := Tab.find?_put_self s.mod.chanter.held node (max s.time (t0 + s.mod.num kDEAD_MS * 1000000))
  exact ⟨_, hexec, rfl, hput, rfl, fun site _ hmem => two_le_peerState hmem (Option.isSome_iff_exists.mpr ⟨_, heldSince_of_held hput⟩)⟩

end

theorem derivedEntry_peerState {site : Nat} (hsite : site < 64) (m : Module) (now : Nat) :
    derivedEntry m now (kPEER_STATE + site) = some (leBytes 1 (peerState m site)) := by
  have hidx : (kPEER_STATE + site) / 256 = kPEER_STATE / 256 := by simp only [kPEER_STATE]; omega
  have hne {k : Nat} (hk : k / 256 ≠ kPEER_STATE / 256) : kPEER_STATE + site ≠ k := fun h => hk (h ▸ hidx)
  have hresidency : ¬(kRESIDENCY_NS ≤ kPEER_STATE + site ∧ kPEER_STATE + site < kRESIDENCY_NS + 5) := by simp only [kPEER_STATE, kRESIDENCY_NS]; omega
  simp (disch := decide) only [derivedEntry, hidx, hne, hresidency, if_false, if_true, Nat.add_sub_cancel_left]
  rfl

end Sys2Proof.Machine

namespace Sys2Proof

open Machine Claims

theorem message_arrives {p : Nat × (Nat → ChMsg → Instr) × (Nat → Nat → ChMsg → Module → Module)} (hp : p ∈ messageCommands) {src : Nat} {x : ChMsg} {s : State}
    (hup : Up s) (hwaits : NotWaiting s src x) :
    (s.mod.num kCHANTER_FSTATE ≠ 0 → exec (p.2.1 src x) s = .next (withMod s ((quiet s).bump kCHANTER_DROPPED 1)))
      ∧ (s.mod.num kCHANTER_FSTATE = 0 → s.mod.mstate ≠ 2 → exec (p.2.1 src x) s = .next (withMod s (quiet s)))
      ∧ (s.mod.num kCHANTER_FSTATE = 0 → s.mod.mstate = 2 → x.type ≠ p.1 → exec (p.2.1 src x) s = .next (withMod s ((quiet s).bump kFRAGS_BAD 1)))
      ∧ (s.mod.num kCHANTER_FSTATE = 0 → s.mod.mstate = 2 → 4 ≤ p.1 → (x.len ≠ 0 ∨ x.body ≠ []) → exec (p.2.1 src x) s = .next (withMod s ((quiet s).bump kFRAGS_BAD 1)))
      ∧ (s.mod.num kCHANTER_FSTATE = 0 → s.mod.mstate = 2 → x.type = p.1 → (4 ≤ p.1 → x.len = 0 ∧ x.body = []) →
          exec (p.2.1 src x) s = .next (withMod s (p.2.2 s.time src x (nodeUp s.time src (hear s.time src p.1 x.outer (quiet s)))))) := by
  have hquiet : unready src x (quiet s) = quiet s := unready_of_notWaiting hwaits
  rw [exec_messageCommand hp, does_quiet hup]
  refine ⟨fun hstate => ?_, fun hstate hrun => ?_, fun hstate hrun hbad => ?_, fun hstate hrun hlong hfull => ?_, fun hstate hrun htype hbare => ?_⟩
  · rw [onMessage_disabled hquiet hstate]
  · rw [onMessage_outside_run hquiet hstate hrun]
  · rw [onMessage_bad hquiet hstate hrun (.inl hbad)]
  · rw [onMessage_bad hquiet hstate hrun (.inr ⟨hlong, hfull⟩)]
  · rw [onMessage_good hquiet hstate hrun htype hbare]

theorem ends_rtoExpiry {stream seq d : Nat} {st : StreamSt} {f : Frag} {s : State} (hup : Up s) (h : rtoFrag s.mod stream seq = some (st, f, d)) :
    Ends (.rtoExpiry stream seq) s fun t =>
      t.time = max s.time d ∧ Tab.find? t.mod.chanter.share (s.mod.siteOf st.node) = some (shareOf s.mod (s.mod.siteOf st.node) / 2)
        ∧ Tab.find? t.mod.chanter.shareAt (s.mod.siteOf st.node) = some (max s.time d)
        ∧ Tab.find? t.mod.chanter.streams stream = some (st.sent (max s.time d) (min 2000000000 (2 * f.rto)) f) := by
  obtain ⟨-, hrate, hshare, -, hstreams⟩ := sendFrag_reads (max s.time d) stream (min 2000000000 (2 * f.rto)) st f (quiet s)
  have hsame : shareOf (sendFrag (max s.time d) stream st f (min 2000000000 (2 * f.rto)) (quiet s)) (s.mod.siteOf st.node) =
      shareOf s.mod (s.mod.siteOf st.node) := by
    rw [shareOf, hrate, hshare, shareOf]
    rfl
  refine ⟨_, exec_rtoExpiry hup h, rfl, ?_, Tab.find?_put_self _ _ _, ?_⟩
  · exact (Tab.find?_put_self _ _ _).trans (congrArg (fun v => some (v / 2)) hsame)
  · exact (congrArg (fun t => Tab.find? t stream) hstreams).trans (Tab.find?_put_self _ _ _)

/-- Settles O42: each command by its own lemma; what a sending notes stands after its message has left, which changes only the number of the next message. -/
theorem messagesAndStreams : Obligations.MessagesAndStreams := by
  unfold Obligations.MessagesAndStreams
  refine ⟨fun p hp src x s => message_arrives hp, ?_, fun now src x k m => onFragment_unread, fun now src x k bs m => onFragment_handled,
    fun m src x y => rfl, fun now g b i x e m ok => mergeBlock_stale, fun now key seq m => ⟨fragDone_handled, fragDone_new⟩,
    fun stream st f s => exec_fragmentSend, fun stream seq d st f s => ends_rtoExpiry, ?_, fun site s => exec_longHaulRateRecovery, chSends_iff,
    fun node stream s hup h => ⟨exec_ackTimer_silent hup node stream h, exec_probeTimer_silent hup node h⟩,
    fun now node x m => sendMsg_silent, fun node stream key y s => exec_ackTimer_owed, sendAck_fresh, ?_, fun node t0 s => ends_peerHeld,
    fun m now site hsite => derivedEntry_peerState hsite m now, fun m node => heldSince_isSome, fun node h s => exec_probeTimer_held⟩
  · intro now src ty outer m
    obtain ⟨houter, hthere, hasks⟩ := hear_tells now src ty outer m
    exact ⟨houter, hthere, hasks, nodeUp_held now src m⟩
  · intro now stream rto st f m
    obtain ⟨hregions, -, -, hnext, hstreams⟩ := sendFrag_reads now stream rto st f m
    refine ⟨hnext, ?_, fun r => ?_⟩
    · rw [hstreams]
      exact Tab.find?_put_self _ _ _
    · rw [Module.rg_of_regions _ hregions]
  · intro m stream seq d st f h
    obtain ⟨t, hsent, rfl⟩ := rtoFrag_some h
    exact ⟨Nat.le_max_right _ _, fun t' ht' => by rw [Option.some.inj (ht'.symm.trans hsent)]; exact Nat.le_max_left _ _⟩

end Sys2Proof
end
